-- ==== Sys2Proof/Syntax.lean ====
section
/-! DEFINITION. The commands of the device: one constructor for each row of spec/opcode_table.json, each an event that
the environment or one of the device's own units brings about, with the operands it carries. -/
namespace Sys2Proof

/-- A physical upset that an issued instruction meets: in its instruction word, in a lane's residue, in a lookup
entry, or in the 8-byte vault group at an address (R125, R126, R140). -/
inductive Upset where
  | none
  | imemCorrected
  | imemUncorrectable
  | residue (lane : Nat)
  | lut (entry : Nat)
  | parity (addr : Nat)
  | spareParity (site addr : Nat)
  deriving DecidableEq, Repr

/-- The core that issues its next instruction: logical cluster, core 0 teller, 1 VEC0, 2 VEC1, and what upset it meets. -/
structure Issue where
  cluster : Nat
  core : Nat
  upset : Upset
  deriving DecidableEq, Repr

/-- An upset of the array that an audit meets: cells of the K-block and pass just audited hold a partial wrong by some
number, by row and column of the 65 x 65 physical array, whose row 64 is the checksum row and column 64 the checksum
column (R16, R95, R96); or the residue check of an aligning shift or accumulator addition fails, first at that row and
column of the tile (R88, R97). -/
inductive CellUpset where
  | none
  | cells (errors : List (Nat × Nat × Int))
  | writeback (row col : Nat)
  deriving DecidableEq, Repr

/-- Kinds of token (R178). -/
inductive TokenKind where
  | data | haloDone | clearDone
  deriving DecidableEq, Repr

/-- A token of 320 B: its head and its 64 lanes (R178). -/
structure Token where
  endpoint : Nat
  epoch : Nat
  kind : TokenKind
  poison : Bool
  cx : Nat
  source : Nat
  sourceEp : Nat
  mask : DWord
  scales : List Word
  id : Nat
  lanes : List Word
  deriving DecidableEq, Repr

/-- Who holds the credit that a token used: a SEND endpoint of a cluster, a fabric binding, or nobody (R176). -/
inductive Producer where
  | endpoint (cluster ep : Nat)
  | fabric (port binding : Nat)
  | none
  deriving DecidableEq, Repr

/-- Mesh packet types (R150). -/
inductive PktType where
  | READ_REQ | WRITE_REQ | READ_RSP | WRITE_ACK | MCAST_RSP | MSG | TOKEN | CLEAR | REG | MOVE
  deriving DecidableEq, Repr

/-- A unit of the mesh: the vault port and engines of a logical cluster, reached through the ledger, a memory channel,
a fabric port, or the PCIe endpoint (R150, R159). -/
inductive MeshUnit where
  | cluster (L unit : Nat)
  | channel (part ch : Nat)
  | port (n : Nat)
  | pcie
  deriving DecidableEq, Repr

/-- What a packet carries after its header. -/
inductive Payload where
  | bytes (b : List Byte)
  | token (t : Token) (from_ : Producer)
  | clear (row count run : Nat) (sfmt16 : Bool) (scale : Nat) (lanes : List Word) (from_ : List Nat)
  | dests (d : List (MeshUnit × Nat)) (b : List Byte)
  deriving DecidableEq, Repr

/-- A mesh packet (R150): its number in the model, where it goes and comes from, the router that its head has reached,
its header fields, its payload, how many of its flits its destination has taken, whether the tree router that a CLEAR
packet stands at has looked at it (R164), and for a memory request whose page has had its frame replaced since it was
translated, the block that it goes to (R275). -/
structure Packet where
  serial : Nat
  type : PktType
  dst : MeshUnit
  src : MeshUnit
  x : Nat
  y : Nat
  injTime : Nat
  aged : Bool
  poison : Bool
  detour : Bool
  cx : Nat
  addr : Nat
  len : Nat
  reqId : Nat
  status : Nat
  payload : Payload
  ejected : Nat
  looked : Bool
  block : Option Nat
  deriving DecidableEq, Repr

/-- A READ_REQ that its unit serves: the packet, the other reads of the same place that wait there with it (their units
and request identifiers), and how many reads of the cluster's own ports the same access answers (R138, R276). -/
structure ReadService where
  pkt : Packet
  waiting : List (MeshUnit × Nat)
  ports : Nat
  deriving DecidableEq, Repr

/-- A router port (R148). -/
inductive Port where
  | north | south | east | west | here
  deriving DecidableEq, Repr

/-- What a read of a 64-byte block, and the second read of one that could not be corrected, find changed (R270, R271): the
symbols, 36 of sub-channel A and then 36 of B, three to a pin, each with the bits that differ. -/
structure BlockErrors where
  first : List (Nat × Byte)
  again : List (Nat × Byte)
  deriving DecidableEq, Repr

def BlockErrors.none : BlockErrors := ⟨[], []⟩

/-- A packet cell: its header (R295) and 32 bytes of payload (R294). `poison`: the mark with which data of a poisoned block
crosses the fabric (R263); the header has no bit for it, so it stands beside the cell, DESIGN CHOICE, log entry 36. -/
structure PacketCell where
  vc : Nat
  esc : Bool
  revValid : Bool
  ptr : Nat
  kind : Nat
  route : List Nat
  src : Nat
  dst : Nat
  xid : Nat
  index : Nat
  payload : List Byte
  poison : Bool := false
  deriving DecidableEq, Repr

/-- A circuit cell: its header (R297) and 44 bytes of payload. -/
structure CircuitCell where
  phase : Nat
  circuit : Nat
  part : Nat
  payload : List Byte
  deriving DecidableEq, Repr

/-- A cell position of a link block (R290, R294). -/
inductive Cell where
  | idle
  | packet (c : PacketCell)
  | circuit (c : CircuitCell)
  | reserved
  deriving DecidableEq, Repr

/-- The SECDED tables of a fabric port (R144, R323). -/
inductive FabTable where
  | route | escape | circuit | slot
  deriving DecidableEq, Repr

/-- A link block as it arrives: whether its codewords were correctable and its CRC right, the codewords that needed a
correction, its link control and cells (R290 to R292), and the entry of the port's tables whose single-bit error is
corrected as the block is handled (R323). -/
structure LinkBlock where
  good : Bool
  corrected : Nat
  seq : Nat
  btype : Nat
  ack : Nat
  nak : Bool
  ready : Bool
  credit : List Nat
  cells : List Cell
  tableError : Option (FabTable × Nat)
  deriving DecidableEq, Repr

/-- The identity and usage records of a cartridge (R326). -/
structure Cartridge where
  identity : List Byte
  signature : List Byte
  hours : Nat
  insertions : Nat
  lastModule : Nat
  deriving DecidableEq, Repr

/-- What a march slice found: no difference, or the row and march element of the first one (R365, R374). -/
inductive SliceResult where
  | pass
  | fail (row element : Nat)
  deriving DecidableEq, Repr

/-- A unit that a plan found failing (R371 to R374): its site, the unit, 30 for the scan, and where it failed. -/
structure UnitFailure where
  site : Nat
  unit : Nat
  row : Nat
  element : Nat
  background : Nat
  pattern : Nat
  deriving DecidableEq, Repr

/-- The management path that a request comes by (R424, R434, R437): a datagram to port MGT_CTRL.PORT, a datagram to a UDP port
which arrives whole or as a fragment or in a frame that is too long, MCTP, DOE. -/
inductive Requester where
  | aihar (address : Nat)
  | udp (address port : Nat) (whole : Bool)
  | malformed (address : Nat)
  | mctp
  | doe
  deriving DecidableEq, Repr

/-- A frame on the management port (R434): whether its addresses are IPv6, who sent it and whom it asks for, its bytes, whether
it has an IEEE 802.1Q tag, whether it is a fragment. -/
structure MgtFrame where
  ipv6 : Bool
  source : Nat
  target : Nat
  length : Nat
  tagged : Bool
  fragment : Bool
  deriving DecidableEq, Repr

/-- The XID of a SET_CONFIG and the offset of the word that it writes (R437). -/
structure ConfigWrite where
  xid : Nat
  offset : Nat
  deriving DecidableEq, Repr

/-- Who asks for an attestation, and the XID of the request (R424, R435). -/
structure Asker where
  source : Requester
  xid : Nat
  deriving DecidableEq, Repr

/-- What step 2 of bring-up finds: whether the fuse read passes its check, and which of the two copies of the defect ledger in
flash (0, 1) fail their digests (R399, R405). -/
structure FuseRead where
  ok : Bool
  badCopies : List Nat
  deriving DecidableEq, Repr

/-- What training finds: the channels that failed twice, and those that needed a second attempt and then trained (R280,
R395). -/
structure Training where
  failed : List Nat
  retried : List Nat
  deriving DecidableEq, Repr

/-- The accumulator set that is freed, and the row and column of the tile of the first residue comparison of its C
additions or aligning shifts that fails, if one does (R88, R97, R464). -/
structure FreedSet where
  set : Nat
  residueError : Option (Nat × Nat)
  deriving DecidableEq, Repr

/-- What a REG packet does: the value of a write, or a read; and the row of the placement ledger that was read with a
single-bit error (R12, R144, R224). -/
structure RegAccess where
  write : Option Nat
  ledgerError : Option Nat
  deriving DecidableEq, Repr

/-- A core cycle of a router output: the output, the cycle counted from frame 0 slot 0 (R156), and whether the slot entry
that is read has a single-bit error (R157). -/
structure OutputCycle where
  out : Port
  cc : Nat
  slotError : Bool
  deriving DecidableEq, Repr

/-- A channel that gave no acknowledgement in self-refresh: at its entry, or at its exit (R283). -/
structure RefreshTimeout where
  ch : Nat
  entry : Bool
  deriving DecidableEq, Repr

/-- The module at the other end of a link and the features that its licence gives it (R289). -/
structure LinkPartner where
  module : Nat
  features : Nat
  deriving DecidableEq, Repr

/-- An error record as a block sends it to the Nose (R432): severity, BLOCK, CODE, INSTANCE, context, DETAIL. -/
structure ErrorRecord where
  injected : Bool
  severity : Nat
  block : Nat
  code : Nat
  inst : Nat
  cx : Option Nat
  detail : List Word
  deriving DecidableEq, Repr

/-- A PCI configuration request (R329, R330). -/
inductive ConfigRequest where
  | memorySpace (on : Bool)
  | resizeBar2 (log2GiB : Nat)
  | powerState (d3 : Bool)
  | msixEnable (on : Bool)
  | bar (index address : Nat)
  | read (offset : Nat)
  deriving DecidableEq, Repr

/-- The commands (spec/opcode_table.json); one whole, indivisible step each (95_what_each_step_holds.md).
In the table's order, but that rows without operands stand last: compiled code bounds the tags of the others. -/
inductive Instr where
  /-- OVERLOAD (R341): A ring backlogged at OVERLOAD consecutive polls sets its SUB_OVERLOAD bit and signals vector 0. -/
  | overload (cx : Nat)
  /-- SKIP_LIMIT (R38): SKIP_LIMIT consecutive skipped boundaries are reached and the context is handled as under Fault. -/
  | skipLimit (cx : Nat)
  /-- FOL_DRAIN_TIMEOUT (R190): CONSECUTIVE slips reach FOL_DRAIN_LIMIT and the context is handled as under Fault. -/
  | folDrainTimeout (cx : Nat)
  /-- HANG_DECLARED (R378): A closed set of units is found without progress for WINDOW boundaries and a hang is declared. -/
  | hangDeclared (cx : Nat)
  /-- RERUN_LIMIT (R379): A context reaches RERUN_LIMIT consecutive reruns and its fault-reporting partitions are reset with cause RERUN. -/
  | rerunLimit (cx : Nat)
  /-- QUARANTINED (R386): A replay that has not finished by the WINDOW+1-th boundary is discarded and its context quarantined. -/
  | quarantined (cx : Nat)
  /-- AUDIT_RETIRE (R98): A site reaches AUD_RETIRE_COUNT mismatching tallies within AUD_WINDOW and is retired. -/
  | auditRetire (site : Nat)
  /-- TALLY_IN_PULSE (R39): A pulse arrives at TALLY_IN and a pin Follower places its next edge one period after the compensated source edge. -/
  | tallyInPulse (arrivalNs : Nat)
  /-- TALLY_CELL (R40): A tally cell arrives on the source port and a fabric Follower takes its edge, number and period. -/
  | tallyCell (port : Nat) (cell : PacketCell) (arrivalNs : Nat)
  /-- REGISTER_WRITE (R7): A BAR0 write to a register with no row of its own acts by its access code. -/
  | registerWrite (addr : Nat) (size : Nat) (value : Nat)
  /-- ALU (R109): A scalar ALU instruction computes gD from gA and gB by FN. -/
  | alu (who : Issue)
  /-- ADDI (R109): gD receives gA plus the sign-extended immediate. -/
  | addi (who : Issue)
  /-- ANDI (R109): gD receives gA AND the zero-extended immediate. -/
  | andi (who : Issue)
  /-- ORI (R109): gD receives gA OR the zero-extended immediate. -/
  | ori (who : Issue)
  /-- XORI (R109): gD receives gA XOR the zero-extended immediate. -/
  | xori (who : Issue)
  /-- LUI (R109): gD receives the immediate shifted left by 16. -/
  | lui (who : Issue)
  /-- SHLI (R109): gD receives gA shifted left by an immediate. -/
  | shli (who : Issue)
  /-- SHRI (R109): gD receives gA shifted logically right by an immediate. -/
  | shri (who : Issue)
  /-- SRAI (R109): gD receives gA shifted arithmetically right by an immediate. -/
  | srai (who : Issue)
  /-- CMP (R109): kD receives the comparison of gA and gB. -/
  | cmp (who : Issue)
  /-- KOP (R109): A predicate logic function writes kD or gD. -/
  | kop (who : Issue)
  /-- VV (R109): vD receives vA FN vB in each performed lane, with residue check. -/
  | vv (who : Issue)
  /-- VS (R109): vD receives vA FN the broadcast gB in each performed lane. -/
  | vs (who : Issue)
  /-- VCMP (R109): kD lanes receive the per-lane comparison of vA and vB. -/
  | vcmp (who : Issue)
  /-- VCMPS (R109): kD lanes receive the comparison of vA lanes with gB. -/
  | vcmps (who : Issue)
  /-- SEL (R109): vD lanes are selected from vA or vB by kKP. -/
  | sel (who : Issue)
  /-- RED (R111): gD receives a reduction of vA over the lanes of kKP. -/
  | red (who : Issue)
  /-- LDW (R112): gD is loaded from a vault word. -/
  | ldw (who : Issue)
  /-- STW (R112): A vault word is stored from gD, subject to region checks. -/
  | stw (who : Issue)
  /-- VLD (R112): 64 elements of FMT are loaded from the vault and unpacked into vD. -/
  | vld (who : Issue)
  /-- VST (R113): Performed lanes of vD are packed to FMT, saturating, and stored in the vault. -/
  | vst (who : Issue)
  /-- SLD (R120): Stored scales are read and expanded into the entries of sD. -/
  | sld (who : Issue)
  /-- SST (R120): Entries of sD are written as stored scales, canonicalised where needed. -/
  | sst (who : Issue)
  /-- VLDR (R114): vD is loaded from the vault of another logical cluster of the context. -/
  | vldr (who : Issue)
  /-- VSTR (R114): vD is stored to the vault of another logical cluster of the context. -/
  | vstr (who : Issue)
  /-- BMAX (R122): sd receives the scale chosen from the block maximum over the lanes of kKP. -/
  | bmax (who : Issue)
  /-- RESCALE (R121): va is converted from sa to FMT under CONV, writing vd and sd. -/
  | rescale (who : Issue)
  /-- SMUL (R123): sD receives the entrywise product of two scale registers. -/
  | smul (who : Issue)
  /-- SMOV (R123): sD receives a copy of sA. -/
  | smov (who : Issue)
  /-- SSHIFT (R123): The exponents of sA are shifted by gB into sD. -/
  | sshift (who : Issue)
  /-- SGET (R123): gD receives one entry of sA. -/
  | sget (who : Issue)
  /-- SPUT (R123): The masked entries of sD receive gA. -/
  | sput (who : Issue)
  /-- SMAXE (R123): sD receives the larger of sA and sB entrywise. -/
  | smaxe (who : Issue)
  /-- LUT (R124): vd lanes receive lookup-table entries indexed from va. -/
  | lut (who : Issue)
  /-- QSEND (R116): A token is sent to a SEND endpoint, blocking while no credit is held. -/
  | qsend (who : Issue)
  /-- QRECV (R116): A token is received from a RECV endpoint, blocking while it is empty. -/
  | qrecv (who : Issue)
  /-- QSENDT (R116): A token is sent, or FULL is returned without blocking. -/
  | qsendt (who : Issue)
  /-- QRECVT (R116): A token is received, or EMPTY is returned without blocking. -/
  | qrecvt (who : Issue)
  /-- MSEND (R250): A message is checked and sent, waiting for ring space if needed. -/
  | msend (who : Issue)
  /-- MSENDT (R250): A message is checked and sent, or WOULD_BLOCK is returned. -/
  | msendt (who : Issue)
  /-- DMAQ (R260): A DMA descriptor is checked and accepted with a tag, waiting while 128 requests are outstanding. -/
  | dmaq (who : Issue)
  /-- DMAQT (R260): A DMA descriptor is accepted or WOULD_BLOCK is returned. -/
  | dmaqt (who : Issue)
  /-- DMAPOP (R263): The next DMA completion word is written to gB, waiting for one if needed. -/
  | dmapop (who : Issue)
  /-- DMAPOPT (R263): The next DMA completion is popped or WOULD_BLOCK is returned. -/
  | dmapopt (who : Issue)
  /-- MXI (R118): A matrix descriptor is issued to the queue, waiting for a slot and a completion entry. -/
  | mxi (who : Issue)
  /-- MXIT (R118): A matrix descriptor is issued or WOULD_BLOCK is returned. -/
  | mxit (who : Issue)
  /-- MXPOP (R118): The head completion entry is written to gB and released, waiting for one if needed. -/
  | mxpop (who : Issue)
  /-- MXPOPT (R118): The head completion entry is popped or WOULD_BLOCK is returned. -/
  | mxpopt (who : Issue)
  /-- BEQZ (R109): The core branches when gA is zero. -/
  | beqz (who : Issue)
  /-- BNEZ (R109): The core branches when gA is not zero. -/
  | bnez (who : Issue)
  /-- JAL (R109): The core saves PC + 1 in gD and jumps relative. -/
  | jal (who : Issue)
  /-- JR (R109): The core jumps to gA. -/
  | jr (who : Issue)
  /-- SYS_NOP (R109): The core does nothing for one issue. -/
  | sysNop (who : Issue)
  /-- HALT (R105): A vector core halts. -/
  | halt (who : Issue)
  /-- WFT (R106): The teller ends its part of the segment and waits for the cluster to finish. -/
  | wft (who : Issue)
  /-- VRUN (R105): The teller starts a halted vector core at an address, copying g8 to g15. -/
  | vrun (who : Issue)
  /-- VWAIT (R109): The teller waits for named vector cores to halt. -/
  | vwait (who : Issue)
  /-- FENCE (R115): The core waits until its earlier stores are visible to all ports. -/
  | fence (who : Issue)
  /-- TRAP (R126): The core faults with TRAP and the code in B. -/
  | trap (who : Issue)
  /-- RDSR (R109): gD receives a special register. -/
  | rdsr (who : Issue)
  /-- CORE_UNBLOCK (R377): A core blocked on a queue, ring, slot, port or engine proceeds when the awaited resource becomes available. -/
  | coreUnblock (cluster : Nat) (core : Nat)
  /-- CLUSTER_FINISHED (R106): A cluster in WFT reaches the finished state once its cores, queues, DMA and sends are complete. -/
  | clusterFinished (cluster : Nat)
  /-- DOUBLED_SITE_SWITCH (R107): A doubled site switches to the other logical cluster after WFT or 64 cc of blocking. -/
  | doubledSiteSwitch (site : Nat)
  /-- DESCRIPTOR_START (R90): A queued matrix descriptor starts array work when the array is free and ORDER allows. -/
  | descriptorStart (cluster : Nat)
  /-- ACCUMULATOR_SET_FREE (R464): A held accumulator set is freed by write-back and a waiting tile's partial enters it. -/
  | accumulatorSetFree (cluster : Nat) (freed : FreedSet)
  /-- AUDIT_RESULT (R95): The audit result of a K-block and pass becomes known. -/
  | auditResult (cluster : Nat) (upset : CellUpset)
  /-- DESCRIPTOR_COMPLETE (R100): A descriptor's last row and audits are done and its completion entry is written. -/
  | descriptorComplete (cluster : Nat) (index : Nat)
  /-- MXC_COMPLETION_POP (R89): A write of POP removes the head completion entry and frees its tag. -/
  | mxcCompletionPop (cluster : Nat)
  /-- MXC_AUDIT_INJECT (R99): A write of ARM makes the next audited K-block report an injected mismatch. -/
  | mxcAuditInject (cluster : Nat)
  /-- MXC_AUDIT_TALLY_READ (R97): A read of MXC_AUDIT_TALLY holds both audit registers unchanged. -/
  | mxcAuditTallyRead (cluster : Nat)
  /-- MXC_AUDIT_LAST_READ (R97): A read of MXC_AUDIT_LAST ends the hold and both registers take the latest mismatch. -/
  | mxcAuditLastRead (cluster : Nat)
  /-- AUDIT_HOLD_EXPIRE (R97): The 10 µs hold of the audit registers expires and they take the latest mismatch. -/
  | auditHoldExpire (cluster : Nat)
  /-- VEC_RESIDUE_INJECT (R127): A write of ARM makes the next residue-checked lane-0 result report a mismatch. -/
  | vecResidueInject (cluster : Nat) (core : Nat)
  /-- VLT_PARITY_INJECT (R140): A write of ARM makes the next checked scratch read report a parity error. -/
  | vltParityInject (cluster : Nat)
  /-- READ_REQ (R150): A read request packet reaches its destination unit and is served or answered FENCED. -/
  | readReq (service : ReadService)
  /-- WRITE_REQ (R150): A write request packet reaches its destination unit and is performed or answered FENCED. -/
  | writeReq (pkt : Packet)
  /-- READ_RSP (R150): A read response reaches its requester. -/
  | readRsp (pkt : Packet)
  /-- WRITE_ACK (R150): A write acknowledgement reaches its requester. -/
  | writeAck (pkt : Packet)
  /-- MCAST_RSP (R151): A merged response is copied at each router and delivered to every destination in its set. -/
  | mcastRsp (pkt : Packet)
  /-- REG (R12): A register access packet reaches a cluster through the placement ledger. -/
  | reg (cluster : Nat) (offset : Nat) (size : Nat) (access : RegAccess)
  /-- ROUTER_FORWARD (R155): A router output grants a flit by circuit slot, AGED and age, detouring around fault regions. -/
  | routerForward (x : Nat) (y : Nat) (cycle : OutputCycle)
  /-- AGED (R155): A packet held more than 2^15 units past INJ_TIME is marked AGED. -/
  | aged (index : Nat) (now : Nat)
  /-- CLEAR_COMBINE (R164): A tree router adds an arriving CLEAR packet into a matching combining buffer or holds or forwards it. -/
  | clearCombine (x : Nat) (y : Nat) (index : Nat)
  /-- COMBINE_HOLD_EXPIRE (R164): A combining buffer waits MSH_CLR_HOLD cc and is forwarded towards the root. -/
  | combineHoldExpire (x : Nat) (y : Nat) (slot : Nat)
  /-- CLEAR_ROOT_ABSORB (R166): The root absorbs a CLEAR packet into its row slot, completing slots and the group. -/
  | clearRootAbsorb (index : Nat)
  /-- TOKEN_ARRIVAL (R180): A token reaches a RECV endpoint and is stored or discarded as stale or leftover. -/
  | tokenArrival (index : Nat)
  /-- CREDIT_RETURN (R176): A returned credit reaches its producer's SEND endpoint. -/
  | creditReturn (index : Nat)
  /-- DRAINED (R188): The drain detector reports a context drained. -/
  | drained (cx : Nat)
  /-- CONFIGURATION_STAGE (R193): During a last segment the placer stages the target configuration in free vault space. -/
  | configurationStage (cx : Nat)
  /-- CONFIGURATION_LOAD_COMPLETE (R192): A cluster's configuration load ends and the cluster starts its segment. -/
  | configurationLoadComplete (cluster : Nat)
  /-- FOL_CX_NEXT_WRITE (R172): A host request for a folio switch is held pending and applied or refused at step 5. -/
  | folCxNextWrite (cx : Nat) (valid : Bool) (folio : Nat)
  /-- LOAD (R216): IMG_CTRL LOAD checks licence and state and starts fetching an image for a context. -/
  | load (cx : Nat)
  /-- IMAGE_FETCH_COMPLETE (R215): The fetched image is checked and every folio placed, or the load is refused. -/
  | imageFetchComplete (ok : Bool)
  /-- ACTIVATE (R217): IMG_CTRL ACTIVATE checks fabric bindings and initialises the context's regions. -/
  | activate (cx : Nat)
  /-- UNLOAD (R219): IMG_CTRL UNLOAD is accepted and takes effect at the next step 7. -/
  | unload (cx : Nat)
  /-- MOVE_COPY_COMPLETE (R238): A moved cluster's region copy and reload end and it starts its segment. -/
  | moveCopyComplete (cluster : Nat) (readable : Bool)
  /-- LEDGER_APPEND_RETRY (R228): A failed ledger append is retried after one second. -/
  | ledgerAppendRetry (ok : Bool)
  /-- MIGRATION_COPY_COMPLETE (R243): A page's migration copy ends and its map switch waits for step 7. -/
  | migrationCopyComplete (index : Nat)
  /-- MESSAGE_RECEIVE (R251): A message reaches the receiving message unit and is written to a mailbox or allocated in a ring. -/
  | messageReceive (index : Nat)
  /-- MESSAGE_ANSWER (R259): The answer to a send reaches the sender and its status and epoch are written. -/
  | messageAnswer (cluster : Nat) (core : Nat)
  /-- MESSAGE_RETRY (R254): A held MSEND is presented again when CMT_HEAD advances. -/
  | messageRetry (cluster : Nat) (core : Nat)
  /-- RING_CLOSE (R256): MSG_RING_CTRL CLOSE closes a ring for sends at the next step 4. -/
  | ringClose (cx : Nat) (ring : Nat)
  /-- RING_OPEN (R256): MSG_RING_CTRL OPEN opens a ring at the next step 4. -/
  | ringOpen (cx : Nat) (ring : Nat)
  /-- RING_RESET (R258): MSG_RING_CTRL RESET empties a ring and increments its epoch. -/
  | ringReset (cx : Nat) (ring : Nat)
  /-- DMA_READ (R461): A DMA READ moves memory blocks into the vault. -/
  | dmaRead (cluster : Nat) (tag : Nat)
  /-- DMA_WRITE (R461): A DMA WRITE moves vault data to memory blocks. -/
  | dmaWrite (cluster : Nat) (tag : Nat)
  /-- VCOPY (R139): A vault-local copy is checked and performed. -/
  | vcopy (cluster : Nat) (tag : Nat)
  /-- VFILL (R139): A vault range is filled with a pattern. -/
  | vfill (cluster : Nat) (tag : Nat)
  /-- MCOPY (R277): The memory controllers copy a memory range. -/
  | mcopy (cluster : Nat) (tag : Nat)
  /-- MFILL (R277): The memory controllers fill a memory range with a pattern. -/
  | mfill (cluster : Nat) (tag : Nat)
  /-- XCOPY (R462): Vault data is written into a peer cluster's vault over the mesh. -/
  | xcopy (cluster : Nat) (tag : Nat)
  /-- HALO (R146): A halo transfer starts on its circuit from source to destination vault. -/
  | halo (cluster : Nat) (tag : Nat)
  /-- RREAD (R316): A remote read through a window is split into transactions and sent. -/
  | rread (cluster : Nat) (tag : Nat)
  /-- RWRITE (R316): A remote write through a window is split into transactions and sent. -/
  | rwrite (cluster : Nat) (tag : Nat)
  /-- DMA_COMPLETION (R263): A DMA request's last block or word is answered and its completion is posted. -/
  | dmaCompletion (cluster : Nat) (tag : Nat)
  /-- DMA_REMOTE_TIMEOUT (R264): No remote answer arrives within DMA_TIMEOUT and the request completes with DMA_REMOTE_TIMEOUT. -/
  | dmaRemoteTimeout (cluster : Nat) (tag : Nat)
  /-- BLOCK_READ (R271): A controller reads a 64-byte block and delivers it clean, corrected or poisoned. -/
  | blockRead (part : Nat) (ch : Nat) (block : Nat) (cx : Nat) (errors : BlockErrors)
  /-- BLOCK_WRITE (R276): A controller buffers and writes a 64-byte block. -/
  | blockWrite (part : Nat) (ch : Nat) (block : Nat) (cx : Nat) (offset : Nat) (data : List Byte)
  /-- CE_LIMIT_REACHED (R284): A channel's correctable errors reach CE_LIMIT and it becomes DEGRADING. -/
  | ceLimitReached (part : Nat) (ch : Nat)
  /-- UE_LIMIT_REACHED (R284): A channel's uncorrectable errors reach UE_LIMIT and it becomes FAILED. -/
  | ueLimitReached (part : Nat) (ch : Nat)
  /-- LANE_MARK (R285): Sixteen errors on one pin mark a lane and the channel becomes DEGRADING. -/
  | laneMark (part : Nat) (ch : Nat) (pin : Nat)
  /-- CHANNEL_COMMAND_TIMEOUT (R284): A channel gives no answer to a command within 10 µs and becomes FAILED. -/
  | channelCommandTimeout (part : Nat) (ch : Nat)
  /-- SELF_REFRESH_TIMEOUT (R283): A channel does not acknowledge self-refresh within 100 µs and is FAILED on return. -/
  | selfRefreshTimeout (part : Nat) (timeout : RefreshTimeout)
  /-- PATROL_SCRUB (R279): A scrub read of a chunk in use falls due and is handled. -/
  | patrolScrub (part : Nat) (ch : Nat) (block : Nat) (errors : BlockErrors)
  /-- MEM_INJECT_CE (R284): A write of CE makes the next read on the channel report a correctable error. -/
  | memInjectCe (part : Nat) (ch : Nat)
  /-- MEM_INJECT_UE (R284): A write of UE makes the next read on the channel report an uncorrectable error. -/
  | memInjectUe (part : Nat) (ch : Nat)
  /-- PORT_ENABLE (R289): FAB_PORT_CTRL.ENABLE starts training a licensed port, or returns it to idle when written 0. -/
  | portEnable (port : Nat) (on : Bool)
  /-- PORT_RESET (R324): A fabric port reset discards buffered cells and retrains the port. -/
  | portReset (port : Nat)
  /-- PORT_RETRAIN (R292): A host retrain request retrains the port, keeping its replay buffer. -/
  | portRetrain (port : Nat)
  /-- LINK_TRAINING_COMPLETE (R289): Equalisation, neighbour exchange and delay measurement end and the port is UP. -/
  | linkTrainingComplete (port : Nat) (partner : LinkPartner) (peerPort : Nat) (delayNs : Nat)
  /-- TRAIN_FAILED (R289): Training exceeds 500 ms and the port returns to electrical idle. -/
  | trainFailed (port : Nat)
  /-- LINK_BLOCK (R292): A link block arrives and is accepted, or discarded with NAK. -/
  | linkBlock (port : Nat) (block : LinkBlock)
  /-- NAK_RETRAIN (R292): Eight NAKs in a row for one block make the port retrain. -/
  | nakRetrain (port : Nat)
  /-- RETRAIN_COMPLETE (R292): A retrain ends and the port resends, or goes DOWN with RETRY_EXHAUSTED. -/
  | retrainComplete (port : Nat) (ok : Bool)
  /-- PACKET_CELL_FORWARD (R299): A packet cell enters a module, its route field is consumed and rewritten, and it is forwarded or delivered. -/
  | packetCellForward (port : Nat) (vc : Nat)
  /-- ESCAPE_TIMEOUT (R303): A packet cell waits longer than FAB_ESC_TIMEOUT and moves to VC3. -/
  | escapeTimeout (port : Nat) (vc : Nat)
  /-- RREQ (R264): A remote read request is checked against its window and answered with data or RSP. -/
  | rreq (port : Nat) (cell : PacketCell)
  /-- WREQ (R264): A remote write request is checked against its window. -/
  | wreq (port : Nat) (cell : PacketCell)
  /-- WDATA (R316): Write data of a transaction arrives and is written to the target's pages. -/
  | wdata (port : Nat) (cell : PacketCell)
  /-- RDATA (R316): Read data of a transaction arrives and is placed by XID and INDEX. -/
  | rdata (port : Nat) (cell : PacketCell)
  /-- RSP (R316): A response arrives and completes a transaction with its status. -/
  | rsp (port : Nat) (cell : PacketCell)
  /-- GRANT (R313): A GRANT for an SSEQ arrives at the sending port. -/
  | grant (port : Nat) (cell : PacketCell)
  /-- ACK (R313): An ACK arrives and the sender frees the logged half. -/
  | ack (port : Nat) (cell : PacketCell)
  /-- REVOKE (R315): A REVOKE arrives and the sender drops an unstarted GRANT or completes the half. -/
  | revoke (port : Nat) (cell : PacketCell)
  /-- REVOKED (R315): A REVOKED arrives and the GRANT counts as returned for the drain. -/
  | revoked (port : Nat) (cell : PacketCell)
  /-- TRIGGER (R440): A TRIGGER cell arrives, its tally is adopted and a new pair is forwarded. -/
  | trigger (port : Nat) (cell : PacketCell)
  /-- CIRCUIT_CELL (R309): A circuit cell is looked up by phase in the current or previous bank and forwarded, delivered or added. -/
  | circuitCell (port : Nat) (cell : CircuitCell)
  /-- HALF_TRANSMIT (R313): A sealed outbound half for which a GRANT is held is transmitted in the circuit's slots. -/
  | halfTransmit (port : Nat) (binding : Nat)
  /-- HALF_RETRANSMIT (R313): No ACK arrives within FAB_ACK_TIMEOUT and the half is transmitted again. -/
  | halfRetransmit (port : Nat) (binding : Nat)
  /-- CLEARING_ADD (R318): A passing clearing token whose own half is sealed is added to the module's token and sent on. -/
  | clearingAdd (port : Nat) (binding : Nat) (index : Nat)
  /-- TABLE_COPY_COMPLETE (R308): The staging bank copy ends, COPYING clears and held host writes are applied. -/
  | tableCopyComplete (port : Nat)
  /-- ROUTE_ENTRY_WRITE (R298): A write of FAB_ROUTE_HIGH stores the selected route entry in every port. -/
  | routeEntryWrite (value : Nat)
  /-- ESCAPE_ENTRY_WRITE (R304): A write of FAB_ESCAPE stores an escape entry in every port. -/
  | escapeEntryWrite (value : Nat)
  /-- ROUTE_VALID_WRITE (R321): A write of FAB_ROUTE_VALID lets UP ports advertise credits and READY, or is held during bring-up. -/
  | routeValidWrite (value : Nat)
  /-- CARTRIDGE_PRESENT (R327): A cartridge appears at a port and its insertions are counted. -/
  | cartridgePresent (port : Nat) (record : Cartridge)
  /-- CARTRIDGE_VERIFIED (R327): Cartridge signature verification ends and the cartridge is accepted or counterfeit. -/
  | cartridgeVerified (port : Nat)
  /-- CARTRIDGE_REMOVED (R327): A cartridge is removed and its port goes DOWN. -/
  | cartridgeRemoved (port : Nat)
  /-- PCIE_PERST (R450): PCIE_PERST_N resets PD_PCIE only. -/
  | pciePerst (asserted : Bool)
  /-- APERTURE_READ (R332): A BAR2 read is translated and completed with data, poison or an error. -/
  | apertureRead (offset : Nat) (length : Nat)
  /-- APERTURE_WRITE (R332): A BAR2 write is translated and written or dropped. -/
  | apertureWrite (offset : Nat) (data : List Byte)
  /-- NOP (R336): A submitted NOP record completes. -/
  | nop (cx : Nat)
  /-- COPY_IN (R336): A submitted copy from host memory to context memory starts. -/
  | copyIn (cx : Nat)
  /-- COPY_OUT (R336): A submitted copy from context memory to host memory starts. -/
  | copyOut (cx : Nat)
  /-- COPY_COMPLETE (R336): A COPY command finishes and its status is queued for the completion ring. -/
  | copyComplete (cx : Nat) (index : Nat)
  /-- MSG (R337): A host message is placed in a ring at the first boundary with room. -/
  | msg (cx : Nat)
  /-- NEXT (R336): A submitted NEXT requests a folio switch at step 5. -/
  | next (cx : Nat)
  /-- STOP (R338): A submitted STOP commits or discards the segment and stops the context at step 3. -/
  | stop (cx : Nat)
  /-- RESUME (R338): A submitted RESUME starts a stopped context's segment at step 13. -/
  | resume (cx : Nat)
  /-- DOE_REQUEST (R342): A DOE data object request is answered with discovery, an attestation object or an error. -/
  | doeRequest (request : List Byte)
  /-- POWER_ACTIVE (R345): PWR_STATE_CTRL commands partitions to Active. -/
  | powerActive (mask : Nat)
  /-- POWER_IDLE (R345): PWR_STATE_CTRL commands partitions to Idle. -/
  | powerIdle (mask : Nat)
  /-- POWER_SLEEP (R345): PWR_STATE_CTRL commands partitions to Sleep. -/
  | powerSleep (mask : Nat)
  /-- POWER_TRANSITION_COMPLETE (R346): A power state transition of a partition or the package completes. -/
  | powerTransitionComplete (part : Nat)
  /-- POWER_INNER_LOOP (R349): Every 10 µs the controller adjusts Bulk RATE and Steady BUBBLES from the excess. -/
  | powerInnerLoop (fabricW : Nat) (memoryW : Nat) (computeW : Nat) (partW : List Nat)
  /-- VOLTAGE_SETTLED (R352): A raised voltage settles and the clock is switched. -/
  | voltageSettled (part : Nat)
  /-- VOLTAGE_LOWERED (R352): The voltage lowering after a clock lowering completes. -/
  | voltageLowered (part : Nat)
  /-- DROOP_ASSERT (R353): A droop detector asserts and the partition clock is stretched, aborting any change. -/
  | droopAssert (part : Nat) (detector : Nat)
  /-- DROOP_RELEASE (R353): All detectors stay deasserted for RELEASE cc and the stretch ends. -/
  | droopRelease (part : Nat)
  /-- CHANGE_ABANDONED (R355): A third abort in a row abandons the change and starts the hold-off. -/
  | changeAbandoned (part : Nat)
  /-- THERMAL_TRIP (R359): A sensor reaches TRIP and its partition enters the floor. -/
  | thermalTrip (part : Nat)
  /-- CRITICAL_TRIP (R360): A sensor reaches CRITICAL and the package is put into self-refresh and switched off. -/
  | criticalTrip (sensor : Nat)
  /-- REGULATOR_FAULT (R360): A regulator reports a fault over PMBus and the Nose performs a critical trip. -/
  | regulatorFault (rail : Nat)
  /-- MARCH_SLICE_END (R365): A march slice ends and its result is taken. -/
  | marchSliceEnd (part : Nat) (engine : Nat) (result : SliceResult)
  /-- SCAN_SLICE_END (R367): A scan slice ends and its signature is compared. -/
  | scanSliceEnd (part : Nat) (engine : Nat) (ok : Bool)
  /-- SLICE_ABORT (R363): A slice not ended 50 ns before the edge, or whose partition leaves service, is aborted. -/
  | sliceAbort (part : Nat) (engine : Nat)
  /-- VAULT_FULL (R371): Plan VAULT_FULL marches every unit of the masked partitions. -/
  | vaultFull (mask : Nat)
  /-- SCAN_FULL (R372): Plan SCAN_FULL scans every good site of the masked partitions. -/
  | scanFull (mask : Nat)
  /-- SCAN_NEXT (R372): Plan SCAN_NEXT makes a cluster's site the next rotation visit. -/
  | scanNext (cluster : Nat)
  /-- RETEST (R372): Plan RETEST tests field-defective sites and returns passing ones to SPARE. -/
  | retest (mask : Nat)
  /-- PLAN_COMPLETE (R373): A named plan ends and its summary record is produced. -/
  | planComplete (failed : List UnitFailure)
  /-- RAW_APPLY_PATTERNS (R373): SCN_RAW_CTRL applies a pattern set from host memory to a site. -/
  | rawApplyPatterns (site : Nat)
  /-- RAW_READ_WORD (R373): SCN_RAW_CTRL reads a unit word of a site. -/
  | rawReadWord (site : Nat) (unit : Nat) (row : Nat)
  /-- RAW_WRITE_WORD (R373): SCN_RAW_CTRL writes a unit word of a site. -/
  | rawWriteWord (site : Nat) (unit : Nat) (row : Nat)
  /-- PATTERN_STORE_COPY_COMPLETE (R400): The background copy of the scan pattern set into every partition's store ends. -/
  | patternStoreCopyComplete (ok : Bool)
  /-- PARTITION_RESET_REQUEST (R383): RST_PART_CTRL requests a host partition reset applied at step 3. -/
  | partitionResetRequest (mask : Nat) (replay : Bool)
  /-- FENCE_DRAIN_END (R381): A fenced partition's outstanding requests are answered and its domains are reset and restored. -/
  | fenceDrainEnd (part : Nat)
  /-- FENCE_TIMEOUT (R381): FNC_TIMEOUT expires and unanswered requests are answered FENCED at the edge. -/
  | fenceTimeout (part : Nat)
  /-- CONTEXT_RESET (R388): RST_CX_CTRL discards a context's segment and reinitialises its execution state. -/
  | contextReset (mask : Nat)
  /-- DIE_PLATFORM_RESET (R389): RST_DIE_CTRL resets a die platform and its partitions. -/
  | diePlatformReset (die : Nat)
  /-- DIE_RESET_COMPLETE (R389): A reset die returns and its partitions are placed again. -/
  | dieResetComplete (die : Nat)
  /-- BRG_STEP_FUSES (R398): Bring-up step 2 loads fuses, installs the licence and reads the defect ledger. -/
  | brgStepFuses (rebuild : Bool) (found : FuseRead)
  /-- BRG_STEP_POWER (R395): Bring-up step 3 switches on every domain that is off. -/
  | brgStepPower (ok : Bool)
  /-- BRG_STEP_LOCK (R395): Bring-up step 4 locks the PLLs and starts every partition Active. -/
  | brgStepLock (ok : Bool)
  /-- BRG_STEP_TRAIN (R280): Bring-up step 5 trains every channel cold. -/
  | brgStepTrain (found : Training)
  /-- BRG_STEP_RESTORE (R281): Bring-up step 5 with WARM restores channels from the training cache. -/
  | brgStepRestore (mismatched : List Nat) (found : Training)
  /-- BRG_STEP_VAULT_TEST (R371): Bring-up step 6 runs VAULT_FULL on every partition. -/
  | brgStepVaultTest (failed : List UnitFailure)
  /-- BRING_UP_STEP_END (R394): A bring-up step ends, BUSY clears and CODE and notes are set. -/
  | bringUpStepEnd (elapsedUs : Nat)
  /-- PLATFORM_FIRMWARE (R416): A KIND 1 envelope is verified and written to the inactive platform firmware slot. -/
  | platformFirmware (fetched : Bool) (written : Bool)
  /-- NOSE_FIRMWARE (R416): A KIND 2 envelope is verified and written to the inactive Nose firmware slot. -/
  | noseFirmware (fetched : Bool) (written : Bool)
  /-- SCAN_PATTERNS (R416): A KIND 3 envelope is verified and written to the inactive pattern slot. -/
  | scanPatterns (fetched : Bool) (written : Bool)
  /-- LICENCE (R425): A KIND 4 licence is verified and written to the pending place. -/
  | licence (fetched : Bool) (written : Bool)
  /-- OWNER_KEY (R417): A KIND 5 envelope writes or empties an owner key slot. -/
  | ownerKey (fetched : Bool) (written : Bool)
  /-- POLICY (R418): A KIND 6 envelope sets the security policy. -/
  | policy (fetched : Bool) (written : Bool)
  /-- LIFE_CYCLE_TOKEN (R407): A KIND 7 token erases where required, blows fuses and resets the package. -/
  | lifeCycleToken (fetched : Bool) (written : Bool)
  /-- UNLOCK_TOKEN (R427): A KIND 8 token unlocks RWL writes and plans in Return for PARAM seconds. -/
  | unlockToken (fetched : Bool)
  /-- BOTTOM_TREE_READY (R421): Generation and top-leaf signing of a new bottom tree completes and KEY_READY is set. -/
  | bottomTreeReady (written : Bool)
  /-- ATTEST_REPORT (R422): Attestation OP 1 returns a signed report. -/
  | attestReport (nonce : List Byte) (asker : Asker)
  /-- ATTEST_PUBLIC_KEY (R424): Attestation OP 2 returns DEVICE_ID and the public key. -/
  | attestPublicKey (asker : Asker)
  /-- ATTEST_LOG (R424): Attestation OP 3 returns the measurement log. -/
  | attestLog (asker : Asker)
  /-- SENSOR_SAMPLE (R429): A sensor's sampling period expires and its filtered value and conditions are updated. -/
  | sensorSample (sensor : Nat) (value : Option Int)
  /-- ERROR_RECORD (R433): An error record reaches the Nose, is logged and routed to collectors, MCTP and the host ring. -/
  | errorRecord (record : ErrorRecord)
  /-- RECORD_RESEND (R433): An unacknowledged record is pushed again every RETRY seconds. -/
  | recordResend (collector : Nat) (seq : Nat)
  /-- STATUS (R435): An Aihar STATUS request returns the summary registers. -/
  | status (source : Requester) (xid : Nat)
  /-- SENSORS (R435): An Aihar SENSORS request returns filtered values. -/
  | sensors (source : Requester) (xid : Nat) (first : Nat) (count : Nat)
  /-- RECORDS (R435): An Aihar RECORDS request returns logged records from a SEQ. -/
  | records (source : Requester) (xid : Nat) (seq : Nat) (count : Nat)
  /-- AIHAR_ACK (R433): An Aihar ACK acknowledges records up to a SEQ. -/
  | aiharAck (source : Requester) (xid : Nat) (seq : Nat)
  /-- SNAPSHOT_TRIGGER (R438): An Aihar SNAPSHOT_TRIGGER requests a snapshot. -/
  | snapshotTrigger (source : Requester) (xid : Nat)
  /-- SNAPSHOT_READ (R435): An Aihar SNAPSHOT_READ returns bytes of snapshot space. -/
  | snapshotRead (source : Requester) (xid : Nat) (offset : Nat) (length : Nat)
  /-- SET_CONFIG (R437): An MCTP SET_CONFIG writes the MGT registers. -/
  | setConfig (at_ : ConfigWrite) (value : Nat)
  /-- ARP_REQUEST (R434): An ARP request on the management port is answered. -/
  | arpRequest (frame : MgtFrame)
  /-- ICMP_ECHO (R434): An ICMP or ICMPv6 echo request is answered. -/
  | icmpEcho (frame : MgtFrame) (payload : List Byte)
  /-- NEIGHBOR_SOLICITATION (R434): An IPv6 Neighbor Discovery solicitation is answered. -/
  | neighborSolicitation (frame : MgtFrame)
  /-- LINK_DOWN (R346): A fabric port's partner goes to electrical idle or the link is lost, and the port goes DOWN with its queued cells discarded as LINK. -/
  | linkDown (port : Nat)
  /-- CONFIGURATION_REQUEST (R330): A PCI Express configuration request is answered with Request Retry Status or performed, including Resizable BAR, Memory Space Enable, MSI-X control and power-state writes. -/
  | configurationRequest (req : ConfigRequest)
  /-- CLOCK_SWITCH_COMPLETE (R352): The clock switch of an operating-point lowering completes and the partition's waiting clusters start their segment. -/
  | clockSwitchComplete (part : Nat)
  /-- ROTATION_VISIT (R242): The rotation interval expires and the next site of a partition is visited for scanning. -/
  | rotationVisit (part : Nat)
  /-- LEDGER_UNCORRECTABLE (R225): An uncorrectable ledger error rebuilds the partition's entries from site tags and reruns its contexts. -/
  | ledgerUncorrectable (part : Nat)
  /-- DRAM_TEMPERATURE_READ (R278): A controller reads its channel's temperature report and sets the refresh rate. -/
  | dramTemperatureRead (part : Nat) (ch : Nat) (report : Nat)
  /-- REFRESH (R278): A per-bank refresh falls due and is issued. -/
  | refresh (part : Nat) (ch : Nat) (bank : Nat)
  /-- PERIODIC_CALIBRATION (R266): An impedance or clock-tracking calibration falls due and runs. -/
  | periodicCalibration (part : Nat) (ch : Nat)
  /-- TABLE_ENTRY_UNCORRECTABLE (R323): An uncorrectable table entry is rewritten from a copy and cells meeting it are discarded. -/
  | tableEntryUncorrectable (port : Nat) (table : FabTable) (entry : Nat)
  /-- USAGE_RECORD_WRITE (R328): The Nose writes a cartridge's usage record every 10 minutes. -/
  | usageRecordWrite (port : Nat) (hours : Nat)
  /-- TALLY_EDGE (R33): The tally period expires on the time base; the package performs the ordered boundary actions and opens the new tally. -/
  | tallyEdge
  /-- LOST (R42): A Follower misses HOLDOVER.LIMIT consecutive edges, sets LOST and stops circuit cells. -/
  | lost
  /-- LOST_CLEAR (R42): The host clears TLY_STATUS.LOST and circuit traffic resumes. -/
  | lostClear
  /-- ACTIVATE_COMPLETE (R217): Region initialisation ends, windows and rings open and the image becomes ACTIVE. -/
  | activateComplete
  /-- ABORT (R220): IMG_CTRL ABORT stops a LOAD that has not committed, refusing it with IMG_ABORTED. -/
  | abort
  /-- LEDGER_APPEND_COMPLETE (R228): A defect ledger append reaches flash and PENDING clears. -/
  | ledgerAppendComplete
  /-- CONFIGURATION_READY (R330): The endpoint's configuration is loaded from fuses and configuration space answers normally. -/
  | configurationReady
  /-- FUNCTION_LEVEL_RESET (R343): An FLR resets configuration, rings and windows and stops active contexts. -/
  | functionLevelReset
  /-- DOE_ABORT (R342): A DOE abort discards the mailbox exchange in progress. -/
  | doeAbort
  /-- POWER_HOLD (R345): PWR_STATE_CTRL commands the package to Hold. -/
  | powerHold
  /-- BRAKE (R358): PWR_BRAKE_N falls and every Active partition enters the floor. -/
  | brake
  /-- LEDGER_CLEAR (R372): Plan LEDGER_CLEAR removes field entries from the defect ledger. -/
  | ledgerClear
  /-- RAW (R372): Plan RAW enables SCN_RAW_CTRL. -/
  | raw
  /-- BST_RESULT_POP (R374): A write of POP removes the head result record. -/
  | bstResultPop
  /-- PACKAGE_COLD_RESET (R390): RST_PKG_CTRL resets every domain except PD_AON. -/
  | packageColdReset
  /-- POWER_ON_RESET (R450): AON_POR_N is released and the boot sequencer powers PD_PCIE and PD_PLAT0 and starts the Nose. -/
  | powerOnReset
  /-- BRG_STEP_FIRMWARE (R395): Bring-up step 1 verifies, measures and starts the platform firmware and pattern set. -/
  | brgStepFirmware
  /-- LEDGER_REBUILD (R399): Step 2 with REBUILD writes both ledger copies from the fused manufacture entries. -/
  | ledgerRebuild
  /-- BRG_STEP_PLACE (R229): Bring-up step 7 places clusters, builds fault regions and applies attachment modes. -/
  | brgStepPlace
  /-- BRG_STEP_FABRIC (R401): Bring-up step 8 sets FAB_ROUTE_VALID. -/
  | brgStepFabric
  /-- BRG_STEP_READY (R403): Bring-up step 9 declares the device ready. -/
  | brgStepReady
  /-- UNLOCK_EXPIRE (R427): The unlock period ends and RWL writes are ignored again. -/
  | unlockExpire
  /-- ENTROPY_HEALTH_FAIL (R419): An entropy health test fails and ENTROPY_FAIL is set until 1,024 samples pass. -/
  | entropyHealthFail
  /-- REQUEST_CLEAR (R430): No request condition has held for 10 s and the request returns to none. -/
  | requestClear
  /-- SNAPSHOT_HOST_TRIGGER (R438): A write of SNP_CTRL.HOST requests a snapshot. -/
  | snapshotHostTrigger
  /-- SNAPSHOT_RELEASE (R439): A write of SNP_RELEASE clears FULL and frees snapshot space. -/
  | snapshotRelease
  /-- BRAKE_DEASSERT (R358): PWR_BRAKE_N rises, so that the floor may be released at the first boundary after it has stayed high since the boundary before. -/
  | brakeDeassert
  /-- POWER_DOWN (R450): AON_POR_N is asserted or PD_AON loses power, resetting the whole package and losing the training cache, unlock, LCS_CHALLENGE and all PD_AON state. -/
  | powerDown
  /-- DRAM_RAIL_LOSS (R454): A DRAM board rail is lost while the device is powered and every channel loses its contents. -/
  | dramRailLoss
  /-- ENTROPY_HEALTH_PASS (R419): 1,024 samples after a health-test failure pass, ENTROPY_FAIL clears, and waiting key generation, challenge draws and attestation proceed. -/
  | entropyHealthPass
  /-- ATT_ENTROPY (R419): An attestation request that has waited 1 s for a healthy entropy source is answered ATT_ENTROPY. -/
  | attEntropy
  /-- TEST_WINDOW_START (R363): The test window of the tally opens and each assigned engine starts its first slice. -/
  | testWindowStart
  /-- SGMII_LINK_UP (R434): The SGMII management link comes up and MGT_CTRL.LINK becomes 1. -/
  | sgmiiLinkUp
  /-- SGMII_LINK_DOWN (R434): The SGMII management link goes down and MGT_CTRL.LINK becomes 0. -/
  | sgmiiLinkDown
  deriving DecidableEq, Repr

end Sys2Proof
end

