-- ==== Sys2Proof/Decode.lean ====
section
/-! DEFINITION. The command a word spells. The device is a block that takes commands, and no row of
spec/opcode_table.json has bits, so no word spells one. -/
namespace Sys2Proof

/-- The command that a word of `nbits` bits spells by the table's bits: no row gives bits. -/
def decodeTableWord (_nbits _w : Nat) : Option Instr := none

end Sys2Proof
end

