-- ==== Sys2Proof/Config.lean ====
section
/-! DEFINITION. What an implementation fixes, and the values the spec leaves open, as opaque constants: no proof sees
what they are, so a statement holds whatever they are. -/
namespace Sys2Proof.Config

/-- Counts of R13 to R16 and of the numbering schemes of 00_scope.md. -/
abbrev nClusters : Nat := 288
abbrev nPartitions : Nat := 12
abbrev nContexts : Nat := 16
abbrev nPorts : Nat := 24
abbrev nChannels : Nat := 32
abbrev nSites : Nat := 336
abbrev nDies : Nat := 4

/-- 12 MiB, the size of a vault (R129). -/
abbrev vaultBytes : Nat := 0xC00000

/-- 2 MiB, a logical page (R273). -/
abbrev pageBytes : Nat := 0x200000

/-- E and M of a scale register entry that is zero (0) or invalid (1): R119 gives KIND only. -/
opaque deadScaleBits : Nat → BitVec 32

/-- A 32-bit draw of the on-die entropy source, by number of the draw (R57, R412, R419). -/
opaque entropy : Nat → BitVec 32

/-- The cycles a count of core cycles reads, by number of the reading: the model keeps no core-cycle time (R106, R109). -/
opaque cycles : Nat → BitVec 32

/-- What the counter of cycles lost to bank conflicts gains in a tally, by number: the model keeps no cycle time of vault
accesses (R132). -/
opaque timed : Nat → BitVec 32

/-- What the decoder of the block code makes of more erroneous symbols than the code is said to detect (R270): none where it
finds the block uncorrectable, else the symbols that it changes, each with the bits. -/
opaque wideDecode : List (Nat × BitVec 8) → Option (List (Nat × BitVec 8))

/-- Byte `i` of the tree identifier and root in the public key of a cartridge root, held in the boot ROM (R411). -/
opaque cartridgeKeyByte : (root i : Nat) → BitVec 8

/-- The revocation fuses of the four cartridge roots (R411). -/
opaque cartridgeRevoked : Nat → Bool

/-- The BODY_DIGEST of the component of a KIND that the factory stored in flash (R414). -/
opaque factoryDigest : Nat → List (BitVec 8)

/-- Byte `i` of the tree identifier and root in the public key of a vendor root, held in the boot ROM (R410). -/
opaque rootKeyByte : (root i : Nat) → BitVec 8

/-- The revocation fuses of the vendor roots (R410). -/
opaque rootRevoked : Nat → Bool

/-- The 60 bytes of the identity key's HSS public key, whose SHA-256 is DEVICE_ID (R420). -/
opaque identityKey : Nat → BitVec 8

/-- What the key's bytes read as in a Blank part, where no identity key exists, and the STATUS of the answer to a request for it
(R406, R424). -/
opaque blankKey : Nat → BitVec 8
opaque noKeyStatus : BitVec 32

/-- How the manufacturing test signs the transition from Blank to Development: its SIGNER, and the envelopes that verify as
its own (R406). -/
opaque manufacturingSigner : BitVec 16
opaque manufacturingTest : List (BitVec 8) → Bool

/-- Bytes of the signature over a report by bottom leaf `bottom` under top leaf `top` (R420 to R422). -/
opaque signatureByte : (top bottom : Nat) → List (BitVec 8) → Nat → BitVec 8

/-- The version of the boot ROM (R422). -/
opaque bootRom : BitVec 32

/-- Osfahild's vendor identifier and its type of DOE data object (R342). -/
opaque doeVendor : BitVec 16
opaque doeType : BitVec 8

/-- The bits of a word of PCI Express configuration space of which the spec says nothing, by offset (R330). -/
opaque configSpace : Nat → BitVec 32

/-- Where in configuration space a capability of R329 stands: power management, MSI-X, PCI Express, AER, Device Serial Number,
Resizable BAR, DOE. -/
opaque capAt : Nat → Nat

/-- How many of a clearing group's contributions to a row a cluster sends, by TAG and cluster, where the image gives another
number of contributions than of contributors (R164). -/
opaque clearShare : Nat → Nat → BitVec 12

/-- The CODE of an error record of a condition for which the spec gives none (R432), by the model's number of the
condition. -/
opaque recordCode : Nat → BitVec 16

/-- How an action that a plain register write starts turns out, by number of the write: whether the flash, fuses, rails or
clock it needs were good, and the numbers of the channels or sites that failed its test or training. The rows of those
actions carry these outcomes as operands (R413, R395 to R401). -/
opaque wentWell : Nat → Bool
opaque failures : Nat → List Nat
opaque retried : Nat → List Nat

/-- OP of the MCTP operation SET_CONFIG (R437). -/
opaque setConfigOp : BitVec 8

/-- Power of the package beside the three measured classes, by number of the measurement (R348). -/
opaque restPower : Nat → BitVec 8

/-- The controller's estimate of the cost of a step up, by partition and point, in W (R351). -/
opaque stepCost : Nat → Nat → BitVec 16

/-- Bits [29:0] of a negative PWR_SLACK after an overrun, by number of the boundary (R361). -/
opaque overrunSlack : Nat → BitVec 30

/-- Whether a mean of integers that is no integer is rounded up, by sum and number of samples (R429). -/
opaque meanUp : Int → Nat → Bool

/-- The PCI Express link in force (R329): which of the six rates, which of the five widths, and whether it is in FLIT mode at
a rate below 64 GT/s. -/
opaque linkRate : Fin 6
opaque linkWidth : Fin 5
opaque linkFlit : Bool

/-- A status word of a regulator, as PMBus encodes it, has a warning bit set (R428, R430). -/
opaque statusWarns : Int → Bool

/-- The MAC address in fuses, its first octet the highest (R434). -/
opaque mac : BitVec 48

end Sys2Proof.Config
end

