-- ==== Sys2Proof/Machine/Flags.lean ====
section
/-! DEFINITION. Integer formats, shared scales, rounding, requantisation and their outcome flags
(03_number_formats.md). -/
namespace Sys2Proof.Machine

/-- The element formats of R43. -/
inductive Fmt where
  | I8 | U8 | I4 | U4 | I2 | I6 | I12 | I16 | I32
  deriving DecidableEq, Repr

/-- The element format a 4-bit code names (R43); none for a scale format or a reserved code (R44). -/
def Fmt.ofCode : Nat → Option Fmt
  | 0 => some .I8 | 1 => some .U8 | 2 => some .I4 | 3 => some .U4 | 4 => some .I2
  | 5 => some .I6 | 6 => some .I12 | 7 => some .I16 | 8 => some .I32 | _ => none

/-- Width in bits (R43). -/
def Fmt.width : Fmt → Nat
  | .I8 | .U8 => 8 | .I4 | .U4 => 4 | .I2 => 2 | .I6 => 6 | .I12 => 12 | .I16 => 16 | .I32 => 32

/-- Signed formats are two's complement (R45). -/
def Fmt.signed : Fmt → Bool
  | .U8 | .U4 => false
  | _ => true

/-- Lower end of the stored range (R43). -/
def Fmt.lo (f : Fmt) : Int := if f.signed then -(2 ^ (f.width - 1) : Nat) else 0

/-- Upper end of the stored range (R43). -/
def Fmt.hi (f : Fmt) : Int := if f.signed then (2 ^ (f.width - 1) : Nat) - 1 else (2 ^ f.width : Nat) - 1

/-- `qmax`, the upper end of the requantiser output range (R43); it equals that of the stored range. -/
def Fmt.qmax (f : Fmt) : Nat := f.hi.toNat

/-- Lower end of the requantiser output range: symmetric for a signed format (R45). -/
def Fmt.qmin (f : Fmt) : Int := if f.signed then -(f.qmax : Int) else 0

/-- Two's complement value of a `w`-bit field. -/
def signExt (w n : Nat) : Int := if n < 2 ^ (w - 1) then (n : Int) else (n : Int) - (2 ^ w : Nat)

/-- The element a `w`-bit field holds in format `f` (R45, R68). -/
def Fmt.value (f : Fmt) (n : Nat) : Int := if f.signed then signExt f.width n else n

/-- The `w`-bit field an element is stored in. -/
def Fmt.field (f : Fmt) (v : Int) : Nat := (v % (2 ^ f.width : Nat)).toNat

/-- A little-endian list of bytes as a number. -/
def leNat : List Byte → Nat
  | [] => 0
  | b :: t => b.toNat + 256 * leNat t

/-- The low `n` bytes of a number, little-endian. -/
def leBytes : Nat → Nat → List Byte
  | 0, _ => []
  | n + 1, v => BitVec.ofNat 8 v :: leBytes n (v / 256)

/-- Bytes that `n` packed elements of width `w` fill, whole packing groups (R46). -/
def rowBytes (w n : Nat) : Nat := (w * n + 7) / 8

/-- Element fields of a packed row: element `i` is bits [w(i+1)-1 : wi] of the little-endian row (R46). -/
def unpackFields (w : Nat) (row : List Byte) (n : Nat) : List Nat :=
  let v := leNat row
  (List.range n).map fun i => (v >>> (w * i)) % 2 ^ w

/-- The elements of a packed row (R46, R68). -/
def unpackRow (f : Fmt) (row : List Byte) (n : Nat) : List Int :=
  (unpackFields f.width row n).map f.value

/-- Element fields packed from bit 0 up, as one number (R46). -/
def packNat (w : Nat) : List Nat → Nat
  | [] => 0
  | x :: t => x % 2 ^ w + 2 ^ w * packNat w t

/-- A packed row (R46). -/
def packRow (f : Fmt) (xs : List Int) : List Byte :=
  leBytes (rowBytes f.width xs.length) (packNat f.width (xs.map f.field))

/-- The two scale formats (R43). -/
inductive SFmt where
  | SE8 | SM16
  deriving DecidableEq, Repr

/-- The scale format a 4-bit code names (R43, R44). -/
def SFmt.ofCode : Nat → Option SFmt
  | 9 => some .SE8 | 10 => some .SM16 | _ => none

/-- Bytes of one stored scale (R46). -/
def SFmt.bytes : SFmt → Nat
  | .SE8 => 1 | .SM16 => 2

/-- A scale: zero, invalid, or (m / 128) x 2^(e - 127) (R48, R49, R119). -/
inductive Scale where
  | zero
  | invalid
  | normal (e : Int) (m : Nat)
  deriving DecidableEq, Repr

/-- Scale 1 (R51, R104). -/
def Scale.one : Scale := .normal 127 128

/-- The scale a stored SE8 byte or SM16 half-word stands for (R48, R49). -/
def Scale.decode (f : SFmt) (n : Nat) : Scale :=
  match f with
  | .SE8 => let e := n % 256
    if e = 0 then .zero else if e = 255 then .invalid else .normal e 128
  | .SM16 =>
    let e := (n / 256) % 256
    let m := n % 256
    if e = 255 then .invalid else if m = 0 then .zero else if e = 0 then .invalid else .normal e m

/-- A written scale that the format cannot hold is written as the canonical invalid or zero scale (R48, R49, R120). -/
def Scale.encode (f : SFmt) (s : Scale) : Nat :=
  match f, s with
  | .SE8, .zero => 0
  | .SE8, .invalid => 0xFF
  | .SE8, .normal e m => if 1 ≤ e ∧ e ≤ 254 ∧ m = 128 then e.toNat else 0xFF
  | .SM16, .zero => 0
  | .SM16, .invalid => 0xFF00
  | .SM16, .normal e m =>
    if 1 ≤ e ∧ e ≤ 254 ∧ 1 ≤ m ∧ m ≤ 255 then e.toNat * 256 + m else 0xFF00

/-- A scale register entry read under R119. -/
def Scale.ofEntry (w : Word) : Scale :=
  let n := w.toNat
  let kind := n / 2 ^ 30
  let m := n % 256
  if kind = 1 then .zero
  else if kind ≠ 0 then .invalid
  else if m = 0 then .zero
  else .normal (signExt 12 ((n / 2 ^ 16) % 4096)) m

/-- A scale as a register entry; an exponent outside -2,048 to 2,047 gives an invalid entry (R119).
What E and M read as in a zero or invalid entry the spec does not say: free values. -/
def Scale.entry (s : Scale) : Word :=
  match s with
  | .zero => 0x40000000#32 ||| (Config.deadScaleBits 0 &&& 0x0FFF00FF#32)
  | .invalid => 0x80000000#32 ||| (Config.deadScaleBits 1 &&& 0x0FFF00FF#32)
  | .normal e m =>
    if -2048 ≤ e ∧ e ≤ 2047 then BitVec.ofNat 32 ((e % 4096).toNat * 2 ^ 16 + m % 256)
    else 0x80000000#32 ||| (Config.deadScaleBits 1 &&& 0x0FFF00FF#32)

/-- Division by a positive number, rounded to nearest, halves to even (R54). -/
def rneDiv (n : Int) (d : Nat) : Int :=
  let q := n / (d : Int)
  let r := n % (d : Int)
  if 2 * r > d then q + 1
  else if 2 * r = d then (if q % 2 = 0 then q else q + 1)
  else q

/-- One step of a lane's generator (R56). -/
def nextGen (x : Word) : Word :=
  let x := x ^^^ (x <<< 13)
  let x := x ^^^ (x >>> 17)
  x ^^^ (x <<< 5)

/-- The 24-bit draw the generator yields after a step: x[31:8] (R56). -/
def drawOf (x : Word) : Nat := (nextGen x).toNat / 256

/-- 2^|k| when k is positive, else 1; and the other way round. -/
def pow2pos (k : Int) : Nat := 2 ^ k.toNat

/-- Right shift by `k` (a left shift for k below 0), rounded to nearest even (R54). -/
def shiftRne (v : Int) (k : Int) : Int :=
  if k ≤ 0 then v * (pow2pos (-k) : Nat) else rneDiv v (pow2pos k)

/-- Right shift by `k` >= 1 under stochastic rounding with draw `r24` (R55). -/
def shiftStoch (v : Int) (k : Nat) (r24 : Nat) : Int :=
  let r : Nat := if k ≤ 24 then r24 / 2 ^ (24 - k) else r24 * 2 ^ (k - 24)
  (v + r) / ((2 ^ k : Nat) : Int)

/-- A multiplier that is a power of two. -/
def isPow2 (m : Nat) : Bool := m != 0 && m &&& (m - 1) == 0

/-- Whether dividing by (m / 128) x 2^sh discards bits by construction, so that stochastic rounding draws (R56). -/
def discards (sh : Int) (m : Nat) : Bool :=
  if isPow2 m then decide (sh + (Nat.log2 m : Int) - 7 ≥ 1) else true

/-- v divided by (m / 128) x 2^sh: nearest even, or stochastic with the draw given (R54, R55, R63, R64, R66). -/
def convert (draw : Option Nat) (v : Int) (sh : Int) (m : Nat) : Int :=
  if isPow2 m then
    let k := sh + (Nat.log2 m : Int) - 7
    match draw with
    | some r => if k ≤ 0 then v * (pow2pos (-k) : Nat) else shiftStoch v k.toNat r
    | none => shiftRne v k
  else
    let num : Int := v * 128 * (pow2pos (-sh) : Nat)
    let den : Nat := m * pow2pos sh
    match draw with
    | some r => (num * (2 ^ 24 : Nat) + (r : Int) * den) / ((den * 2 ^ 24 : Nat) : Int)
    | none => rneDiv num den

/-- The outcome flags of R67 and R100. -/
structure Outcomes where
  saturated : Bool := false
  rescaled : Bool := false
  clamped : Bool := false
  accRescaled : Bool := false
  accSaturated : Bool := false
  scaleInvalid : Bool := false
  deriving DecidableEq, Repr

/-- Flags are ORed over blocks (R67, R100). -/
def Outcomes.or (a b : Outcomes) : Outcomes :=
  ⟨a.saturated || b.saturated, a.rescaled || b.rescaled, a.clamped || b.clamped,
   a.accRescaled || b.accRescaled, a.accSaturated || b.accSaturated, a.scaleInvalid || b.scaleInvalid⟩

/-- The flags at bits [21:16] of a completion entry (R100, R109). -/
def Outcomes.bits (o : Outcomes) : Nat :=
  o.saturated.toNat * 2 ^ 16 + o.rescaled.toNat * 2 ^ 17 + o.clamped.toNat * 2 ^ 18
  + o.accRescaled.toNat * 2 ^ 19 + o.accSaturated.toNat * 2 ^ 20 + o.scaleInvalid.toNat * 2 ^ 21

/-- Saturation to the requantiser output range; a negative value to an unsigned format is 0, unreported (R60). -/
def saturate (f : Fmt) (q : Int) : Int × Bool :=
  if q > f.qmax then (f.qmax, true)
  else if q < f.qmin then (f.qmin, f.signed)
  else (q, false)

/-- Whether a converted value fits without saturating (R66); a negative one for an unsigned target, which R60 does not report
as saturated, fits: DESIGN CHOICE, log entry 62. -/
def fits (f : Fmt) (q : Int) : Bool := decide (q ≤ f.qmax) && (decide (f.qmin ≤ q) || !f.signed)

/-- The exponent limit of R60. -/
def limitExp (e : Int) : Int × Bool :=
  if e > 254 then (254, true) else if e < 1 then (1, true) else (e, false)

/-- M is at most qmax x 2^k. -/
def leScaled (M qmax : Nat) (k : Int) : Bool :=
  decide (M * pow2pos (-k) ≤ qmax * pow2pos k)

/-- The smallest k with M at most qmax x 2^k (R63), for M and qmax not 0. -/
def smallestK (M qmax : Nat) : Int :=
  let k : Int := (Nat.log2 M : Int) - (Nat.log2 qmax : Int)
  if leScaled M qmax k then k else k + 1

/-- The largest magnitude of a block under R63: of |v| for a signed target, of positive v for an unsigned one. -/
def blockMax (f : Fmt) (vs : List Int) : Nat :=
  vs.foldl (fun a v => max a (if f.signed then v.natAbs else v.toNat)) 0

/-- The scale that a block maximum `M` (not 0) chooses: exponent above the input exponent, and multiplier (R63, R64). -/
def chooseScale (sf : SFmt) (f : Fmt) (M : Nat) : Int × Nat :=
  let k := smallestK M f.qmax
  match sf with
  | .SE8 => (k, 128)
  | .SM16 =>
    let j := k - 1
    let num := 128 * M * pow2pos (-j)
    let den := f.qmax * pow2pos j
    let m := (num + den - 1) / den
    if m = 256 then (k, 128) else (j, m)

/-- The 64 rounding generators of a vector core or of a write-back stage (R56). -/
abbrev Gens := Vector Word 64

/-- One value at the requantiser: an integer with the scale 2^(ein - 127), no exponent where it is an exact zero that
takes no part in the choice of a scale (R61, R82), and the lane it is converted on. -/
structure QLane where
  v : Int
  ein : Option Int
  lane : Nat
  deriving DecidableEq, Repr

/-- What a requantised block comes out as: elements, scale, flags, the generators after it. -/
structure QBlock where
  elems : List Int
  scale : Scale
  flags : Outcomes
  gens : Gens

/-- The values of a block converted in order by (m / 128) x 2^(e - ein), unsaturated; a lane that rounds stochastically
and discards bits draws once (R54 to R56). A value with no exponent draws nothing: DESIGN CHOICE, log entry 62. -/
def convertSeq (stoch : Bool) (e : Int) (m : Nat) : List QLane → Gens → List Int × Gens
  | [], g => ([], g)
  | l :: t, g =>
    match l.ein with
    | none => let (r, g') := convertSeq stoch e m t g; (0 :: r, g')
    | some ein =>
      let x := g.toArray.getD l.lane 1
      let sh := e - ein
      let q := convert (if stoch then some (drawOf x) else none) l.v sh m
      let (r, g') := convertSeq stoch e m t
        (if stoch && discards sh m then g.setIfInBounds l.lane (nextGen x) else g)
      (q :: r, g')

/-- The largest exponent of a block, none where no value has one. -/
def maxExp (ls : List QLane) : Option Int :=
  ls.foldl (fun a l => match a, l.ein with
    | some x, some y => some (max x y)
    | none, y => y
    | x, none => x) none

/-- A value aligned to the exponent `e`, rounded to nearest even (R82, R86). -/
def QLane.align (e : Int) (l : QLane) : QLane :=
  match l.ein with
  | some x => { l with v := shiftRne l.v (e - x), ein := some e }
  | none => l

/-- A block with a scale chosen from its maximum (R63 to R65), its inputs first aligned to the largest exponent, as R86 says
of the matrix core; on a vector core too, where entries differ: DESIGN CHOICE, log entry 62. -/
def requantChoose (f : Fmt) (sf : SFmt) (stoch : Bool) (ls : List QLane) (g : Gens) : QBlock :=
  match maxExp ls with
  | none => ⟨ls.map fun _ => 0, .zero, {}, g⟩
  | some emax =>
    let ls := ls.map (QLane.align emax)
    let M := blockMax f (ls.map (·.v))
    if M = 0 then ⟨ls.map fun _ => 0, .zero, {}, g⟩
    else
      let (j, m) := chooseScale sf f M
      let (e, clamped) := limitExp (emax + j)
      let (raw, g') := convertSeq stoch e m ls g
      let qs := raw.map (saturate f)
      ⟨qs.map (·.1), .normal e m, { saturated := qs.any (·.2), clamped := clamped }, g'⟩

/-- Whether every value fits when converted at the scale (e, m) (R66), with the draws that the conversion will use: DESIGN
CHOICE, log entry 62. -/
def blockFits (f : Fmt) (stoch : Bool) (ls : List QLane) (g : Gens) (e : Int) (m : Nat) : Bool :=
  (convertSeq stoch e m ls g).1.all (fits f)

/-- The smallest raise, from `d` up, at which `ok` holds; `fuel` bounds the search. -/
def findRaise (ok : Nat → Bool) : Nat → Nat → Nat
  | 0, d => d
  | fuel + 1, d => if ok d then d else findRaise ok fuel (d + 1)

/-- A block at a scale the operation names, already raised by `d` where it was rescaled (R66). -/
def requantAt (f : Fmt) (stoch : Bool) (s : Scale) (d : Nat) (ls : List QLane) (g : Gens) : QBlock :=
  match s with
  | .invalid => ⟨ls.map fun _ => 0, .invalid, { scaleInvalid := true }, g⟩
  | .zero => ⟨ls.map fun _ => 0, .zero, {}, g⟩
  | .normal e0 m =>
    let (e, clamped) := limitExp (e0 + d)
    let (raw, g') := convertSeq stoch e m ls g
    let qs := raw.map (saturate f)
    ⟨qs.map (·.1), .normal e m, { saturated := qs.any (·.2), rescaled := d ≠ 0, clamped := clamped }, g'⟩

/-- Whether a block fits at its named scale raised by `d` (R66); a zero or invalid scale is never raised. Elements are
shifted further below exponent 1; above 254 they saturate at 254, whatever the raise (R60). -/
def fitsAt (f : Fmt) (stoch : Bool) (s : Scale) (ls : List QLane) (g : Gens) (d : Nat) : Bool :=
  match s with
  | .normal e m => blockFits f stoch ls g (max 1 (e + d)) m
  | _ => true

/-- The common raise of the parts of a block under AUTO_RESCALE: 0 where it fits, else the smallest from 1 (R66, R121). A
12-bit exponent, the wider one of an accumulator and 48 bits of value bound the search. -/
def raiseOf (auto : Bool) (fit : Nat → Bool) : Nat := if auto && !fit 0 then findRaise fit 4400 1 else 0

/-- A block at the scale the operation names (R66). -/
def requantFixed (f : Fmt) (auto stoch : Bool) (s : Scale) (ls : List QLane) (g : Gens) : QBlock :=
  requantAt f stoch s (raiseOf auto (fitsAt f stoch s ls g)) ls g

/-- The conversion field of R62. -/
structure Conv where
  stoch : Bool
  choose : Bool
  auto : Bool
  deriving DecidableEq, Repr

/-- R62's refusals; `grainNone` says that the output's GRAN is none. -/
def Conv.ofField (n : Nat) (grainNone : Bool) : Option Conv :=
  let c : Conv := ⟨n.testBit 0, n.testBit 1, n.testBit 2⟩
  if n.testBit 3 || (c.auto && c.choose) || ((c.choose || c.auto) && grainNone) then none else some c

/-- The product of two scales (R53), exponents unlimited; multipliers normalised and rounded as SMUL does (R123). -/
def normMult (e : Int) (m : Nat) : Int × Nat :=
  let s := 7 - Nat.log2 m
  (e - s, m * 2 ^ s)

/-- SMUL (R123, R53). -/
def Scale.mul (a b : Scale) : Scale :=
  match a, b with
  | .invalid, _ => .invalid
  | _, .invalid => .invalid
  | .zero, _ => .zero
  | _, .zero => .zero
  | .normal ea ma, .normal eb mb =>
    let (ea, ma) := normMult ea ma
    let (eb, mb) := normMult eb mb
    let e := ea + eb - 127
    let m := rneDiv (ma * mb : Nat) 128
    if m ≥ 256 then .normal (e + 1) (rneDiv m 2).toNat else .normal e m.toNat

/-- a is at least b by value, for normal scales (m / 128) x 2^(e - 127). -/
def Scale.geNormal (ea : Int) (ma : Nat) (eb : Int) (mb : Nat) : Bool :=
  let d := ea - eb
  decide (ma * pow2pos d ≥ mb * pow2pos (-d))

/-- SMAXE: the larger by value; invalid on either side is invalid; zero loses to any normal one (R123). Of two
equal values held with different E and M, sA's form is taken, DESIGN CHOICE, log entry 79. -/
def Scale.maxE (a b : Scale) : Scale :=
  match a, b with
  | .invalid, _ => .invalid
  | _, .invalid => .invalid
  | .zero, s => s
  | s, .zero => s
  | .normal ea ma, .normal eb mb => if Scale.geNormal ea ma eb mb then a else b

/-- Two scales denote the same value, both valid (R164). -/
def Scale.sameValue (a b : Scale) : Bool :=
  match a, b with
  | .zero, .zero => true
  | .normal ea ma, .normal eb mb => Scale.geNormal ea ma eb mb && Scale.geNormal eb mb ea ma
  | _, _ => false

end Sys2Proof.Machine
end

