-- ==== Sys2Proof/Machine/Maps.lean ====
section
/-! DEFINITION. Operations on sparse maps: read, write, and the canonical form every write keeps. -/
namespace Sys2Proof.Machine

variable {α : Type} [DecidableEq α]

/-- What key `k` reads as; `d` says what an unlisted key reads as. -/
def mget (d : Nat → α) : NMap α → Nat → α
  | [], k => d k
  | (j, v) :: t, k => if k = j then v else mget d t k

/-- One entry in front of `t`, unless it is what the key reads as unlisted. -/
def mcons (d : Nat → α) (k : Nat) (v : α) (t : NMap α) : NMap α :=
  if v = d k then t else (k, v) :: t

/-- Write `v` at key `k`, keeping the canonical form. -/
def mput (d : Nat → α) (m : NMap α) (k : Nat) (v : α) : NMap α :=
  match m with
  | [] => mcons d k v []
  | (j, w) :: t =>
    if k < j then mcons d k v ((j, w) :: t)
    else if k = j then mcons d k v t
    else (j, w) :: mput d t k v

/-- Every key of `m` lies above `k`. -/
def mabove (k : Nat) : NMap α → Bool
  | [] => true
  | (j, _) :: _ => decide (k < j)

/-- The canonical form: keys strictly rising, no entry equal to what an unlisted key reads as. -/
def mwf (d : Nat → α) : NMap α → Bool
  | [] => true
  | (j, v) :: t => mabove j t && decide (v ≠ d j) && mwf d t

/-- Write a list of (key, value) pairs in order. -/
def mputs (d : Nat → α) (m : NMap α) : List (Nat × α) → NMap α
  | [] => m
  | (k, v) :: t => mputs d (mput d m k v) t

/-- Keep the entries whose key satisfies `p`: every other key reads as unlisted. -/
def mkeep (p : Nat → Bool) (m : NMap α) : NMap α := m.filter fun e => p e.1

/-- Change every listed value; one that becomes what its key reads as unlisted goes. -/
def mmap (d : Nat → α) (f : α → α) (m : NMap α) : NMap α :=
  (m.map fun e => (e.1, f e.2)).filter fun e => decide (e.2 ≠ d e.1)

/-- Write the list of values at consecutive keys from `k`. -/
def mrun (d : Nat → α) (m : NMap α) (k : Nat) : List α → NMap α
  | [] => m
  | v :: t => mrun d (mput d m k v) (k + 1) t

/-- `n` values from key `k` up. -/
def mslice (d : Nat → α) (m : NMap α) (k : Nat) : Nat → List α
  | 0 => []
  | n + 1 => mget d m k :: mslice d m (k + 1) n

end Sys2Proof.Machine
end

