-- ==== Sys2Proof/Machine/Operands.lean ====
section
/-! DEFINITION. Operand forms: the instruction words of the tally instruction set decoded into their fields,
and the words that hold them (05_teller_and_vector_cores.md, R108, R109). -/
namespace Sys2Proof.Machine

/-- Bits [hi:lo] of a number. -/
def bitsOf (n hi lo : Nat) : Nat := (n >>> lo) % 2 ^ (hi + 1 - lo)

/-- Bits [hi:lo] of a number, two's complement. -/
def sbitsOf (n hi lo : Nat) : Int :=
  let w := hi + 1 - lo
  let x := bitsOf n hi lo
  if x < 2 ^ (w - 1) then (x : Int) else (x : Int) - (2 ^ w : Nat)

/-- The ALU functions of R109. -/
inductive AluFn where
  | ADD | SUB | MUL | MULH | MAD | MULQ | AND | OR | XOR | SHL | SHR | SRA | SRAR | SRAS | MIN | MAX
  | ADDS | SUBS | ABS | CLZ | BCAST | MINU | MAXU | RSUB
  deriving DecidableEq, Repr

/-- FN of ALU, VV and VS (R109). -/
def AluFn.ofCode : Nat → Option AluFn
  | 0x00 => some .ADD | 0x01 => some .SUB | 0x02 => some .MUL | 0x03 => some .MULH | 0x04 => some .MAD
  | 0x05 => some .MULQ | 0x06 => some .AND | 0x07 => some .OR | 0x08 => some .XOR | 0x09 => some .SHL
  | 0x0A => some .SHR | 0x0B => some .SRA | 0x0C => some .SRAR | 0x0D => some .SRAS | 0x0E => some .MIN
  | 0x0F => some .MAX | 0x10 => some .ADDS | 0x11 => some .SUBS | 0x12 => some .ABS | 0x13 => some .CLZ
  | 0x14 => some .BCAST | 0x15 => some .MINU | 0x16 => some .MAXU | 0x17 => some .RSUB | _ => none

/-- The functions that the scalar ALU has (R109). -/
def AluFn.scalar : AluFn → Bool
  | .MAD | .SRAS | .BCAST => false
  | _ => true

/-- The functions under the residue check of R125. -/
def AluFn.residueChecked : AluFn → Bool
  | .ADD | .SUB | .MUL | .MULH | .MAD | .MULQ | .SHL | .SHR | .SRA | .SRAR | .SRAS | .ADDS | .SUBS | .ABS
  | .RSUB => true
  | _ => false

/-- The comparison functions of R109. -/
inductive CmpFn where
  | EQ | NE | LT | LE | LTU | LEU
  deriving DecidableEq, Repr

/-- FN of CMP, VCMP and VCMPS (R109). -/
def CmpFn.ofCode : Nat → Option CmpFn
  | 0 => some .EQ | 1 => some .NE | 2 => some .LT | 3 => some .LE | 4 => some .LTU | 5 => some .LEU
  | _ => none

/-- The predicate functions of KOP. -/
inductive KopFn where
  | AND | OR | XOR | ANDN | NOT | FROMG | COUNT
  deriving DecidableEq, Repr

/-- FN of KOP. -/
def KopFn.ofCode : Nat → Option KopFn
  | 0 => some .AND | 1 => some .OR | 2 => some .XOR | 3 => some .ANDN | 4 => some .NOT | 5 => some .FROMG
  | 6 => some .COUNT | _ => none

/-- The reductions of RED (R109, R111). -/
inductive RedFn where
  | ADD | ADDS | MAX | MIN | MAXABS
  deriving DecidableEq, Repr

/-- FN of RED. -/
def RedFn.ofCode : Nat → Option RedFn
  | 0 => some .ADD | 1 => some .ADDS | 2 => some .MAX | 3 => some .MIN | 4 => some .MAXABS | _ => none

/-- An instruction of the tally instruction set with its fields (R108, R109): register numbers, predicates, offsets. -/
inductive Insn where
  | alu (fn : AluFn) (d a b kp : Nat)
  | addi (d a : Nat) (imm : Word)
  | andi (d a : Nat) (imm : Word)
  | ori (d a : Nat) (imm : Word)
  | xori (d a : Nat) (imm : Word)
  | lui (d : Nat) (imm : Word)
  | shli (d a sh : Nat)
  | shri (d a sh : Nat)
  | srai (d a sh : Nat)
  | cmp (fn : CmpFn) (d a b : Nat)
  | kop (fn : KopFn) (d a b : Nat)
  | vv (fn : AluFn) (d a b kp : Nat)
  | vs (fn : AluFn) (d a b kp : Nat)
  | vcmp (fn : CmpFn) (d a b : Nat)
  | vcmps (fn : CmpFn) (d a b : Nat)
  | sel (d a b kp : Nat)
  | red (fn : RedFn) (d a kp : Nat)
  | ldw (d a kp : Nat) (off : Int)
  | stw (d a kp : Nat) (off : Int)
  | vld (d a kp fmt : Nat) (off : Int)
  | vst (d a kp fmt : Nat) (off : Int)
  | sld (d a kp : Nat) (sm16 : Bool) (blk : Nat) (off : Int)
  | sst (d a kp : Nat) (sm16 : Bool) (blk : Nat) (off : Int)
  | vldr (d a b kp fmt : Nat)
  | vstr (d a b kp fmt : Nat)
  | bmax (va sa sd fmt kp blk : Nat) (sm16 : Bool)
  | rescale (vd va sa sd fmt conv blk : Nat) (sm16 : Bool)
  | smul (d a b kp : Nat)
  | smov (d a kp : Nat)
  | sshift (d a b kp : Nat)
  | sget (d a entry kp : Nat)
  | sput (d a mask kp : Nat)
  | smaxe (d a b kp : Nat)
  | lut (vd va kp bits shift base : Nat)
  | qsend (try_ : Bool) (v s k g queue : Nat)
  | qrecv (try_ : Bool) (v s k g queue : Nat)
  | msend (try_ : Bool) (d a b kp : Nat)
  | dmaq (try_ : Bool) (d a b kp : Nat)
  | dmapop (try_ : Bool) (d b kp : Nat)
  | mxi (try_ : Bool) (d a kp : Nat)
  | mxpop (try_ : Bool) (d b kp : Nat)
  | beqz (a : Nat) (off : Int)
  | bnez (a : Nat) (off : Int)
  | jal (d : Nat) (off : Int)
  | jr (a : Nat)
  | nop
  | halt
  | wft
  | vrun (core a : Nat)
  | vwait (cores : Nat)
  | fence
  | trap (code : Nat)
  | rdsr (d b : Nat)
  deriving DecidableEq, Repr

/-- A 5-bit field that holds a k or s index: its upper bits are required to be 0 (R108). -/
def idx3 (n : Nat) : Option Nat := if n < 8 then some n else none

/-- A 5-bit field that holds a v index: its upper bit is required to be 0 (R108). -/
def idx4 (n : Nat) : Option Nat := if n < 16 then some n else none

/-- Format R (R108). A field that an instruction does not use may hold anything: R109 refuses nonzero reserved fields and does
not say that these are reserved, DESIGN CHOICE, log entry 79. -/
def decodeR (op n : Nat) : Option Insn := do
  let d := bitsOf n 25 21
  let a := bitsOf n 20 16
  let b := bitsOf n 15 11
  let kp := bitsOf n 10 8
  let fn := bitsOf n 7 0
  match op with
  | 0x01 =>
    let f ← AluFn.ofCode fn
    if f.scalar then some (.alu f d a b kp) else none
  | 0x0A => do let f ← CmpFn.ofCode fn; let d ← idx3 d; some (.cmp f d a b)
  | 0x0B => do
    let f ← KopFn.ofCode fn
    match f with
    | .FROMG => do let d ← idx3 d; some (.kop f d a b)
    | .COUNT => do let a ← idx3 a; some (.kop f d a b)
    | .NOT => do let d ← idx3 d; let a ← idx3 a; some (.kop f d a b)
    | _ => do let d ← idx3 d; let a ← idx3 a; let b ← idx3 b; some (.kop f d a b)
  | 0x10 => do
    let f ← AluFn.ofCode fn
    if f = .BCAST then none
    else do let d ← idx4 d; let a ← idx4 a; let b ← idx4 b; some (.vv f d a b kp)
  | 0x11 => do let f ← AluFn.ofCode fn; let d ← idx4 d; let a ← idx4 a; some (.vs f d a b kp)
  | 0x12 => do let f ← CmpFn.ofCode fn; let d ← idx3 d; let a ← idx4 a; let b ← idx4 b; some (.vcmp f d a b)
  | 0x13 => do let f ← CmpFn.ofCode fn; let d ← idx3 d; let a ← idx4 a; some (.vcmps f d a b)
  | 0x14 =>
    if fn ≠ 0 then none
    else do let d ← idx4 d; let a ← idx4 a; let b ← idx4 b; some (.sel d a b kp)
  | 0x15 => do let f ← RedFn.ofCode fn; let a ← idx4 a; some (.red f d a kp)
  | 0x1E => if fn < 16 then do let d ← idx4 d; some (.vldr d a b kp fn) else none
  | 0x1F => if fn < 16 then do let d ← idx4 d; some (.vstr d a b kp fn) else none
  | 0x22 =>
    match fn with
    | 0 => do let d ← idx3 d; let a ← idx3 a; let b ← idx3 b; some (.smul d a b kp)
    | 1 => do let d ← idx3 d; let a ← idx3 a; some (.smov d a kp)
    | 2 => do let d ← idx3 d; let a ← idx3 a; some (.sshift d a b kp)
    | 3 => do let a ← idx3 a; some (.sget d a (b % 4) kp)
    | 4 => do let d ← idx3 d; some (.sput d a (b % 16) kp)
    | 5 => do let d ← idx3 d; let a ← idx3 a; let b ← idx3 b; some (.smaxe d a b kp)
    | _ => none
  | 0x2C =>
    match fn with
    | 0 => some (.msend false d a b kp)
    | 1 => some (.msend true d a b kp)
    | 2 => some (.dmaq false d a b kp)
    | 3 => some (.dmaq true d a b kp)
    | 4 => some (.dmapop false d b kp)
    | 5 => some (.dmapop true d b kp)
    | _ => none
  | 0x2D =>
    match fn with
    | 0 => some (.mxi false d a kp)
    | 1 => some (.mxi true d a kp)
    | 2 => some (.mxpop false d b kp)
    | 3 => some (.mxpop true d b kp)
    | _ => none
  | 0x33 => if b = 0 ∧ kp = 0 ∧ fn = 0 then some (.jr a) else none
  | 0x38 =>
    match fn with
    | 0 => some .nop
    | 1 => some .halt
    | 2 => some .wft
    | 3 => some (.vrun (b % 2) a)
    | 4 => some (.vwait (b % 4))
    | 5 => some .fence
    | 6 => some (.trap b)
    | 7 => if b ≤ 2 then some (.rdsr d b) else none
    | _ => none
  | _ => none

/-- Format I (R108): IMM sign-extended, zero-extended for ANDI, ORI and XORI. -/
def decodeI (op n : Nat) : Option Insn :=
  let d := bitsOf n 25 21
  let a := bitsOf n 20 16
  let imm := bitsOf n 15 0
  let z : Word := BitVec.ofNat 32 imm
  let s : Word := BitVec.ofInt 32 (sbitsOf n 15 0)
  match op with
  | 0x02 => some (.addi d a s)
  | 0x03 => some (.andi d a z)
  | 0x04 => some (.ori d a z)
  | 0x05 => some (.xori d a z)
  | 0x06 => if a = 0 then some (.lui d (z <<< 16)) else none
  | 0x07 => if imm < 32 then some (.shli d a imm) else none
  | 0x08 => if imm < 32 then some (.shri d a imm) else none
  | 0x09 => if imm < 32 then some (.srai d a imm) else none
  | 0x32 => if a = 0 then some (.jal d (sbitsOf n 15 0)) else none
  | _ => none

/-- Format M (R108): OFF scaled by the access; LDW and STW take FMT 0; SLD and SST hold SFMT in [12], BLK in [11:10]. -/
def decodeM (op n : Nat) : Option Insn :=
  let d := bitsOf n 25 21
  let a := bitsOf n 20 16
  let kp := bitsOf n 15 13
  let fmt := bitsOf n 12 9
  let off := sbitsOf n 8 0
  match op with
  | 0x18 => if fmt = 0 then some (.ldw d a kp (off * 4)) else none
  | 0x19 => if fmt = 0 then some (.stw d a kp (off * 4)) else none
  | 0x1A => do let d ← idx4 d; some (.vld d a kp fmt (off * 16))
  | 0x1B => do let d ← idx4 d; some (.vst d a kp fmt (off * 16))
  | 0x1C => do
    let d ← idx3 d
    if bitsOf n 9 9 = 0 then some (.sld d a kp (bitsOf n 12 12 = 1) (bitsOf n 11 10) off) else none
  | 0x1D => do
    let d ← idx3 d
    if bitsOf n 9 9 = 0 then some (.sst d a kp (bitsOf n 12 12 = 1) (bitsOf n 11 10) off) else none
  | _ => none

/-- Formats B, S, Q and L (R108, R109). -/
def decodeBSQL (op n : Nat) : Option Insn :=
  match op with
  | 0x20 =>
    if bitsOf n 7 7 = 0 ∧ bitsOf n 0 0 = 0 then
      some (.bmax (bitsOf n 21 18) (bitsOf n 17 15) (bitsOf n 14 12) (bitsOf n 11 8) (bitsOf n 6 4) (bitsOf n 3 2)
        (bitsOf n 1 1 = 1))
    else none
  | 0x21 =>
    if bitsOf n 0 0 = 0 then
      some (.rescale (bitsOf n 25 22) (bitsOf n 21 18) (bitsOf n 17 15) (bitsOf n 14 12) (bitsOf n 11 8)
        (bitsOf n 7 4) (bitsOf n 3 2) (bitsOf n 1 1 = 1))
    else none
  | 0x23 =>
    let bits := bitsOf n 14 11
    if 1 ≤ bits ∧ bits ≤ 12 then
      some (.lut (bitsOf n 25 22) (bitsOf n 21 18) (bitsOf n 17 15) bits (bitsOf n 10 6) (bitsOf n 5 0))
    else none
  | 0x28 => some (.qsend false (bitsOf n 25 22) (bitsOf n 21 19) (bitsOf n 18 16) (bitsOf n 15 11) (bitsOf n 10 0))
  | 0x29 => some (.qrecv false (bitsOf n 25 22) (bitsOf n 21 19) (bitsOf n 18 16) (bitsOf n 15 11) (bitsOf n 10 0))
  | 0x2A => some (.qsend true (bitsOf n 25 22) (bitsOf n 21 19) (bitsOf n 18 16) (bitsOf n 15 11) (bitsOf n 10 0))
  | 0x2B => some (.qrecv true (bitsOf n 25 22) (bitsOf n 21 19) (bitsOf n 18 16) (bitsOf n 15 11) (bitsOf n 10 0))
  | 0x30 => some (.beqz (bitsOf n 25 21) (sbitsOf n 20 0))
  | 0x31 => some (.bnez (bitsOf n 25 21) (sbitsOf n 20 0))
  | _ => none

/-- The instruction a word holds, none where it is ILLEGAL (R109). -/
def decodeInsn (w : Word) : Option Insn :=
  let n := w.toNat
  let op := bitsOf n 31 26
  if op ∈ [0x02, 0x03, 0x04, 0x05, 0x06, 0x07, 0x08, 0x09, 0x32] then decodeI op n
  else if op ∈ [0x18, 0x19, 0x1A, 0x1B, 0x1C, 0x1D] then decodeM op n
  else if op ∈ [0x20, 0x21, 0x23, 0x28, 0x29, 0x2A, 0x2B, 0x30, 0x31] then decodeBSQL op n
  else decodeR op n

/-- FN of a function of the ALU (R109). -/
def AluFn.code : AluFn → Nat
  | .ADD => 0x00 | .SUB => 0x01 | .MUL => 0x02 | .MULH => 0x03 | .MAD => 0x04 | .MULQ => 0x05 | .AND => 0x06
  | .OR => 0x07 | .XOR => 0x08 | .SHL => 0x09 | .SHR => 0x0A | .SRA => 0x0B | .SRAR => 0x0C | .SRAS => 0x0D
  | .MIN => 0x0E | .MAX => 0x0F | .ADDS => 0x10 | .SUBS => 0x11 | .ABS => 0x12 | .CLZ => 0x13 | .BCAST => 0x14
  | .MINU => 0x15 | .MAXU => 0x16 | .RSUB => 0x17

def CmpFn.code : CmpFn → Nat
  | .EQ => 0 | .NE => 1 | .LT => 2 | .LE => 3 | .LTU => 4 | .LEU => 5

def KopFn.code : KopFn → Nat
  | .AND => 0 | .OR => 1 | .XOR => 2 | .ANDN => 3 | .NOT => 4 | .FROMG => 5 | .COUNT => 6

def RedFn.code : RedFn → Nat
  | .ADD => 0 | .ADDS => 1 | .MAX => 2 | .MIN => 3 | .MAXABS => 4

/-- A word of format R, I, M, B, S, Q or L from its fields (R108). -/
def wordR (op d a b kp fn : Nat) : Word :=
  BitVec.ofNat 32 (op * 2 ^ 26 + d * 2 ^ 21 + a * 2 ^ 16 + b * 2 ^ 11 + kp * 2 ^ 8 + fn)
def wordI (op d a imm : Nat) : Word := BitVec.ofNat 32 (op * 2 ^ 26 + d * 2 ^ 21 + a * 2 ^ 16 + imm)
def wordM (op d a kp fmt off : Nat) : Word :=
  BitVec.ofNat 32 (op * 2 ^ 26 + d * 2 ^ 21 + a * 2 ^ 16 + kp * 2 ^ 13 + fmt * 2 ^ 9 + off)
def wordB (op a off : Nat) : Word := BitVec.ofNat 32 (op * 2 ^ 26 + a * 2 ^ 21 + off)
def wordS (op vd va sa sd fmt conv blk sm16 : Nat) : Word :=
  BitVec.ofNat 32 (op * 2 ^ 26 + vd * 2 ^ 22 + va * 2 ^ 18 + sa * 2 ^ 15 + sd * 2 ^ 12 + fmt * 2 ^ 8 + conv * 2 ^ 4
    + blk * 2 ^ 2 + sm16 * 2)
def wordQ (op v s k g queue : Nat) : Word :=
  BitVec.ofNat 32 (op * 2 ^ 26 + v * 2 ^ 22 + s * 2 ^ 19 + k * 2 ^ 16 + g * 2 ^ 11 + queue)
def wordL (op vd va kp bits shift base : Nat) : Word :=
  BitVec.ofNat 32 (op * 2 ^ 26 + vd * 2 ^ 22 + va * 2 ^ 18 + kp * 2 ^ 15 + bits * 2 ^ 11 + shift * 2 ^ 6 + base)

/-- A signed field of `w` bits. -/
def signedField (w : Nat) (x : Int) : Nat := (x % (2 ^ w : Nat)).toNat

/-- The word of an instruction; a field that it does not use is 0 (R108, R109). -/
def encodeInsn : Insn → Word
  | .alu f d a b kp => wordR 0x01 d a b kp f.code
  | .addi d a imm => wordI 0x02 d a (signedField 16 imm.toInt)
  | .andi d a imm => wordI 0x03 d a imm.toNat
  | .ori d a imm => wordI 0x04 d a imm.toNat
  | .xori d a imm => wordI 0x05 d a imm.toNat
  | .lui d imm => wordI 0x06 d 0 (imm.toNat / 2 ^ 16)
  | .shli d a sh => wordI 0x07 d a sh
  | .shri d a sh => wordI 0x08 d a sh
  | .srai d a sh => wordI 0x09 d a sh
  | .cmp f d a b => wordR 0x0A d a b 0 f.code
  | .kop f d a b => wordR 0x0B d a b 0 f.code
  | .vv f d a b kp => wordR 0x10 d a b kp f.code
  | .vs f d a b kp => wordR 0x11 d a b kp f.code
  | .vcmp f d a b => wordR 0x12 d a b 0 f.code
  | .vcmps f d a b => wordR 0x13 d a b 0 f.code
  | .sel d a b kp => wordR 0x14 d a b kp 0
  | .red f d a kp => wordR 0x15 d a 0 kp f.code
  | .ldw d a kp off => wordM 0x18 d a kp 0 (signedField 9 (off / 4))
  | .stw d a kp off => wordM 0x19 d a kp 0 (signedField 9 (off / 4))
  | .vld d a kp fmt off => wordM 0x1A d a kp fmt (signedField 9 (off / 16))
  | .vst d a kp fmt off => wordM 0x1B d a kp fmt (signedField 9 (off / 16))
  | .sld d a kp sm16 blk off => wordM 0x1C d a kp (8 * sm16.toNat + 2 * blk) (signedField 9 off)
  | .sst d a kp sm16 blk off => wordM 0x1D d a kp (8 * sm16.toNat + 2 * blk) (signedField 9 off)
  | .vldr d a b kp fmt => wordR 0x1E d a b kp fmt
  | .vstr d a b kp fmt => wordR 0x1F d a b kp fmt
  | .bmax va sa sd fmt kp blk sm16 => wordS 0x20 0 va sa sd fmt kp blk sm16.toNat
  | .rescale vd va sa sd fmt conv blk sm16 => wordS 0x21 vd va sa sd fmt conv blk sm16.toNat
  | .smul d a b kp => wordR 0x22 d a b kp 0
  | .smov d a kp => wordR 0x22 d a 0 kp 1
  | .sshift d a b kp => wordR 0x22 d a b kp 2
  | .sget d a e kp => wordR 0x22 d a e kp 3
  | .sput d a mask kp => wordR 0x22 d a mask kp 4
  | .smaxe d a b kp => wordR 0x22 d a b kp 5
  | .lut vd va kp bits shift base => wordL 0x23 vd va kp bits shift base
  | .qsend t v s k g q => wordQ (if t then 0x2A else 0x28) v s k g q
  | .qrecv t v s k g q => wordQ (if t then 0x2B else 0x29) v s k g q
  | .msend t d a b kp => wordR 0x2C d a b kp t.toNat
  | .dmaq t d a b kp => wordR 0x2C d a b kp (2 + t.toNat)
  | .dmapop t d b kp => wordR 0x2C d 0 b kp (4 + t.toNat)
  | .mxi t d a kp => wordR 0x2D d a 0 kp t.toNat
  | .mxpop t d b kp => wordR 0x2D d 0 b kp (2 + t.toNat)
  | .beqz a off => wordB 0x30 a (signedField 21 off)
  | .bnez a off => wordB 0x31 a (signedField 21 off)
  | .jal d off => wordI 0x32 d 0 (signedField 16 off)
  | .jr a => wordR 0x33 0 a 0 0 0
  | .nop => wordR 0x38 0 0 0 0 0
  | .halt => wordR 0x38 0 0 0 0 1
  | .wft => wordR 0x38 0 0 0 0 2
  | .vrun v a => wordR 0x38 0 a v 0 3
  | .vwait m => wordR 0x38 0 0 m 0 4
  | .fence => wordR 0x38 0 0 0 0 5
  | .trap code => wordR 0x38 0 0 code 0 6
  | .rdsr d b => wordR 0x38 d 0 b 0 7

/-- A value of `n` bits, two's complement, times `scale`. -/
def fitsSigned (n scale : Nat) (x : Int) : Bool :=
  decide (x % scale = 0) && decide (-(2 ^ (n - 1) : Nat) ≤ x / scale) && decide (x / scale < (2 ^ (n - 1) : Nat))

/-- Every field of an instruction fits its place in the word (R108, R109). -/
def Insn.encodable : Insn → Bool
  | .alu f d a b kp => f.scalar && d < 32 && a < 32 && b < 32 && kp < 8
  | .addi d a imm => d < 32 && a < 32 && fitsSigned 16 1 imm.toInt
  | .andi d a imm => d < 32 && a < 32 && imm.toNat < 2 ^ 16
  | .ori d a imm => d < 32 && a < 32 && imm.toNat < 2 ^ 16
  | .xori d a imm => d < 32 && a < 32 && imm.toNat < 2 ^ 16
  | .lui d imm => d < 32 && imm.toNat % 2 ^ 16 == 0
  | .shli d a sh => d < 32 && a < 32 && sh < 32
  | .shri d a sh => d < 32 && a < 32 && sh < 32
  | .srai d a sh => d < 32 && a < 32 && sh < 32
  | .cmp _ d a b => d < 8 && a < 32 && b < 32
  | .kop f d a b => match f with
    | .FROMG => d < 8 && a < 32 && b < 32
    | .COUNT => d < 32 && a < 8 && b < 32
    | .NOT => d < 8 && a < 8 && b < 32
    | _ => d < 8 && a < 8 && b < 8
  | .vv f d a b kp => f != .BCAST && d < 16 && a < 16 && b < 16 && kp < 8
  | .vs _ d a b kp => d < 16 && a < 16 && b < 32 && kp < 8
  | .vcmp _ d a b => d < 8 && a < 16 && b < 16
  | .vcmps _ d a b => d < 8 && a < 16 && b < 32
  | .sel d a b kp => d < 16 && a < 16 && b < 16 && kp < 8
  | .red _ d a kp => d < 32 && a < 16 && kp < 8
  | .ldw d a kp off => d < 32 && a < 32 && kp < 8 && fitsSigned 9 4 off
  | .stw d a kp off => d < 32 && a < 32 && kp < 8 && fitsSigned 9 4 off
  | .vld d a kp fmt off => d < 16 && a < 32 && kp < 8 && fmt < 16 && fitsSigned 9 16 off
  | .vst d a kp fmt off => d < 16 && a < 32 && kp < 8 && fmt < 16 && fitsSigned 9 16 off
  | .sld d a kp _ blk off => d < 8 && a < 32 && kp < 8 && blk < 4 && fitsSigned 9 1 off
  | .sst d a kp _ blk off => d < 8 && a < 32 && kp < 8 && blk < 4 && fitsSigned 9 1 off
  | .vldr d a b kp fmt => d < 16 && a < 32 && b < 32 && kp < 8 && fmt < 16
  | .vstr d a b kp fmt => d < 16 && a < 32 && b < 32 && kp < 8 && fmt < 16
  | .bmax va sa sd fmt kp blk _ => va < 16 && sa < 8 && sd < 8 && fmt < 16 && kp < 8 && blk < 4
  | .rescale vd va sa sd fmt conv blk _ =>
    vd < 16 && va < 16 && sa < 8 && sd < 8 && fmt < 16 && conv < 16 && blk < 4
  | .smul d a b kp => d < 8 && a < 8 && b < 8 && kp < 8
  | .smov d a kp => d < 8 && a < 8 && kp < 8
  | .sshift d a b kp => d < 8 && a < 8 && b < 32 && kp < 8
  | .sget d a e kp => d < 32 && a < 8 && e < 4 && kp < 8
  | .sput d a mask kp => d < 8 && a < 32 && mask < 16 && kp < 8
  | .smaxe d a b kp => d < 8 && a < 8 && b < 8 && kp < 8
  | .lut vd va kp bits shift base => vd < 16 && va < 16 && kp < 8 && 1 ≤ bits && bits ≤ 12 && shift < 32 && base < 64
  | .qsend _ v s k g q => v < 16 && s < 8 && k < 8 && g < 32 && q < 2048
  | .qrecv _ v s k g q => v < 16 && s < 8 && k < 8 && g < 32 && q < 2048
  | .msend _ d a b kp => d < 32 && a < 32 && b < 32 && kp < 8
  | .dmaq _ d a b kp => d < 32 && a < 32 && b < 32 && kp < 8
  | .dmapop _ d b kp => d < 32 && b < 32 && kp < 8
  | .mxi _ d a kp => d < 32 && a < 32 && kp < 8
  | .mxpop _ d b kp => d < 32 && b < 32 && kp < 8
  | .beqz a off => a < 32 && fitsSigned 21 1 off
  | .bnez a off => a < 32 && fitsSigned 21 1 off
  | .jal d off => d < 32 && fitsSigned 16 1 off
  | .jr a => a < 32
  | .vrun v a => v < 2 && a < 32
  | .vwait m => m < 4
  | .trap code => code < 32
  | .rdsr d b => d < 32 && b ≤ 2
  | .nop | .halt | .wft | .fence => true

/-- The cores an instruction belongs to (R109). -/
inductive CoreClass where
  | all | vector | teller
  deriving DecidableEq, Repr

/-- The Cores column of R109, and R102. -/
def Insn.cls : Insn → CoreClass
  | .alu .. | .addi .. | .andi .. | .ori .. | .xori .. | .lui .. | .shli .. | .shri .. | .srai .. | .cmp ..
  | .kop .. | .ldw .. | .stw .. | .msend .. | .dmaq .. | .dmapop .. | .beqz .. | .bnez .. | .jal .. | .jr ..
  | .nop | .fence | .trap .. | .rdsr .. => .all
  | .mxi .. | .mxpop .. | .wft | .vrun .. | .vwait .. => .teller
  | _ => .vector

end Sys2Proof.Machine
end

