-- ==== Sys2Proof/Machine/RegTable.lean ====
section
/-! DEFINITION. The register table of BAR0: every register of R446 (21_address_map.md) as a constructor of `Reg`,
with the fields, access codes and reset values of its own chapter's table.  Generated once from those tables. -/
namespace Sys2Proof.Machine

/-- The access codes of R7 (00_scope.md). -/
inductive Access where
  | RW | RO | WO | W1C | W1S | RWL | RWT
  deriving DecidableEq, Repr

/-- The kinds of block of R446: global, partition, fabric port, logical cluster, Nose mailbox. -/
inductive RegKind where
  | G | P | F | C | N
  deriving DecidableEq, Repr

/-- One field of a register table: its top and bottom bit and its access code. -/
structure RegField where
  hi : Nat
  lo : Nat
  access : Access
  deriving DecidableEq, Repr

/-- One register of the index R446: its kind, the offset of its block (R442, R443), its offset in the block, the
(stride, count) of each index it repeats over, whether it is 64 bits wide (R6), its reset value (R11), its fields. -/
structure RegInfo where
  kind : RegKind
  block : Nat
  off : Nat
  dims : List (Nat × Nat)
  wide : Bool
  reset : Nat
  fields : List RegField
  deriving DecidableEq, Repr

/-- The registers of the device (R446).  MGT_COLLECTOR's words 0 to 3 (an address each) are `MGT_COLLECTOR_ADDR`. -/
inductive Reg where
  | AGE_MONITOR
  | AGE_TRIM
  | AGE_WINDOW
  | ATT_COUNT
  | ATT_DEVICE_ID
  | ATT_EPOCH
  | ATT_KEY
  | BRG_DETAIL
  | BRG_STATUS
  | BRG_STEP
  | BRG_TIME
  | BRG_TOTAL
  | BST_PLAN_CTRL
  | BST_PLAN_STATUS
  | BST_RESULT
  | BST_RESULT_POP
  | BST_STAGGER
  | BST_STATUS
  | BST_WINDOW
  | CRT_OVERRIDE
  | CRT_RATING
  | CRT_SERIAL
  | CRT_STATUS
  | CRT_USE
  | DMA_ERROR
  | DMA_STATUS
  | DMA_TIMEOUT
  | DMA_WINDOW_DENY
  | DRP_COUNT
  | DRP_CTRL
  | DRP_STATUS
  | FAB_ACK_TIMEOUT
  | FAB_BIND_A
  | FAB_BIND_B
  | FAB_CLR_ERROR
  | FAB_ESC_TIMEOUT
  | FAB_ESCAPE
  | FAB_MODULE
  | FAB_PORT_CTRL
  | FAB_PORT_DELAY
  | FAB_PORT_DISCARD
  | FAB_PORT_ESCAPED
  | FAB_PORT_FEC
  | FAB_PORT_LINK_ERR
  | FAB_PORT_NEIGHBOUR
  | FAB_PORT_STATUS
  | FAB_ROUTE_HIGH
  | FAB_ROUTE_INDEX
  | FAB_ROUTE_LOW
  | FAB_ROUTE_VALID
  | FAB_STATUS
  | FAB_TABLE_COMMIT
  | FAB_TABLE_DATA
  | FAB_TABLE_INDEX
  | FNC_PART_STATUS
  | FNC_TIMEOUT
  | FOL_CX_COMMITTED
  | FOL_CX_DRAIN
  | FOL_CX_ERROR
  | FOL_CX_LEFTOVER
  | FOL_CX_NEXT
  | FOL_CX_STALE
  | FOL_CX_STALE_LAST
  | FOL_CX_STATE
  | FOL_DRAIN_LIMIT
  | HNG_COUNT
  | HNG_CTRL
  | HNG_CX_WAIT
  | HNG_LAST
  | IMG_CTRL
  | IMG_CX_DIGEST
  | IMG_CX_STATE
  | IMG_DETAIL
  | IMG_DETAIL_CODE
  | IMG_SRC_ADDR
  | IMG_SRC_LEN
  | IMG_STATUS
  | LCS_CHALLENGE
  | LCS_STATE
  | LIC_DIGEST
  | LIC_STATE
  | MEM_CH_ERR
  | MEM_CH_STATE
  | MEM_ERR_LAST
  | MEM_INJECT
  | MEM_MERGE
  | MEM_POISON
  | MEM_SCRUB
  | MEM_STATUS
  | MEM_SUMMARY
  | MEM_THRESH
  | MEM_TRAIN
  | MEM_WINDOW
  | MGT_COLLECTOR_ADDR
  | MGT_COLLECTOR
  | MGT_CTRL
  | MGT_IPV4
  | MGT_IPV4_ROUTE
  | MGT_IPV6
  | MGT_STATS
  | MSG_COUNT
  | MSG_LAST
  | MSG_RING_CTRL
  | MSG_SENT
  | MSH_AGED
  | MSH_ATTACH
  | MSH_CLR_COMBINE
  | MSH_CLR_ERROR
  | MSH_CLR_HOLD
  | MSH_DETOUR
  | MSH_FENCED
  | MSH_SLOT_LIMIT
  | MSH_STALL
  | MSH_STATUS
  | MXC_ACC_COUNT
  | MXC_AUDIT_COUNT
  | MXC_AUDIT_INJECT
  | MXC_AUDIT_LAST
  | MXC_AUDIT_POLICY
  | MXC_AUDIT_TALLY
  | MXC_COMPLETION
  | MXC_COMPLETION_POP
  | MXC_CONV_COUNT
  | MXC_ERROR
  | MXC_STALL
  | MXC_STATUS
  | NOS_HOST_DROPPED
  | NOS_LIMITS
  | NOS_LOG
  | NOS_SENSOR_INDEX
  | NOS_SENSOR_VALUE
  | NOS_STATUS
  | PCI_ACCESS_ERR
  | PCI_LINK
  | PCI_WINDOW
  | PLC_CLUSTER
  | PLC_DEGRADED
  | PLC_EVENT
  | PLC_EVENT_COUNT
  | PLC_LEDGER
  | PLC_MIGRATE
  | PLC_PART_ROTATE
  | PLC_PART_SPARES
  | PLC_PRIORITY
  | PLC_ROTATE
  | PLC_STATUS
  | PWR_CAP
  | PWR_CX_THROTTLE
  | PWR_MEASURE
  | PWR_ORDER
  | PWR_PART_CTRL
  | PWR_PART_STATUS
  | PWR_REQUEST
  | PWR_SHARE
  | PWR_SLACK
  | PWR_STATE_CTRL
  | PWR_STATUS
  | PWR_THERM
  | RST_CX_CTRL
  | RST_CX_STATUS
  | RST_DIE_CTRL
  | RST_PART_CTRL
  | RST_PART_STATUS
  | RST_PKG_CTRL
  | RST_STATUS
  | SCN_PART
  | SCN_RAW_ADDR
  | SCN_RAW_CTRL
  | SCN_STATUS
  | SEC_CMD_ADDR
  | SEC_CMD_CTRL
  | SEC_CMD_LEN
  | SEC_CMD_STATUS
  | SEC_STATUS
  | SNP_CTRL
  | SNP_FWD
  | SNP_RELEASE
  | SNP_STATUS
  | SNP_TALLY
  | SUB_CX_CQ
  | SUB_CX_CQ_HEAD
  | SUB_CX_LOST
  | SUB_CX_SQ
  | SUB_CX_STATE
  | SUB_ERR_HEAD
  | SUB_ERR_RING
  | SUB_OVERLOAD
  | SUB_POLL
  | TLR_CYCLES
  | TLR_FAULT
  | TLR_IMEM_ECC
  | TLR_STATUS
  | TLY_COUNT
  | TLY_COUNT_LOAD
  | TLY_CX_BUDGET
  | TLY_CX_OVERRUN
  | TLY_CX_POLICY
  | TLY_EDGE_CAPTURE
  | TLY_FWD_MASK
  | TLY_HOLDOVER
  | TLY_IN_DELAY
  | TLY_PERIOD
  | TLY_PHASE
  | TLY_STATUS
  | TLY_SYNC
  | TLY_TIME
  | VEC_CONV_COUNT
  | VEC_RESIDUE
  | VEC_RESIDUE_INJECT
  | VEC_SCALE_COUNT
  | VEC_STATUS
  | VLT_CONFLICT
  | VLT_MERGE
  | VLT_PARITY
  | VLT_PARITY_INJECT
  | VLT_PARITY_LAST
  | VLT_PROTECT
  | VLT_REGION
  deriving DecidableEq, Repr

/-- A register's number, its place in the index; it keys the register file. -/
def Reg.num (r : Reg) : Nat := r.ctorIdx

/-- The table of a register: index R446 and the chapter's own table. -/
def Reg.info : Reg → RegInfo
  | .AGE_MONITOR => ⟨.P, 0x4000, 0x4, [], false, 0, [⟨15, 0, .RO⟩]⟩
  | .AGE_TRIM => ⟨.P, 0x4000, 0x0, [], false, 0, [⟨15, 12, .RO⟩, ⟨8, 8, .RO⟩, ⟨7, 7, .RO⟩, ⟨4, 0, .RO⟩]⟩
  | .AGE_WINDOW => ⟨.G, 0x9000, 0x0, [], false, 0, [⟨31, 0, .RWT⟩]⟩
  | .ATT_COUNT => ⟨.G, 0x6000, 0x28, [], false, 0, [⟨31, 0, .W1C⟩]⟩
  | .ATT_DEVICE_ID => ⟨.G, 0x6000, 0x0, [(4, 8)], false, 0, [⟨31, 0, .RO⟩]⟩
  | .ATT_EPOCH => ⟨.G, 0x6000, 0x24, [], false, 0, [⟨10, 0, .RO⟩]⟩
  | .ATT_KEY => ⟨.G, 0x6000, 0x20, [], false, 0, [⟨30, 20, .RO⟩, ⟨19, 0, .RO⟩]⟩
  | .BRG_DETAIL => ⟨.G, 0x3000, 0x10, [], false, 0, [⟨31, 23, .RO⟩, ⟨22, 14, .RO⟩, ⟨13, 5, .RO⟩]⟩
  | .BRG_STATUS => ⟨.G, 0x3000, 0x4, [], false, 0, [⟨31, 31, .RO⟩, ⟨30, 30, .W1C⟩, ⟨29, 29, .RO⟩, ⟨28, 28, .RO⟩, ⟨27, 24, .RO⟩, ⟨23, 16, .RO⟩, ⟨7, 0, .RO⟩]⟩
  | .BRG_STEP => ⟨.G, 0x3000, 0x0, [], false, 0, [⟨9, 9, .WO⟩, ⟨8, 8, .WO⟩, ⟨3, 0, .WO⟩]⟩
  | .BRG_TIME => ⟨.G, 0x3000, 0x8, [], false, 0, [⟨31, 16, .RO⟩, ⟨15, 0, .RO⟩]⟩
  | .BRG_TOTAL => ⟨.G, 0x3000, 0xC, [], false, 0, [⟨31, 0, .RO⟩]⟩
  | .BST_PLAN_CTRL => ⟨.G, 0xF000, 0xC, [], false, 0, [⟨31, 28, .WO⟩, ⟨27, 19, .WO⟩, ⟨11, 0, .WO⟩]⟩
  | .BST_PLAN_STATUS => ⟨.G, 0xF000, 0x10, [], false, 0, [⟨31, 31, .RO⟩, ⟨30, 30, .W1C⟩, ⟨11, 8, .RO⟩, ⟨7, 0, .RO⟩]⟩
  | .BST_RESULT => ⟨.G, 0xF000, 0x20, [(4, 8)], false, 0, [⟨31, 0, .RO⟩]⟩
  | .BST_RESULT_POP => ⟨.G, 0xF000, 0x40, [], false, 0, [⟨0, 0, .WO⟩]⟩
  | .BST_STAGGER => ⟨.G, 0xF000, 0x4, [], false, 2, [⟨3, 0, .RWT⟩]⟩
  | .BST_STATUS => ⟨.G, 0xF000, 0x8, [], false, 0, [⟨31, 16, .W1C⟩, ⟨15, 8, .W1C⟩, ⟨1, 1, .W1C⟩, ⟨0, 0, .RO⟩]⟩
  | .BST_WINDOW => ⟨.G, 0xF000, 0x0, [], false, 200, [⟨15, 0, .RWT⟩]⟩
  | .CRT_OVERRIDE => ⟨.G, 0x15000, 0x180, [], false, 0, [⟨23, 0, .RW⟩]⟩
  | .CRT_RATING => ⟨.G, 0x15000, 0x8, [(16, 24)], false, 0, [⟨31, 20, .RO⟩, ⟨19, 0, .RO⟩]⟩
  | .CRT_SERIAL => ⟨.G, 0x15000, 0xC, [(16, 24)], false, 0, [⟨31, 0, .RO⟩]⟩
  | .CRT_STATUS => ⟨.G, 0x15000, 0x0, [(16, 24)], false, 0, [⟨31, 16, .RO⟩, ⟨7, 4, .RO⟩, ⟨3, 3, .RO⟩, ⟨2, 2, .RO⟩, ⟨1, 1, .RO⟩, ⟨0, 0, .RO⟩]⟩
  | .CRT_USE => ⟨.G, 0x15000, 0x4, [(16, 24)], false, 0, [⟨31, 20, .RO⟩, ⟨19, 0, .RO⟩]⟩
  | .DMA_ERROR => ⟨.C, 0x1400, 0x4, [], false, 0, [⟨31, 16, .W1C⟩, ⟨7, 0, .RO⟩]⟩
  | .DMA_STATUS => ⟨.C, 0x1400, 0x0, [], false, 0, [⟨15, 8, .RO⟩, ⟨7, 0, .RO⟩]⟩
  | .DMA_TIMEOUT => ⟨.G, 0x13000, 0x40, [], false, 1000, [⟨15, 0, .RW⟩]⟩
  | .DMA_WINDOW_DENY => ⟨.G, 0x13000, 0x0, [(4, 16)], false, 0, [⟨31, 16, .W1C⟩, ⟨15, 8, .RO⟩, ⟨7, 0, .RO⟩]⟩
  | .DRP_COUNT => ⟨.P, 0x3000, 0x4, [], false, 0, [⟨31, 0, .W1C⟩]⟩
  | .DRP_CTRL => ⟨.P, 0x3000, 0x0, [], false, 4210728, [⟨31, 16, .RW⟩, ⟨15, 8, .RW⟩, ⟨7, 0, .RW⟩]⟩
  | .DRP_STATUS => ⟨.P, 0x3000, 0x8, [], false, 0, [⟨19, 16, .RO⟩, ⟨15, 0, .RO⟩]⟩
  | .FAB_ACK_TIMEOUT => ⟨.G, 0x14000, 0x20, [], false, 100, [⟨15, 0, .RW⟩]⟩
  | .FAB_BIND_A => ⟨.F, 0x0, 0x100, [(16, 256)], true, 0, [⟨52, 41, .RWT⟩, ⟨40, 36, .RWT⟩, ⟨35, 20, .RWT⟩, ⟨19, 8, .RWT⟩, ⟨7, 4, .RWT⟩, ⟨2, 2, .RWT⟩, ⟨1, 1, .RWT⟩, ⟨0, 0, .RWT⟩]⟩
  | .FAB_BIND_B => ⟨.F, 0x0, 0x108, [(16, 256)], true, 262144, [⟨63, 48, .RO⟩, ⟨47, 40, .W1C⟩, ⟨32, 18, .RWT⟩, ⟨17, 0, .RWT⟩]⟩
  | .FAB_CLR_ERROR => ⟨.G, 0x14000, 0x24, [], false, 0, [⟨31, 16, .W1C⟩, ⟨15, 0, .W1C⟩]⟩
  | .FAB_ESC_TIMEOUT => ⟨.G, 0x14000, 0x1C, [], false, 200, [⟨15, 0, .RW⟩]⟩
  | .FAB_ESCAPE => ⟨.G, 0x14000, 0x14, [], false, 0, [⟨31, 31, .RW⟩, ⟨20, 16, .RW⟩, ⟨13, 0, .RW⟩]⟩
  | .FAB_MODULE => ⟨.G, 0x14000, 0x0, [], false, 0, [⟨15, 0, .RW⟩]⟩
  | .FAB_PORT_CTRL => ⟨.F, 0x0, 0x0, [], false, 0, [⟨2, 2, .WO⟩, ⟨1, 1, .WO⟩, ⟨0, 0, .RW⟩]⟩
  | .FAB_PORT_DELAY => ⟨.F, 0x0, 0xC, [], false, 0, [⟨15, 0, .RO⟩]⟩
  | .FAB_PORT_DISCARD => ⟨.F, 0x0, 0x18, [], false, 0, [⟨31, 24, .W1C⟩, ⟨23, 16, .W1C⟩, ⟨15, 8, .W1C⟩, ⟨7, 0, .W1C⟩]⟩
  | .FAB_PORT_ESCAPED => ⟨.F, 0x0, 0x1C, [], false, 0, [⟨31, 0, .W1C⟩]⟩
  | .FAB_PORT_FEC => ⟨.F, 0x0, 0x14, [], false, 0, [⟨31, 0, .W1C⟩]⟩
  | .FAB_PORT_LINK_ERR => ⟨.F, 0x0, 0x10, [], false, 0, [⟨31, 24, .W1C⟩, ⟨23, 0, .W1C⟩]⟩
  | .FAB_PORT_NEIGHBOUR => ⟨.F, 0x0, 0x8, [], false, 0, [⟨31, 31, .RO⟩, ⟨20, 16, .RO⟩, ⟨15, 0, .RO⟩]⟩
  | .FAB_PORT_STATUS => ⟨.F, 0x0, 0x4, [], false, 0, [⟨15, 8, .RO⟩, ⟨5, 5, .RO⟩, ⟨4, 4, .RO⟩, ⟨2, 0, .RO⟩]⟩
  | .FAB_ROUTE_HIGH => ⟨.G, 0x14000, 0x10, [], false, 0, [⟨31, 31, .RW⟩, ⟨9, 0, .RW⟩]⟩
  | .FAB_ROUTE_INDEX => ⟨.G, 0x14000, 0x4, [], false, 0, [⟨13, 0, .RW⟩]⟩
  | .FAB_ROUTE_LOW => ⟨.G, 0x14000, 0x8, [], true, 0, [⟨59, 0, .RW⟩]⟩
  | .FAB_ROUTE_VALID => ⟨.G, 0x14000, 0x18, [], false, 0, [⟨0, 0, .RW⟩]⟩
  | .FAB_STATUS => ⟨.G, 0x14000, 0x28, [], false, 0, [⟨23, 0, .RO⟩]⟩
  | .FAB_TABLE_COMMIT => ⟨.F, 0x0, 0x48, [], false, 0, [⟨11, 8, .RO⟩, ⟨2, 2, .W1C⟩, ⟨1, 1, .RO⟩, ⟨0, 0, .RWT⟩]⟩
  | .FAB_TABLE_DATA => ⟨.F, 0x0, 0x44, [], false, 0, [⟨31, 0, .RW⟩]⟩
  | .FAB_TABLE_INDEX => ⟨.F, 0x0, 0x40, [], false, 0, [⟨31, 31, .RW⟩, ⟨11, 0, .RW⟩]⟩
  | .FNC_PART_STATUS => ⟨.P, 0x5000, 0x0, [], false, 0, [⟨31, 16, .W1C⟩, ⟨15, 2, .W1C⟩, ⟨1, 1, .RO⟩, ⟨0, 0, .RO⟩]⟩
  | .FNC_TIMEOUT => ⟨.G, 0xD000, 0x0, [], false, 200, [⟨12, 0, .RW⟩]⟩
  | .FOL_CX_COMMITTED => ⟨.G, 0xA000, 0x8, [(32, 16)], false, 0, [⟨31, 0, .RO⟩]⟩
  | .FOL_CX_DRAIN => ⟨.G, 0xA000, 0xC, [(32, 16)], false, 0, [⟨31, 24, .RO⟩, ⟨15, 0, .W1C⟩]⟩
  | .FOL_CX_ERROR => ⟨.G, 0xA000, 0x1C, [(32, 16)], false, 0, [⟨7, 0, .RO⟩]⟩
  | .FOL_CX_LEFTOVER => ⟨.G, 0xA000, 0x18, [(32, 16)], false, 0, [⟨31, 0, .W1C⟩]⟩
  | .FOL_CX_NEXT => ⟨.G, 0xA000, 0x4, [(32, 16)], false, 0, [⟨31, 31, .RWT⟩, ⟨11, 0, .RWT⟩]⟩
  | .FOL_CX_STALE => ⟨.G, 0xA000, 0x10, [(32, 16)], false, 0, [⟨31, 0, .W1C⟩]⟩
  | .FOL_CX_STALE_LAST => ⟨.G, 0xA000, 0x14, [(32, 16)], false, 0, [⟨21, 20, .RO⟩, ⟨19, 9, .RO⟩, ⟨8, 0, .RO⟩]⟩
  | .FOL_CX_STATE => ⟨.G, 0xA000, 0x0, [(32, 16)], false, 0, [⟨31, 20, .RO⟩, ⟨19, 19, .RO⟩, ⟨18, 16, .RO⟩, ⟨13, 12, .RO⟩, ⟨11, 0, .RO⟩]⟩
  | .FOL_DRAIN_LIMIT => ⟨.G, 0xA000, 0x200, [], false, 4, [⟨7, 0, .RW⟩]⟩
  | .HNG_COUNT => ⟨.G, 0xC000, 0x4, [], false, 0, [⟨31, 24, .W1C⟩, ⟨23, 16, .W1C⟩, ⟨15, 8, .W1C⟩, ⟨7, 0, .W1C⟩]⟩
  | .HNG_CTRL => ⟨.G, 0xC000, 0x0, [], false, 134217988, [⟨31, 24, .RWT⟩, ⟨8, 8, .RWT⟩, ⟨7, 0, .RWT⟩]⟩
  | .HNG_CX_WAIT => ⟨.G, 0xC000, 0x100, [(4, 16)], false, 0, [⟨31, 16, .RO⟩, ⟨7, 0, .RO⟩]⟩
  | .HNG_LAST => ⟨.G, 0xC000, 0x8, [], true, 0, [⟨63, 32, .RO⟩, ⟨31, 28, .RO⟩, ⟨27, 16, .RO⟩, ⟨8, 0, .RO⟩]⟩
  | .IMG_CTRL => ⟨.G, 0x2000, 0xC, [], false, 0, [⟨11, 8, .WO⟩, ⟨2, 0, .WO⟩]⟩
  | .IMG_CX_DIGEST => ⟨.G, 0x2000, 0x200, [(32, 16), (4, 8)], false, 0, [⟨31, 0, .RO⟩]⟩
  | .IMG_CX_STATE => ⟨.G, 0x2000, 0x100, [(4, 16)], false, 0, [⟨24, 16, .RO⟩, ⟨1, 0, .RO⟩]⟩
  | .IMG_DETAIL => ⟨.G, 0x2000, 0x14, [], false, 0, [⟨31, 0, .RO⟩]⟩
  | .IMG_DETAIL_CODE => ⟨.G, 0x2000, 0x18, [], false, 0, [⟨7, 0, .RO⟩]⟩
  | .IMG_SRC_ADDR => ⟨.G, 0x2000, 0x0, [], true, 0, [⟨63, 6, .RW⟩]⟩
  | .IMG_SRC_LEN => ⟨.G, 0x2000, 0x8, [], false, 0, [⟨30, 0, .RW⟩]⟩
  | .IMG_STATUS => ⟨.G, 0x2000, 0x10, [], false, 0, [⟨31, 31, .RO⟩, ⟨30, 30, .W1C⟩, ⟨29, 29, .W1C⟩, ⟨26, 24, .RO⟩, ⟨19, 16, .RO⟩, ⟨7, 0, .RO⟩]⟩
  | .LCS_CHALLENGE => ⟨.G, 0x5000, 0x20, [(4, 8)], false, 0, [⟨31, 0, .RO⟩]⟩
  | .LCS_STATE => ⟨.G, 0x5000, 0x0, [], false, 2, [⟨31, 12, .RO⟩, ⟨3, 3, .RO⟩, ⟨2, 0, .RO⟩]⟩
  | .LIC_DIGEST => ⟨.G, 0x7000, 0x20, [(4, 8)], false, 0, [⟨31, 0, .RO⟩]⟩
  | .LIC_STATE => ⟨.G, 0x7000, 0x0, [], false, 2, [⟨31, 16, .RO⟩, ⟨3, 3, .RO⟩, ⟨2, 2, .RO⟩, ⟨1, 0, .RO⟩]⟩
  | .MEM_CH_ERR => ⟨.P, 0x2000, 0x180, [(4, 32)], false, 0, [⟨31, 24, .W1C⟩, ⟨23, 0, .W1C⟩]⟩
  | .MEM_CH_STATE => ⟨.P, 0x2000, 0x100, [(4, 32)], false, 3221225472, [⟨31, 30, .RO⟩, ⟨29, 29, .RO⟩, ⟨28, 24, .RO⟩, ⟨23, 16, .RO⟩, ⟨14, 0, .RO⟩]⟩
  | .MEM_ERR_LAST => ⟨.P, 0x2000, 0x20, [], true, 0, [⟨63, 32, .RO⟩, ⟨31, 28, .RO⟩, ⟨27, 24, .RO⟩, ⟨20, 16, .RO⟩, ⟨4, 0, .RO⟩]⟩
  | .MEM_INJECT => ⟨.P, 0x2000, 0x28, [], false, 0, [⟨12, 8, .RW⟩, ⟨1, 1, .W1S⟩, ⟨0, 0, .W1S⟩]⟩
  | .MEM_MERGE => ⟨.P, 0x2000, 0x10, [], false, 0, [⟨31, 0, .W1C⟩]⟩
  | .MEM_POISON => ⟨.P, 0x2000, 0x14, [], false, 0, [⟨31, 24, .W1C⟩, ⟨23, 12, .W1C⟩, ⟨11, 0, .W1C⟩]⟩
  | .MEM_SCRUB => ⟨.P, 0x2000, 0xC, [], false, 2147483672, [⟨31, 31, .RW⟩, ⟨15, 0, .RW⟩]⟩
  | .MEM_STATUS => ⟨.P, 0x2000, 0x0, [], false, 0, [⟨23, 16, .RO⟩, ⟨15, 8, .RO⟩, ⟨3, 2, .RO⟩, ⟨1, 1, .RO⟩, ⟨0, 0, .RO⟩]⟩
  | .MEM_SUMMARY => ⟨.G, 0x11000, 0x0, [], false, 0, [⟨24, 24, .RO⟩, ⟨17, 9, .RO⟩, ⟨8, 0, .RO⟩]⟩
  | .MEM_THRESH => ⟨.P, 0x2000, 0x4, [], false, 33555456, [⟨31, 24, .RW⟩, ⟨15, 0, .RW⟩]⟩
  | .MEM_TRAIN => ⟨.P, 0x2000, 0x18, [], false, 0, [⟨31, 24, .RO⟩, ⟨23, 16, .RO⟩, ⟨0, 0, .RO⟩]⟩
  | .MEM_WINDOW => ⟨.P, 0x2000, 0x8, [], false, 36000000, [⟨31, 0, .RW⟩]⟩
  | .MGT_COLLECTOR_ADDR => ⟨.N, 0x0, 0x140, [(32, 2), (4, 4)], false, 0, [⟨31, 0, .RW⟩]⟩
  | .MGT_COLLECTOR => ⟨.N, 0x0, 0x150, [(32, 2)], false, 0, [⟨1, 1, .RW⟩, ⟨0, 0, .RW⟩]⟩
  | .MGT_CTRL => ⟨.N, 0x0, 0x100, [], false, 489030913, [⟨31, 16, .RW⟩, ⟨15, 8, .RW⟩, ⟨2, 2, .RW⟩, ⟨1, 1, .RO⟩, ⟨0, 0, .RW⟩]⟩
  | .MGT_IPV4 => ⟨.N, 0x0, 0x104, [], false, 0, [⟨31, 0, .RW⟩]⟩
  | .MGT_IPV4_ROUTE => ⟨.N, 0x0, 0x108, [], true, 0, [⟨63, 32, .RW⟩, ⟨5, 0, .RW⟩]⟩
  | .MGT_IPV6 => ⟨.N, 0x0, 0x110, [(4, 4)], false, 0, [⟨31, 0, .RW⟩]⟩
  | .MGT_STATS => ⟨.N, 0x0, 0x180, [], false, 0, [⟨31, 16, .W1C⟩, ⟨15, 0, .W1C⟩]⟩
  | .MSG_COUNT => ⟨.C, 0x1000, 0x4, [], false, 0, [⟨31, 24, .W1C⟩, ⟨23, 16, .W1C⟩, ⟨15, 8, .W1C⟩, ⟨7, 4, .W1C⟩, ⟨3, 0, .W1C⟩]⟩
  | .MSG_LAST => ⟨.C, 0x1000, 0x8, [], false, 0, [⟨31, 16, .RO⟩, ⟨15, 8, .RO⟩, ⟨7, 0, .RO⟩]⟩
  | .MSG_RING_CTRL => ⟨.G, 0x12000, 0x0, [], false, 0, [⟨27, 24, .WO⟩, ⟨23, 12, .WO⟩, ⟨1, 0, .WO⟩]⟩
  | .MSG_SENT => ⟨.C, 0x1000, 0x0, [], false, 0, [⟨31, 0, .W1C⟩]⟩
  | .MSH_AGED => ⟨.P, 0x1000, 0x20, [], false, 0, [⟨31, 0, .W1C⟩]⟩
  | .MSH_ATTACH => ⟨.P, 0x1000, 0x0, [], false, 0, [⟨8, 8, .RO⟩, ⟨0, 0, .RW⟩]⟩
  | .MSH_CLR_COMBINE => ⟨.P, 0x1000, 0x14, [], false, 0, [⟨31, 0, .W1C⟩]⟩
  | .MSH_CLR_ERROR => ⟨.P, 0x1000, 0x10, [], false, 0, [⟨31, 24, .W1C⟩, ⟨23, 16, .W1C⟩, ⟨15, 8, .W1C⟩, ⟨7, 0, .W1C⟩]⟩
  | .MSH_CLR_HOLD => ⟨.P, 0x1000, 0x8, [], false, 32, [⟨7, 0, .RWT⟩]⟩
  | .MSH_DETOUR => ⟨.P, 0x1000, 0x1C, [], false, 0, [⟨31, 0, .W1C⟩]⟩
  | .MSH_FENCED => ⟨.P, 0x1000, 0x18, [], false, 0, [⟨31, 16, .W1C⟩, ⟨15, 0, .W1C⟩]⟩
  | .MSH_SLOT_LIMIT => ⟨.P, 0x1000, 0x4, [], false, 48, [⟨6, 0, .RWT⟩]⟩
  | .MSH_STALL => ⟨.P, 0x1000, 0x24, [], false, 0, [⟨31, 0, .W1C⟩]⟩
  | .MSH_STATUS => ⟨.P, 0x1000, 0xC, [], false, 0, [⟨11, 8, .RO⟩, ⟨1, 1, .RO⟩, ⟨0, 0, .W1C⟩]⟩
  | .MXC_ACC_COUNT => ⟨.C, 0x0, 0x14, [], false, 0, [⟨31, 24, .W1C⟩, ⟨23, 16, .W1C⟩, ⟨15, 8, .W1C⟩, ⟨7, 0, .W1C⟩]⟩
  | .MXC_AUDIT_COUNT => ⟨.C, 0x0, 0x20, [], false, 0, [⟨31, 28, .RO⟩, ⟨27, 24, .W1C⟩, ⟨23, 0, .W1C⟩]⟩
  | .MXC_AUDIT_INJECT => ⟨.C, 0x0, 0x30, [], false, 0, [⟨0, 0, .W1S⟩]⟩
  | .MXC_AUDIT_LAST => ⟨.C, 0x0, 0x24, [], false, 0, [⟨31, 30, .RO⟩, ⟨29, 28, .RO⟩, ⟨27, 22, .RO⟩, ⟨21, 16, .RO⟩, ⟨15, 8, .RO⟩, ⟨7, 0, .RO⟩]⟩
  | .MXC_AUDIT_POLICY => ⟨.P, 0x0, 0x0, [], false, 25600003, [⟨31, 8, .RW⟩, ⟨3, 0, .RW⟩]⟩
  | .MXC_AUDIT_TALLY => ⟨.C, 0x0, 0x28, [], false, 0, [⟨31, 0, .RO⟩]⟩
  | .MXC_COMPLETION => ⟨.C, 0x0, 0x4, [], false, 0, [⟨31, 0, .RO⟩]⟩
  | .MXC_COMPLETION_POP => ⟨.C, 0x0, 0x8, [], false, 0, [⟨0, 0, .WO⟩]⟩
  | .MXC_CONV_COUNT => ⟨.C, 0x0, 0x10, [], false, 0, [⟨31, 16, .W1C⟩, ⟨15, 0, .W1C⟩]⟩
  | .MXC_ERROR => ⟨.C, 0x0, 0xC, [], false, 0, [⟨31, 16, .W1C⟩, ⟨7, 0, .RO⟩]⟩
  | .MXC_STALL => ⟨.C, 0x0, 0x34, [], false, 0, [⟨31, 0, .W1C⟩]⟩
  | .MXC_STATUS => ⟨.C, 0x0, 0x0, [], false, 1048576, [⟨20, 16, .RO⟩, ⟨12, 12, .RO⟩, ⟨9, 5, .RO⟩, ⟨4, 0, .RO⟩]⟩
  | .NOS_HOST_DROPPED => ⟨.N, 0x0, 0x14, [], false, 0, [⟨31, 0, .W1C⟩]⟩
  | .NOS_LIMITS => ⟨.N, 0x0, 0xC, [], false, 2949420, [⟨23, 16, .RW⟩, ⟨15, 0, .RW⟩]⟩
  | .NOS_LOG => ⟨.N, 0x0, 0x10, [], false, 0, [⟨31, 0, .RO⟩]⟩
  | .NOS_SENSOR_INDEX => ⟨.N, 0x0, 0x4, [], false, 0, [⟨9, 0, .RW⟩]⟩
  | .NOS_SENSOR_VALUE => ⟨.N, 0x0, 0x8, [], false, 0, [⟨31, 0, .RO⟩]⟩
  | .NOS_STATUS => ⟨.N, 0x0, 0x0, [], false, 0, [⟨31, 16, .W1C⟩, ⟨1, 1, .RO⟩, ⟨0, 0, .RO⟩]⟩
  | .PCI_ACCESS_ERR => ⟨.G, 0x17000, 0x4, [], false, 0, [⟨31, 20, .W1C⟩, ⟨19, 8, .W1C⟩, ⟨7, 0, .W1C⟩]⟩
  | .PCI_LINK => ⟨.G, 0x17000, 0x0, [], false, 0, [⟨11, 11, .RO⟩, ⟨10, 6, .RO⟩, ⟨5, 3, .RO⟩, ⟨2, 1, .RO⟩, ⟨0, 0, .RO⟩]⟩
  | .PCI_WINDOW => ⟨.G, 0x17000, 0x100, [(8, 16)], true, 0, [⟨39, 26, .RW⟩, ⟨0, 0, .RW⟩]⟩
  | .PLC_CLUSTER => ⟨.G, 0xB000, 0x400, [(4, 288)], false, 2147483648, [⟨31, 31, .RO⟩, ⟨30, 30, .RO⟩, ⟨29, 29, .RO⟩, ⟨28, 28, .RO⟩, ⟨23, 20, .RO⟩, ⟨8, 0, .RO⟩]⟩
  | .PLC_DEGRADED => ⟨.G, 0xB000, 0x1C, [], false, 0, [⟨15, 0, .RO⟩]⟩
  | .PLC_EVENT => ⟨.G, 0xB000, 0x8, [], true, 0, [⟨63, 32, .RO⟩, ⟨31, 28, .RO⟩, ⟨27, 24, .RO⟩, ⟨23, 15, .RO⟩, ⟨14, 11, .RO⟩]⟩
  | .PLC_EVENT_COUNT => ⟨.G, 0xB000, 0x10, [], false, 0, [⟨31, 0, .W1C⟩]⟩
  | .PLC_LEDGER => ⟨.G, 0xB000, 0x20, [], false, 0, [⟨31, 16, .RO⟩, ⟨2, 2, .RO⟩, ⟨1, 1, .RO⟩, ⟨0, 0, .W1C⟩]⟩
  | .PLC_MIGRATE => ⟨.G, 0xB000, 0x18, [], false, 4, [⟨23, 8, .RO⟩, ⟨7, 0, .RW⟩]⟩
  | .PLC_PART_ROTATE => ⟨.G, 0xB000, 0x104, [(32, 12)], false, 0, [⟨31, 16, .W1C⟩, ⟨12, 8, .RO⟩, ⟨4, 0, .RO⟩]⟩
  | .PLC_PART_SPARES => ⟨.G, 0xB000, 0x100, [(32, 12)], false, 0, [⟨30, 26, .RO⟩, ⟨25, 21, .RO⟩, ⟨20, 16, .RO⟩, ⟨15, 11, .RO⟩, ⟨10, 10, .RO⟩, ⟨9, 5, .RO⟩, ⟨4, 0, .RO⟩]⟩
  | .PLC_PRIORITY => ⟨.G, 0xB000, 0x4, [], false, 0, [⟨3, 0, .RO⟩]⟩
  | .PLC_ROTATE => ⟨.G, 0xB000, 0x14, [], false, 2147483776, [⟨31, 31, .RW⟩, ⟨15, 0, .RW⟩]⟩
  | .PLC_STATUS => ⟨.G, 0xB000, 0x0, [], false, 61440, [⟨31, 20, .RO⟩, ⟨19, 16, .RO⟩, ⟨15, 12, .RO⟩, ⟨7, 0, .RO⟩]⟩
  | .PWR_CAP => ⟨.G, 0x8000, 0x0, [], false, 2400, [⟨11, 0, .RWT⟩]⟩
  | .PWR_CX_THROTTLE => ⟨.G, 0x8000, 0x200, [(4, 16)], false, 4096, [⟨12, 8, .RO⟩, ⟨3, 0, .RO⟩]⟩
  | .PWR_MEASURE => ⟨.G, 0x8000, 0x10, [], true, 0, [⟨63, 48, .RO⟩, ⟨47, 32, .RO⟩, ⟨31, 16, .RO⟩, ⟨15, 0, .RO⟩]⟩
  | .PWR_ORDER => ⟨.G, 0x8000, 0x4, [], false, 6, [⟨5, 4, .RWT⟩, ⟨3, 2, .RWT⟩, ⟨1, 0, .RWT⟩]⟩
  | .PWR_PART_CTRL => ⟨.G, 0x8000, 0x100, [(16, 12)], false, 15, [⟨3, 0, .RWT⟩]⟩
  | .PWR_PART_STATUS => ⟨.G, 0x8000, 0x104, [(16, 12)], false, 267386880, [⟨31, 29, .RO⟩, ⟨28, 28, .RO⟩, ⟨27, 24, .RO⟩, ⟨23, 20, .RO⟩, ⟨19, 18, .RO⟩, ⟨17, 17, .W1C⟩, ⟨16, 16, .RO⟩, ⟨15, 0, .RO⟩]⟩
  | .PWR_REQUEST => ⟨.G, 0x8000, 0x28, [], false, 0, [⟨31, 16, .RO⟩, ⟨15, 8, .RO⟩, ⟨2, 0, .RO⟩]⟩
  | .PWR_SHARE => ⟨.G, 0x8000, 0x18, [], true, 0, [⟨63, 48, .RO⟩, ⟨47, 32, .RO⟩, ⟨31, 16, .RO⟩]⟩
  | .PWR_SLACK => ⟨.G, 0x8000, 0x20, [], false, 0, [⟨31, 31, .RO⟩, ⟨30, 0, .RO⟩]⟩
  | .PWR_STATE_CTRL => ⟨.G, 0x8000, 0x8, [], false, 0, [⟨27, 16, .RWT⟩, ⟨2, 0, .RWT⟩]⟩
  | .PWR_STATUS => ⟨.G, 0x8000, 0xC, [], false, 0, [⟨31, 16, .W1C⟩, ⟨11, 10, .RO⟩, ⟨9, 9, .RO⟩, ⟨8, 8, .RO⟩, ⟨3, 3, .RO⟩, ⟨2, 2, .W1C⟩, ⟨1, 1, .W1C⟩, ⟨0, 0, .RO⟩]⟩
  | .PWR_THERM => ⟨.G, 0x8000, 0x24, [], false, 7563615, [⟨23, 16, .RO⟩, ⟨15, 8, .RO⟩, ⟨7, 0, .RW⟩]⟩
  | .RST_CX_CTRL => ⟨.G, 0xE000, 0x200, [], false, 0, [⟨15, 0, .RWT⟩]⟩
  | .RST_CX_STATUS => ⟨.G, 0xE000, 0x204, [(4, 16)], false, 0, [⟨3, 3, .RO⟩, ⟨2, 2, .RO⟩, ⟨1, 1, .RO⟩, ⟨0, 0, .RO⟩]⟩
  | .RST_DIE_CTRL => ⟨.G, 0xE000, 0x4, [], false, 0, [⟨31, 16, .WO⟩, ⟨1, 0, .WO⟩]⟩
  | .RST_PART_CTRL => ⟨.G, 0xE000, 0x0, [], false, 4096, [⟨12, 12, .RWT⟩, ⟨11, 0, .RWT⟩]⟩
  | .RST_PART_STATUS => ⟨.G, 0xE000, 0x100, [(4, 12)], false, 0, [⟨31, 16, .RO⟩, ⟨15, 8, .W1C⟩, ⟨7, 6, .RO⟩, ⟨3, 0, .RO⟩]⟩
  | .RST_PKG_CTRL => ⟨.G, 0xE000, 0x8, [], false, 0, [⟨31, 16, .WO⟩]⟩
  | .RST_STATUS => ⟨.G, 0xE000, 0xC, [], false, 0, [⟨31, 16, .W1C⟩, ⟨3, 2, .RO⟩, ⟨1, 1, .W1C⟩, ⟨0, 0, .RO⟩]⟩
  | .SCN_PART => ⟨.G, 0x10000, 0x100, [(4, 12)], false, 0, [⟨31, 24, .W1C⟩, ⟨23, 16, .W1C⟩, ⟨15, 15, .RO⟩, ⟨14, 0, .RO⟩]⟩
  | .SCN_RAW_ADDR => ⟨.G, 0x10000, 0x208, [], true, 0, [⟨63, 6, .RWL⟩]⟩
  | .SCN_RAW_CTRL => ⟨.G, 0x10000, 0x200, [], false, 0, [⟨31, 30, .RWL⟩, ⟨29, 25, .RWL⟩, ⟨24, 11, .RWL⟩, ⟨8, 0, .RWL⟩]⟩
  | .SCN_STATUS => ⟨.G, 0x10000, 0x0, [], false, 0, [⟨31, 16, .W1C⟩, ⟨1, 1, .RO⟩, ⟨0, 0, .RO⟩]⟩
  | .SEC_CMD_ADDR => ⟨.G, 0x4000, 0x8, [], true, 0, [⟨63, 6, .RW⟩]⟩
  | .SEC_CMD_CTRL => ⟨.G, 0x4000, 0x14, [], false, 0, [⟨0, 0, .WO⟩]⟩
  | .SEC_CMD_LEN => ⟨.G, 0x4000, 0x10, [], false, 0, [⟨31, 0, .RW⟩]⟩
  | .SEC_CMD_STATUS => ⟨.G, 0x4000, 0x18, [], false, 0, [⟨31, 31, .RO⟩, ⟨30, 30, .W1C⟩, ⟨19, 16, .RO⟩, ⟨7, 0, .RO⟩]⟩
  | .SEC_STATUS => ⟨.G, 0x4000, 0x0, [], false, 0, [⟨31, 16, .W1C⟩, ⟨15, 8, .RO⟩, ⟨7, 7, .RO⟩, ⟨6, 6, .RO⟩, ⟨5, 5, .W1C⟩, ⟨4, 4, .RO⟩, ⟨3, 3, .RO⟩, ⟨2, 2, .RO⟩, ⟨1, 1, .W1C⟩, ⟨0, 0, .RO⟩]⟩
  | .SNP_CTRL => ⟨.G, 0x16000, 0x0, [], false, 8, [⟨31, 31, .WO⟩, ⟨3, 2, .RW⟩, ⟨1, 1, .RW⟩, ⟨0, 0, .RW⟩]⟩
  | .SNP_FWD => ⟨.G, 0x16000, 0x10, [], false, 536870912, [⟨31, 28, .RW⟩, ⟨23, 0, .RW⟩]⟩
  | .SNP_RELEASE => ⟨.G, 0x16000, 0x18, [], false, 0, [⟨0, 0, .WO⟩]⟩
  | .SNP_STATUS => ⟨.G, 0x16000, 0x14, [], false, 0, [⟨31, 16, .W1C⟩, ⟨7, 7, .RO⟩, ⟨6, 6, .RO⟩, ⟨4, 0, .RO⟩]⟩
  | .SNP_TALLY => ⟨.G, 0x16000, 0x8, [], true, 0, [⟨63, 0, .RW⟩]⟩
  | .SUB_CX_CQ => ⟨.G, 0x1000, 0x108, [(64, 16)], true, 0, [⟨63, 6, .RWT⟩, ⟨5, 2, .RWT⟩, ⟨1, 1, .RWT⟩, ⟨0, 0, .RWT⟩]⟩
  | .SUB_CX_CQ_HEAD => ⟨.G, 0x1000, 0x110, [(64, 16)], false, 0, [⟨16, 16, .RW⟩, ⟨15, 0, .RW⟩]⟩
  | .SUB_CX_LOST => ⟨.G, 0x1000, 0x118, [(64, 16)], false, 0, [⟨23, 16, .RO⟩, ⟨15, 0, .W1C⟩]⟩
  | .SUB_CX_SQ => ⟨.G, 0x1000, 0x100, [(64, 16)], true, 0, [⟨63, 6, .RWT⟩, ⟨5, 2, .RWT⟩, ⟨1, 1, .RWT⟩, ⟨0, 0, .RWT⟩]⟩
  | .SUB_CX_STATE => ⟨.G, 0x1000, 0x114, [(64, 16)], false, 0, [⟨31, 16, .RO⟩, ⟨15, 0, .RO⟩]⟩
  | .SUB_ERR_HEAD => ⟨.G, 0x1000, 0x10, [], false, 0, [⟨31, 16, .RO⟩, ⟨15, 0, .RW⟩]⟩
  | .SUB_ERR_RING => ⟨.G, 0x1000, 0x8, [], true, 0, [⟨63, 6, .RWT⟩, ⟨5, 2, .RWT⟩, ⟨1, 1, .RWT⟩, ⟨0, 0, .RWT⟩]⟩
  | .SUB_OVERLOAD => ⟨.G, 0x1000, 0x4, [], false, 0, [⟨15, 0, .W1C⟩]⟩
  | .SUB_POLL => ⟨.G, 0x1000, 0x0, [], false, 16802848, [⟨31, 24, .RWT⟩, ⟨23, 8, .RWT⟩, ⟨7, 0, .RWT⟩]⟩
  | .TLR_CYCLES => ⟨.C, 0x400, 0xC, [], false, 0, [⟨31, 0, .RO⟩]⟩
  | .TLR_FAULT => ⟨.C, 0x400, 0x4, [], false, 0, [⟨31, 24, .RO⟩, ⟨23, 22, .RO⟩, ⟨13, 0, .RO⟩]⟩
  | .TLR_IMEM_ECC => ⟨.C, 0x400, 0x8, [], false, 0, [⟨31, 16, .W1C⟩, ⟨15, 0, .W1C⟩]⟩
  | .TLR_STATUS => ⟨.C, 0x400, 0x0, [], false, 0, [⟨18, 16, .RO⟩, ⟨13, 0, .RO⟩]⟩
  | .TLY_COUNT => ⟨.G, 0x0, 0x8, [], true, 0, [⟨63, 0, .RO⟩]⟩
  | .TLY_COUNT_LOAD => ⟨.G, 0x0, 0x10, [], true, 0, [⟨63, 0, .RWT⟩]⟩
  | .TLY_CX_BUDGET => ⟨.G, 0x0, 0x180, [(4, 16)], false, 0, [⟨31, 0, .RO⟩]⟩
  | .TLY_CX_OVERRUN => ⟨.G, 0x0, 0x140, [(4, 16)], false, 0, [⟨31, 16, .W1C⟩, ⟨15, 0, .W1C⟩]⟩
  | .TLY_CX_POLICY => ⟨.G, 0x0, 0x100, [(4, 16)], false, 64, [⟨11, 4, .RWT⟩, ⟨0, 0, .RWT⟩]⟩
  | .TLY_EDGE_CAPTURE => ⟨.G, 0x0, 0x18, [], true, 0, [⟨63, 0, .RO⟩]⟩
  | .TLY_FWD_MASK => ⟨.G, 0x0, 0x3C, [], false, 0, [⟨23, 0, .RWT⟩]⟩
  | .TLY_HOLDOVER => ⟨.G, 0x0, 0x38, [], false, 8, [⟨7, 0, .RW⟩]⟩
  | .TLY_IN_DELAY => ⟨.G, 0x0, 0x2C, [], false, 0, [⟨15, 0, .RW⟩]⟩
  | .TLY_PERIOD => ⟨.G, 0x0, 0x0, [], false, 10000, [⟨18, 0, .RWT⟩]⟩
  | .TLY_PHASE => ⟨.G, 0x0, 0x34, [], false, 0, [⟨31, 0, .RO⟩]⟩
  | .TLY_STATUS => ⟨.G, 0x0, 0x30, [], false, 0, [⟨3, 3, .W1C⟩, ⟨2, 2, .W1C⟩, ⟨1, 1, .RO⟩, ⟨0, 0, .RO⟩]⟩
  | .TLY_SYNC => ⟨.G, 0x0, 0x28, [], false, 0, [⟨12, 12, .RWT⟩, ⟨8, 4, .RWT⟩, ⟨1, 0, .RWT⟩]⟩
  | .TLY_TIME => ⟨.G, 0x0, 0x20, [], true, 0, [⟨63, 0, .RO⟩]⟩
  | .VEC_CONV_COUNT => ⟨.C, 0x800, 0x4, [(64, 2)], false, 0, [⟨31, 16, .W1C⟩, ⟨15, 0, .W1C⟩]⟩
  | .VEC_RESIDUE => ⟨.C, 0x800, 0xC, [(64, 2)], false, 0, [⟨27, 24, .W1C⟩, ⟨23, 0, .W1C⟩]⟩
  | .VEC_RESIDUE_INJECT => ⟨.C, 0x800, 0x10, [(64, 2)], false, 0, [⟨0, 0, .W1S⟩]⟩
  | .VEC_SCALE_COUNT => ⟨.C, 0x800, 0x8, [(64, 2)], false, 0, [⟨31, 16, .W1C⟩, ⟨15, 0, .W1C⟩]⟩
  | .VEC_STATUS => ⟨.C, 0x800, 0x0, [(64, 2)], false, 0, [⟨18, 16, .RO⟩, ⟨12, 0, .RO⟩]⟩
  | .VLT_CONFLICT => ⟨.C, 0xC00, 0x18, [], false, 0, [⟨31, 0, .W1C⟩]⟩
  | .VLT_MERGE => ⟨.C, 0xC00, 0x14, [], false, 0, [⟨31, 0, .W1C⟩]⟩
  | .VLT_PARITY => ⟨.C, 0xC00, 0x0, [], false, 0, [⟨31, 28, .W1C⟩, ⟨27, 24, .W1C⟩, ⟨23, 0, .W1C⟩]⟩
  | .VLT_PARITY_INJECT => ⟨.C, 0xC00, 0x1C, [], false, 0, [⟨0, 0, .W1S⟩]⟩
  | .VLT_PARITY_LAST => ⟨.C, 0xC00, 0x8, [], true, 0, [⟨63, 32, .RO⟩, ⟨31, 28, .RO⟩, ⟨27, 24, .RO⟩, ⟨23, 0, .RO⟩]⟩
  | .VLT_PROTECT => ⟨.C, 0xC00, 0x10, [], false, 0, [⟨31, 24, .W1C⟩, ⟨23, 0, .RO⟩]⟩
  | .VLT_REGION => ⟨.C, 0xC00, 0x100, [(4, 16)], false, 0, [⟨27, 27, .RO⟩, ⟨26, 24, .RO⟩, ⟨23, 12, .RO⟩, ⟨11, 0, .RO⟩]⟩

def Reg.list0 : List Reg := [.AGE_MONITOR, .AGE_TRIM, .AGE_WINDOW, .ATT_COUNT, .ATT_DEVICE_ID, .ATT_EPOCH, .ATT_KEY, .BRG_DETAIL, .BRG_STATUS, .BRG_STEP, .BRG_TIME, .BRG_TOTAL, .BST_PLAN_CTRL, .BST_PLAN_STATUS, .BST_RESULT, .BST_RESULT_POP, .BST_STAGGER, .BST_STATUS, .BST_WINDOW, .CRT_OVERRIDE, .CRT_RATING, .CRT_SERIAL, .CRT_STATUS, .CRT_USE, .DMA_ERROR, .DMA_STATUS, .DMA_TIMEOUT, .DMA_WINDOW_DENY, .DRP_COUNT, .DRP_CTRL, .DRP_STATUS, .FAB_ACK_TIMEOUT, .FAB_BIND_A, .FAB_BIND_B, .FAB_CLR_ERROR, .FAB_ESC_TIMEOUT, .FAB_ESCAPE, .FAB_MODULE, .FAB_PORT_CTRL, .FAB_PORT_DELAY]
def Reg.list1 : List Reg := [.FAB_PORT_DISCARD, .FAB_PORT_ESCAPED, .FAB_PORT_FEC, .FAB_PORT_LINK_ERR, .FAB_PORT_NEIGHBOUR, .FAB_PORT_STATUS, .FAB_ROUTE_HIGH, .FAB_ROUTE_INDEX, .FAB_ROUTE_LOW, .FAB_ROUTE_VALID, .FAB_STATUS, .FAB_TABLE_COMMIT, .FAB_TABLE_DATA, .FAB_TABLE_INDEX, .FNC_PART_STATUS, .FNC_TIMEOUT, .FOL_CX_COMMITTED, .FOL_CX_DRAIN, .FOL_CX_ERROR, .FOL_CX_LEFTOVER, .FOL_CX_NEXT, .FOL_CX_STALE, .FOL_CX_STALE_LAST, .FOL_CX_STATE, .FOL_DRAIN_LIMIT, .HNG_COUNT, .HNG_CTRL, .HNG_CX_WAIT, .HNG_LAST, .IMG_CTRL, .IMG_CX_DIGEST, .IMG_CX_STATE, .IMG_DETAIL, .IMG_DETAIL_CODE, .IMG_SRC_ADDR, .IMG_SRC_LEN, .IMG_STATUS, .LCS_CHALLENGE, .LCS_STATE, .LIC_DIGEST]
def Reg.list2 : List Reg := [.LIC_STATE, .MEM_CH_ERR, .MEM_CH_STATE, .MEM_ERR_LAST, .MEM_INJECT, .MEM_MERGE, .MEM_POISON, .MEM_SCRUB, .MEM_STATUS, .MEM_SUMMARY, .MEM_THRESH, .MEM_TRAIN, .MEM_WINDOW, .MGT_COLLECTOR_ADDR, .MGT_COLLECTOR, .MGT_CTRL, .MGT_IPV4, .MGT_IPV4_ROUTE, .MGT_IPV6, .MGT_STATS, .MSG_COUNT, .MSG_LAST, .MSG_RING_CTRL, .MSG_SENT, .MSH_AGED, .MSH_ATTACH, .MSH_CLR_COMBINE, .MSH_CLR_ERROR, .MSH_CLR_HOLD, .MSH_DETOUR, .MSH_FENCED, .MSH_SLOT_LIMIT, .MSH_STALL, .MSH_STATUS, .MXC_ACC_COUNT, .MXC_AUDIT_COUNT, .MXC_AUDIT_INJECT, .MXC_AUDIT_LAST, .MXC_AUDIT_POLICY, .MXC_AUDIT_TALLY]
def Reg.list3 : List Reg := [.MXC_COMPLETION, .MXC_COMPLETION_POP, .MXC_CONV_COUNT, .MXC_ERROR, .MXC_STALL, .MXC_STATUS, .NOS_HOST_DROPPED, .NOS_LIMITS, .NOS_LOG, .NOS_SENSOR_INDEX, .NOS_SENSOR_VALUE, .NOS_STATUS, .PCI_ACCESS_ERR, .PCI_LINK, .PCI_WINDOW, .PLC_CLUSTER, .PLC_DEGRADED, .PLC_EVENT, .PLC_EVENT_COUNT, .PLC_LEDGER, .PLC_MIGRATE, .PLC_PART_ROTATE, .PLC_PART_SPARES, .PLC_PRIORITY, .PLC_ROTATE, .PLC_STATUS, .PWR_CAP, .PWR_CX_THROTTLE, .PWR_MEASURE, .PWR_ORDER, .PWR_PART_CTRL, .PWR_PART_STATUS, .PWR_REQUEST, .PWR_SHARE, .PWR_SLACK, .PWR_STATE_CTRL, .PWR_STATUS, .PWR_THERM, .RST_CX_CTRL, .RST_CX_STATUS]
def Reg.list4 : List Reg := [.RST_DIE_CTRL, .RST_PART_CTRL, .RST_PART_STATUS, .RST_PKG_CTRL, .RST_STATUS, .SCN_PART, .SCN_RAW_ADDR, .SCN_RAW_CTRL, .SCN_STATUS, .SEC_CMD_ADDR, .SEC_CMD_CTRL, .SEC_CMD_LEN, .SEC_CMD_STATUS, .SEC_STATUS, .SNP_CTRL, .SNP_FWD, .SNP_RELEASE, .SNP_STATUS, .SNP_TALLY, .SUB_CX_CQ, .SUB_CX_CQ_HEAD, .SUB_CX_LOST, .SUB_CX_SQ, .SUB_CX_STATE, .SUB_ERR_HEAD, .SUB_ERR_RING, .SUB_OVERLOAD, .SUB_POLL, .TLR_CYCLES, .TLR_FAULT, .TLR_IMEM_ECC, .TLR_STATUS, .TLY_COUNT, .TLY_COUNT_LOAD, .TLY_CX_BUDGET, .TLY_CX_OVERRUN, .TLY_CX_POLICY, .TLY_EDGE_CAPTURE, .TLY_FWD_MASK, .TLY_HOLDOVER]
def Reg.list5 : List Reg := [.TLY_IN_DELAY, .TLY_PERIOD, .TLY_PHASE, .TLY_STATUS, .TLY_SYNC, .TLY_TIME, .VEC_CONV_COUNT, .VEC_RESIDUE, .VEC_RESIDUE_INJECT, .VEC_SCALE_COUNT, .VEC_STATUS, .VLT_CONFLICT, .VLT_MERGE, .VLT_PARITY, .VLT_PARITY_INJECT, .VLT_PARITY_LAST, .VLT_PROTECT, .VLT_REGION]
/-- Every register of the device, in the order of R446. -/
def Reg.all : List Reg := Reg.list0 ++ Reg.list1 ++ Reg.list2 ++ Reg.list3 ++ Reg.list4 ++ Reg.list5

/-- A field by name: its register and its bits. -/
structure Fld where
  reg : Reg
  hi : Nat
  lo : Nat
  deriving DecidableEq, Repr

abbrev AGE_MONITOR.SLACK : Fld := ⟨.AGE_MONITOR, 15, 0⟩
abbrev AGE_TRIM.FMAX_LOSS : Fld := ⟨.AGE_TRIM, 15, 12⟩
abbrev AGE_TRIM.LIMIT : Fld := ⟨.AGE_TRIM, 8, 8⟩
abbrev AGE_TRIM.PENDING : Fld := ⟨.AGE_TRIM, 7, 7⟩
abbrev AGE_TRIM.TRIM : Fld := ⟨.AGE_TRIM, 4, 0⟩
abbrev AGE_WINDOW.TALLIES : Fld := ⟨.AGE_WINDOW, 31, 0⟩
abbrev ATT_COUNT.REPORTS : Fld := ⟨.ATT_COUNT, 31, 0⟩
abbrev ATT_DEVICE_ID.ID : Fld := ⟨.ATT_DEVICE_ID, 31, 0⟩
abbrev ATT_EPOCH.EPOCHS : Fld := ⟨.ATT_EPOCH, 10, 0⟩
abbrev ATT_KEY.BOTTOM_USED : Fld := ⟨.ATT_KEY, 30, 20⟩
abbrev ATT_KEY.TOP_LEAF : Fld := ⟨.ATT_KEY, 19, 0⟩
abbrev BRG_DETAIL.UNPLACED : Fld := ⟨.BRG_DETAIL, 31, 23⟩
abbrev BRG_DETAIL.FAILED_CHANNELS : Fld := ⟨.BRG_DETAIL, 22, 14⟩
abbrev BRG_DETAIL.RETIRED : Fld := ⟨.BRG_DETAIL, 13, 5⟩
abbrev BRG_STATUS.BUSY : Fld := ⟨.BRG_STATUS, 31, 31⟩
abbrev BRG_STATUS.DONE : Fld := ⟨.BRG_STATUS, 30, 30⟩
abbrev BRG_STATUS.READY : Fld := ⟨.BRG_STATUS, 29, 29⟩
abbrev BRG_STATUS.WARM : Fld := ⟨.BRG_STATUS, 28, 28⟩
abbrev BRG_STATUS.STEP : Fld := ⟨.BRG_STATUS, 27, 24⟩
abbrev BRG_STATUS.NOTES : Fld := ⟨.BRG_STATUS, 23, 16⟩
abbrev BRG_STATUS.CODE : Fld := ⟨.BRG_STATUS, 7, 0⟩
abbrev BRG_STEP.REBUILD : Fld := ⟨.BRG_STEP, 9, 9⟩
abbrev BRG_STEP.WARM : Fld := ⟨.BRG_STEP, 8, 8⟩
abbrev BRG_STEP.STEP : Fld := ⟨.BRG_STEP, 3, 0⟩
abbrev BRG_TIME.BUDGET : Fld := ⟨.BRG_TIME, 31, 16⟩
abbrev BRG_TIME.ELAPSED : Fld := ⟨.BRG_TIME, 15, 0⟩
abbrev BRG_TOTAL.TOTAL : Fld := ⟨.BRG_TOTAL, 31, 0⟩
abbrev BST_PLAN_CTRL.PLAN : Fld := ⟨.BST_PLAN_CTRL, 31, 28⟩
abbrev BST_PLAN_CTRL.CLUSTER : Fld := ⟨.BST_PLAN_CTRL, 27, 19⟩
abbrev BST_PLAN_CTRL.PARTITIONS : Fld := ⟨.BST_PLAN_CTRL, 11, 0⟩
abbrev BST_PLAN_STATUS.BUSY : Fld := ⟨.BST_PLAN_STATUS, 31, 31⟩
abbrev BST_PLAN_STATUS.DONE : Fld := ⟨.BST_PLAN_STATUS, 30, 30⟩
abbrev BST_PLAN_STATUS.PLAN : Fld := ⟨.BST_PLAN_STATUS, 11, 8⟩
abbrev BST_PLAN_STATUS.CODE : Fld := ⟨.BST_PLAN_STATUS, 7, 0⟩
abbrev BST_RESULT.DATA : Fld := ⟨.BST_RESULT, 31, 0⟩
abbrev BST_RESULT_POP.POP : Fld := ⟨.BST_RESULT_POP, 0, 0⟩
abbrev BST_STAGGER.ENGINES : Fld := ⟨.BST_STAGGER, 3, 0⟩
abbrev BST_STATUS.ABORTS : Fld := ⟨.BST_STATUS, 31, 16⟩
abbrev BST_STATUS.RESULTS_LOST : Fld := ⟨.BST_STATUS, 15, 8⟩
abbrev BST_STATUS.LENGTH_REFUSED : Fld := ⟨.BST_STATUS, 1, 1⟩
abbrev BST_STATUS.FIFO : Fld := ⟨.BST_STATUS, 0, 0⟩
abbrev BST_WINDOW.LENGTH : Fld := ⟨.BST_WINDOW, 15, 0⟩
abbrev CRT_OVERRIDE.PORTS : Fld := ⟨.CRT_OVERRIDE, 23, 0⟩
abbrev CRT_RATING.INSERTIONS : Fld := ⟨.CRT_RATING, 31, 20⟩
abbrev CRT_RATING.HOURS : Fld := ⟨.CRT_RATING, 19, 0⟩
abbrev CRT_SERIAL.SERIAL : Fld := ⟨.CRT_SERIAL, 31, 0⟩
abbrev CRT_STATUS.REACH : Fld := ⟨.CRT_STATUS, 31, 16⟩
abbrev CRT_STATUS.KIND : Fld := ⟨.CRT_STATUS, 7, 4⟩
abbrev CRT_STATUS.EXPIRED : Fld := ⟨.CRT_STATUS, 3, 3⟩
abbrev CRT_STATUS.COUNTERFEIT : Fld := ⟨.CRT_STATUS, 2, 2⟩
abbrev CRT_STATUS.VERIFIED : Fld := ⟨.CRT_STATUS, 1, 1⟩
abbrev CRT_STATUS.PRESENT : Fld := ⟨.CRT_STATUS, 0, 0⟩
abbrev CRT_USE.INSERTIONS : Fld := ⟨.CRT_USE, 31, 20⟩
abbrev CRT_USE.HOURS : Fld := ⟨.CRT_USE, 19, 0⟩
abbrev DMA_ERROR.COUNT : Fld := ⟨.DMA_ERROR, 31, 16⟩
abbrev DMA_ERROR.LAST : Fld := ⟨.DMA_ERROR, 7, 0⟩
abbrev DMA_STATUS.FINISHED : Fld := ⟨.DMA_STATUS, 15, 8⟩
abbrev DMA_STATUS.OUTSTANDING : Fld := ⟨.DMA_STATUS, 7, 0⟩
abbrev DMA_TIMEOUT.REMOTE : Fld := ⟨.DMA_TIMEOUT, 15, 0⟩
abbrev DMA_WINDOW_DENY.COUNT : Fld := ⟨.DMA_WINDOW_DENY, 31, 16⟩
abbrev DMA_WINDOW_DENY.CODE : Fld := ⟨.DMA_WINDOW_DENY, 15, 8⟩
abbrev DMA_WINDOW_DENY.WINDOW : Fld := ⟨.DMA_WINDOW_DENY, 7, 0⟩
abbrev DRP_COUNT.COUNT : Fld := ⟨.DRP_COUNT, 31, 0⟩
abbrev DRP_CTRL.HOLDOFF : Fld := ⟨.DRP_CTRL, 31, 16⟩
abbrev DRP_CTRL.RELEASE : Fld := ⟨.DRP_CTRL, 15, 8⟩
abbrev DRP_CTRL.THRESHOLD : Fld := ⟨.DRP_CTRL, 7, 0⟩
abbrev DRP_STATUS.LAST : Fld := ⟨.DRP_STATUS, 19, 16⟩
abbrev DRP_STATUS.ASSERTED : Fld := ⟨.DRP_STATUS, 15, 0⟩
abbrev FAB_ACK_TIMEOUT.ACK : Fld := ⟨.FAB_ACK_TIMEOUT, 15, 0⟩
abbrev FAB_BIND_A.PEER_CIRCUIT : Fld := ⟨.FAB_BIND_A, 52, 41⟩
abbrev FAB_BIND_A.PEER_PORT : Fld := ⟨.FAB_BIND_A, 40, 36⟩
abbrev FAB_BIND_A.PEER_MODULE : Fld := ⟨.FAB_BIND_A, 35, 20⟩
abbrev FAB_BIND_A.CIRCUIT : Fld := ⟨.FAB_BIND_A, 19, 8⟩
abbrev FAB_BIND_A.CONTEXT : Fld := ⟨.FAB_BIND_A, 7, 4⟩
abbrev FAB_BIND_A.CLEARING : Fld := ⟨.FAB_BIND_A, 2, 2⟩
abbrev FAB_BIND_A.DIR : Fld := ⟨.FAB_BIND_A, 1, 1⟩
abbrev FAB_BIND_A.VALID : Fld := ⟨.FAB_BIND_A, 0, 0⟩
abbrev FAB_BIND_B.SSEQ : Fld := ⟨.FAB_BIND_B, 63, 48⟩
abbrev FAB_BIND_B.DUPLICATES : Fld := ⟨.FAB_BIND_B, 47, 40⟩
abbrev FAB_BIND_B.DELIVERERS : Fld := ⟨.FAB_BIND_B, 32, 18⟩
abbrev FAB_BIND_B.CELLS : Fld := ⟨.FAB_BIND_B, 17, 0⟩
abbrev FAB_CLR_ERROR.MISMATCH : Fld := ⟨.FAB_CLR_ERROR, 31, 16⟩
abbrev FAB_CLR_ERROR.COUNT : Fld := ⟨.FAB_CLR_ERROR, 15, 0⟩
abbrev FAB_ESC_TIMEOUT.TIMEOUT : Fld := ⟨.FAB_ESC_TIMEOUT, 15, 0⟩
abbrev FAB_ESCAPE.VALID : Fld := ⟨.FAB_ESCAPE, 31, 31⟩
abbrev FAB_ESCAPE.PORT : Fld := ⟨.FAB_ESCAPE, 20, 16⟩
abbrev FAB_ESCAPE.MODULE : Fld := ⟨.FAB_ESCAPE, 13, 0⟩
abbrev FAB_MODULE.MODULE : Fld := ⟨.FAB_MODULE, 15, 0⟩
abbrev FAB_PORT_CTRL.RESET : Fld := ⟨.FAB_PORT_CTRL, 2, 2⟩
abbrev FAB_PORT_CTRL.RETRAIN : Fld := ⟨.FAB_PORT_CTRL, 1, 1⟩
abbrev FAB_PORT_CTRL.ENABLE : Fld := ⟨.FAB_PORT_CTRL, 0, 0⟩
abbrev FAB_PORT_DELAY.DELAY : Fld := ⟨.FAB_PORT_DELAY, 15, 0⟩
abbrev FAB_PORT_DISCARD.ROUTE : Fld := ⟨.FAB_PORT_DISCARD, 31, 24⟩
abbrev FAB_PORT_DISCARD.LATE : Fld := ⟨.FAB_PORT_DISCARD, 23, 16⟩
abbrev FAB_PORT_DISCARD.LINK : Fld := ⟨.FAB_PORT_DISCARD, 15, 8⟩
abbrev FAB_PORT_DISCARD.TABLE : Fld := ⟨.FAB_PORT_DISCARD, 7, 0⟩
abbrev FAB_PORT_ESCAPED.COUNT : Fld := ⟨.FAB_PORT_ESCAPED, 31, 0⟩
abbrev FAB_PORT_FEC.CORRECTED : Fld := ⟨.FAB_PORT_FEC, 31, 0⟩
abbrev FAB_PORT_LINK_ERR.RETRAINS : Fld := ⟨.FAB_PORT_LINK_ERR, 31, 24⟩
abbrev FAB_PORT_LINK_ERR.RETRIES : Fld := ⟨.FAB_PORT_LINK_ERR, 23, 0⟩
abbrev FAB_PORT_NEIGHBOUR.VALID : Fld := ⟨.FAB_PORT_NEIGHBOUR, 31, 31⟩
abbrev FAB_PORT_NEIGHBOUR.PORT : Fld := ⟨.FAB_PORT_NEIGHBOUR, 20, 16⟩
abbrev FAB_PORT_NEIGHBOUR.MODULE : Fld := ⟨.FAB_PORT_NEIGHBOUR, 15, 0⟩
abbrev FAB_PORT_STATUS.CODE : Fld := ⟨.FAB_PORT_STATUS, 15, 8⟩
abbrev FAB_PORT_STATUS.PARTNER_READY : Fld := ⟨.FAB_PORT_STATUS, 5, 5⟩
abbrev FAB_PORT_STATUS.READY : Fld := ⟨.FAB_PORT_STATUS, 4, 4⟩
abbrev FAB_PORT_STATUS.STATE : Fld := ⟨.FAB_PORT_STATUS, 2, 0⟩
abbrev FAB_ROUTE_HIGH.VALID : Fld := ⟨.FAB_ROUTE_HIGH, 31, 31⟩
abbrev FAB_ROUTE_HIGH.FIELDS : Fld := ⟨.FAB_ROUTE_HIGH, 9, 0⟩
abbrev FAB_ROUTE_INDEX.MODULE : Fld := ⟨.FAB_ROUTE_INDEX, 13, 0⟩
abbrev FAB_ROUTE_LOW.FIELDS : Fld := ⟨.FAB_ROUTE_LOW, 59, 0⟩
abbrev FAB_ROUTE_VALID.VALID : Fld := ⟨.FAB_ROUTE_VALID, 0, 0⟩
abbrev FAB_STATUS.UP : Fld := ⟨.FAB_STATUS, 23, 0⟩
abbrev FAB_TABLE_COMMIT.CODE : Fld := ⟨.FAB_TABLE_COMMIT, 11, 8⟩
abbrev FAB_TABLE_COMMIT.REFUSED : Fld := ⟨.FAB_TABLE_COMMIT, 2, 2⟩
abbrev FAB_TABLE_COMMIT.COPYING : Fld := ⟨.FAB_TABLE_COMMIT, 1, 1⟩
abbrev FAB_TABLE_COMMIT.COMMIT : Fld := ⟨.FAB_TABLE_COMMIT, 0, 0⟩
abbrev FAB_TABLE_DATA.ENTRY : Fld := ⟨.FAB_TABLE_DATA, 31, 0⟩
abbrev FAB_TABLE_INDEX.SLOT : Fld := ⟨.FAB_TABLE_INDEX, 31, 31⟩
abbrev FAB_TABLE_INDEX.INDEX : Fld := ⟨.FAB_TABLE_INDEX, 11, 0⟩
abbrev FNC_PART_STATUS.LATE : Fld := ⟨.FNC_PART_STATUS, 31, 16⟩
abbrev FNC_PART_STATUS.ANSWERED : Fld := ⟨.FNC_PART_STATUS, 15, 2⟩
abbrev FNC_PART_STATUS.DRAINING : Fld := ⟨.FNC_PART_STATUS, 1, 1⟩
abbrev FNC_PART_STATUS.FENCED : Fld := ⟨.FNC_PART_STATUS, 0, 0⟩
abbrev FNC_TIMEOUT.TIMEOUT : Fld := ⟨.FNC_TIMEOUT, 12, 0⟩
abbrev FOL_CX_COMMITTED.COUNT : Fld := ⟨.FOL_CX_COMMITTED, 31, 0⟩
abbrev FOL_CX_DRAIN.CONSECUTIVE : Fld := ⟨.FOL_CX_DRAIN, 31, 24⟩
abbrev FOL_CX_DRAIN.OVERRUNS : Fld := ⟨.FOL_CX_DRAIN, 15, 0⟩
abbrev FOL_CX_ERROR.LAST : Fld := ⟨.FOL_CX_ERROR, 7, 0⟩
abbrev FOL_CX_LEFTOVER.COUNT : Fld := ⟨.FOL_CX_LEFTOVER, 31, 0⟩
abbrev FOL_CX_NEXT.VALID : Fld := ⟨.FOL_CX_NEXT, 31, 31⟩
abbrev FOL_CX_NEXT.FOLIO : Fld := ⟨.FOL_CX_NEXT, 11, 0⟩
abbrev FOL_CX_STALE.COUNT : Fld := ⟨.FOL_CX_STALE, 31, 0⟩
abbrev FOL_CX_STALE_LAST.EPOCH : Fld := ⟨.FOL_CX_STALE_LAST, 21, 20⟩
abbrev FOL_CX_STALE_LAST.ENDPOINT : Fld := ⟨.FOL_CX_STALE_LAST, 19, 9⟩
abbrev FOL_CX_STALE_LAST.CLUSTER : Fld := ⟨.FOL_CX_STALE_LAST, 8, 0⟩
abbrev FOL_CX_STATE.TARGET : Fld := ⟨.FOL_CX_STATE, 31, 20⟩
abbrev FOL_CX_STATE.STAGED : Fld := ⟨.FOL_CX_STATE, 19, 19⟩
abbrev FOL_CX_STATE.STATE : Fld := ⟨.FOL_CX_STATE, 18, 16⟩
abbrev FOL_CX_STATE.EPOCH : Fld := ⟨.FOL_CX_STATE, 13, 12⟩
abbrev FOL_CX_STATE.ACTIVE : Fld := ⟨.FOL_CX_STATE, 11, 0⟩
abbrev FOL_DRAIN_LIMIT.LIMIT : Fld := ⟨.FOL_DRAIN_LIMIT, 7, 0⟩
abbrev HNG_COUNT.QUARANTINED : Fld := ⟨.HNG_COUNT, 31, 24⟩
abbrev HNG_COUNT.TRANSIENT : Fld := ⟨.HNG_COUNT, 23, 16⟩
abbrev HNG_COUNT.RERUN : Fld := ⟨.HNG_COUNT, 15, 8⟩
abbrev HNG_COUNT.DECLARED : Fld := ⟨.HNG_COUNT, 7, 0⟩
abbrev HNG_CTRL.RERUN_LIMIT : Fld := ⟨.HNG_CTRL, 31, 24⟩
abbrev HNG_CTRL.AUTO : Fld := ⟨.HNG_CTRL, 8, 8⟩
abbrev HNG_CTRL.WINDOW : Fld := ⟨.HNG_CTRL, 7, 0⟩
abbrev HNG_CX_WAIT.RERUNS : Fld := ⟨.HNG_CX_WAIT, 31, 16⟩
abbrev HNG_CX_WAIT.COUNT : Fld := ⟨.HNG_CX_WAIT, 7, 0⟩
abbrev HNG_LAST.TALLY : Fld := ⟨.HNG_LAST, 63, 32⟩
abbrev HNG_LAST.CONTEXT : Fld := ⟨.HNG_LAST, 31, 28⟩
abbrev HNG_LAST.PARTITIONS : Fld := ⟨.HNG_LAST, 27, 16⟩
abbrev HNG_LAST.CLUSTER : Fld := ⟨.HNG_LAST, 8, 0⟩
abbrev IMG_CTRL.CONTEXT : Fld := ⟨.IMG_CTRL, 11, 8⟩
abbrev IMG_CTRL.OP : Fld := ⟨.IMG_CTRL, 2, 0⟩
abbrev IMG_CX_DIGEST.DIGEST : Fld := ⟨.IMG_CX_DIGEST, 31, 0⟩
abbrev IMG_CX_STATE.CLUSTERS : Fld := ⟨.IMG_CX_STATE, 24, 16⟩
abbrev IMG_CX_STATE.STATE : Fld := ⟨.IMG_CX_STATE, 1, 0⟩
abbrev IMG_DETAIL.OFFSET : Fld := ⟨.IMG_DETAIL, 31, 0⟩
abbrev IMG_DETAIL_CODE.SUB : Fld := ⟨.IMG_DETAIL_CODE, 7, 0⟩
abbrev IMG_SRC_ADDR.ADDR : Fld := ⟨.IMG_SRC_ADDR, 63, 6⟩
abbrev IMG_SRC_LEN.LENGTH : Fld := ⟨.IMG_SRC_LEN, 30, 0⟩
abbrev IMG_STATUS.BUSY : Fld := ⟨.IMG_STATUS, 31, 31⟩
abbrev IMG_STATUS.DONE : Fld := ⟨.IMG_STATUS, 30, 30⟩
abbrev IMG_STATUS.REFUSED : Fld := ⟨.IMG_STATUS, 29, 29⟩
abbrev IMG_STATUS.OP : Fld := ⟨.IMG_STATUS, 26, 24⟩
abbrev IMG_STATUS.CONTEXT : Fld := ⟨.IMG_STATUS, 19, 16⟩
abbrev IMG_STATUS.CODE : Fld := ⟨.IMG_STATUS, 7, 0⟩
abbrev LCS_CHALLENGE.VALUE : Fld := ⟨.LCS_CHALLENGE, 31, 0⟩
abbrev LCS_STATE.UNLOCK_LEFT : Fld := ⟨.LCS_STATE, 31, 12⟩
abbrev LCS_STATE.UNLOCKED : Fld := ⟨.LCS_STATE, 3, 3⟩
abbrev LCS_STATE.STATE : Fld := ⟨.LCS_STATE, 2, 0⟩
abbrev LIC_DIGEST.DIGEST : Fld := ⟨.LIC_DIGEST, 31, 0⟩
abbrev LIC_STATE.SEQUENCE : Fld := ⟨.LIC_STATE, 31, 16⟩
abbrev LIC_STATE.PENDING : Fld := ⟨.LIC_STATE, 3, 3⟩
abbrev LIC_STATE.FALLBACK : Fld := ⟨.LIC_STATE, 2, 2⟩
abbrev LIC_STATE.VARIANT : Fld := ⟨.LIC_STATE, 1, 0⟩
abbrev MEM_CH_ERR.UE : Fld := ⟨.MEM_CH_ERR, 31, 24⟩
abbrev MEM_CH_ERR.CE : Fld := ⟨.MEM_CH_ERR, 23, 0⟩
abbrev MEM_CH_STATE.STATE : Fld := ⟨.MEM_CH_STATE, 31, 30⟩
abbrev MEM_CH_STATE.LANE : Fld := ⟨.MEM_CH_STATE, 29, 29⟩
abbrev MEM_CH_STATE.PIN : Fld := ⟨.MEM_CH_STATE, 28, 24⟩
abbrev MEM_CH_STATE.TEMP : Fld := ⟨.MEM_CH_STATE, 23, 16⟩
abbrev MEM_CH_STATE.USED : Fld := ⟨.MEM_CH_STATE, 14, 0⟩
abbrev MEM_ERR_LAST.TALLY : Fld := ⟨.MEM_ERR_LAST, 63, 32⟩
abbrev MEM_ERR_LAST.KIND : Fld := ⟨.MEM_ERR_LAST, 31, 28⟩
abbrev MEM_ERR_LAST.CONTEXT : Fld := ⟨.MEM_ERR_LAST, 27, 24⟩
abbrev MEM_ERR_LAST.PIN : Fld := ⟨.MEM_ERR_LAST, 20, 16⟩
abbrev MEM_ERR_LAST.CHANNEL : Fld := ⟨.MEM_ERR_LAST, 4, 0⟩
abbrev MEM_INJECT.CHANNEL : Fld := ⟨.MEM_INJECT, 12, 8⟩
abbrev MEM_INJECT.UE : Fld := ⟨.MEM_INJECT, 1, 1⟩
abbrev MEM_INJECT.CE : Fld := ⟨.MEM_INJECT, 0, 0⟩
abbrev MEM_MERGE.COUNT : Fld := ⟨.MEM_MERGE, 31, 0⟩
abbrev MEM_POISON.DROPPED : Fld := ⟨.MEM_POISON, 31, 24⟩
abbrev MEM_POISON.WRITTEN : Fld := ⟨.MEM_POISON, 23, 12⟩
abbrev MEM_POISON.READ : Fld := ⟨.MEM_POISON, 11, 0⟩
abbrev MEM_SCRUB.ENABLE : Fld := ⟨.MEM_SCRUB, 31, 31⟩
abbrev MEM_SCRUB.HOURS : Fld := ⟨.MEM_SCRUB, 15, 0⟩
abbrev MEM_STATUS.WORKING : Fld := ⟨.MEM_STATUS, 23, 16⟩
abbrev MEM_STATUS.DEGRADING : Fld := ⟨.MEM_STATUS, 15, 8⟩
abbrev MEM_STATUS.SR : Fld := ⟨.MEM_STATUS, 3, 2⟩
abbrev MEM_STATUS.TRAINED : Fld := ⟨.MEM_STATUS, 1, 1⟩
abbrev MEM_STATUS.BELOW_FLOOR : Fld := ⟨.MEM_STATUS, 0, 0⟩
abbrev MEM_SUMMARY.BELOW_GUARANTEE : Fld := ⟨.MEM_SUMMARY, 24, 24⟩
abbrev MEM_SUMMARY.FAILED : Fld := ⟨.MEM_SUMMARY, 17, 9⟩
abbrev MEM_SUMMARY.WORKING : Fld := ⟨.MEM_SUMMARY, 8, 0⟩
abbrev MEM_THRESH.UE_LIMIT : Fld := ⟨.MEM_THRESH, 31, 24⟩
abbrev MEM_THRESH.CE_LIMIT : Fld := ⟨.MEM_THRESH, 15, 0⟩
abbrev MEM_TRAIN.RETRAINED : Fld := ⟨.MEM_TRAIN, 31, 24⟩
abbrev MEM_TRAIN.RESTORED : Fld := ⟨.MEM_TRAIN, 23, 16⟩
abbrev MEM_TRAIN.CACHE_VALID : Fld := ⟨.MEM_TRAIN, 0, 0⟩
abbrev MEM_WINDOW.WINDOW : Fld := ⟨.MEM_WINDOW, 31, 0⟩
abbrev MGT_COLLECTOR_ADDR.ADDR : Fld := ⟨.MGT_COLLECTOR_ADDR, 31, 0⟩
abbrev MGT_COLLECTOR.IPV6 : Fld := ⟨.MGT_COLLECTOR, 1, 1⟩
abbrev MGT_COLLECTOR.VALID : Fld := ⟨.MGT_COLLECTOR, 0, 0⟩
abbrev MGT_CTRL.PORT : Fld := ⟨.MGT_CTRL, 31, 16⟩
abbrev MGT_CTRL.RETRY : Fld := ⟨.MGT_CTRL, 15, 8⟩
abbrev MGT_CTRL.ALLOW_ONLY : Fld := ⟨.MGT_CTRL, 2, 2⟩
abbrev MGT_CTRL.LINK : Fld := ⟨.MGT_CTRL, 1, 1⟩
abbrev MGT_CTRL.ENABLE : Fld := ⟨.MGT_CTRL, 0, 0⟩
abbrev MGT_IPV4.ADDR : Fld := ⟨.MGT_IPV4, 31, 0⟩
abbrev MGT_IPV4_ROUTE.GATEWAY : Fld := ⟨.MGT_IPV4_ROUTE, 63, 32⟩
abbrev MGT_IPV4_ROUTE.PREFIX : Fld := ⟨.MGT_IPV4_ROUTE, 5, 0⟩
abbrev MGT_IPV6.ADDR : Fld := ⟨.MGT_IPV6, 31, 0⟩
abbrev MGT_STATS.RATE_DROPPED : Fld := ⟨.MGT_STATS, 31, 16⟩
abbrev MGT_STATS.BAD : Fld := ⟨.MGT_STATS, 15, 0⟩
abbrev MSG_COUNT.REFUSED : Fld := ⟨.MSG_COUNT, 31, 24⟩
abbrev MSG_COUNT.STALE : Fld := ⟨.MSG_COUNT, 23, 16⟩
abbrev MSG_COUNT.CLOSED : Fld := ⟨.MSG_COUNT, 15, 8⟩
abbrev MSG_COUNT.HEADER : Fld := ⟨.MSG_COUNT, 7, 4⟩
abbrev MSG_COUNT.READ_INVALID : Fld := ⟨.MSG_COUNT, 3, 0⟩
abbrev MSG_LAST.DEST : Fld := ⟨.MSG_LAST, 31, 16⟩
abbrev MSG_LAST.STATUS : Fld := ⟨.MSG_LAST, 15, 8⟩
abbrev MSG_LAST.CODE : Fld := ⟨.MSG_LAST, 7, 0⟩
abbrev MSG_RING_CTRL.CONTEXT : Fld := ⟨.MSG_RING_CTRL, 27, 24⟩
abbrev MSG_RING_CTRL.RING : Fld := ⟨.MSG_RING_CTRL, 23, 12⟩
abbrev MSG_RING_CTRL.OP : Fld := ⟨.MSG_RING_CTRL, 1, 0⟩
abbrev MSG_SENT.COUNT : Fld := ⟨.MSG_SENT, 31, 0⟩
abbrev MSH_AGED.COUNT : Fld := ⟨.MSH_AGED, 31, 0⟩
abbrev MSH_ATTACH.CURRENT : Fld := ⟨.MSH_ATTACH, 8, 8⟩
abbrev MSH_ATTACH.MODE : Fld := ⟨.MSH_ATTACH, 0, 0⟩
abbrev MSH_CLR_COMBINE.COUNT : Fld := ⟨.MSH_CLR_COMBINE, 31, 0⟩
abbrev MSH_CLR_ERROR.MISMATCH : Fld := ⟨.MSH_CLR_ERROR, 31, 24⟩
abbrev MSH_CLR_ERROR.EXCESS : Fld := ⟨.MSH_CLR_ERROR, 23, 16⟩
abbrev MSH_CLR_ERROR.ROW_RANGE : Fld := ⟨.MSH_CLR_ERROR, 15, 8⟩
abbrev MSH_CLR_ERROR.INCOMPLETE : Fld := ⟨.MSH_CLR_ERROR, 7, 0⟩
abbrev MSH_CLR_HOLD.HOLD : Fld := ⟨.MSH_CLR_HOLD, 7, 0⟩
abbrev MSH_DETOUR.COUNT : Fld := ⟨.MSH_DETOUR, 31, 0⟩
abbrev MSH_FENCED.DROPPED : Fld := ⟨.MSH_FENCED, 31, 16⟩
abbrev MSH_FENCED.ANSWERED : Fld := ⟨.MSH_FENCED, 15, 0⟩
abbrev MSH_SLOT_LIMIT.LIMIT : Fld := ⟨.MSH_SLOT_LIMIT, 6, 0⟩
abbrev MSH_STALL.CYCLES : Fld := ⟨.MSH_STALL, 31, 0⟩
abbrev MSH_STATUS.REGIONS : Fld := ⟨.MSH_STATUS, 11, 8⟩
abbrev MSH_STATUS.PARTITIONED : Fld := ⟨.MSH_STATUS, 1, 1⟩
abbrev MSH_STATUS.LIMIT_REFUSED : Fld := ⟨.MSH_STATUS, 0, 0⟩
abbrev MXC_ACC_COUNT.INVALID : Fld := ⟨.MXC_ACC_COUNT, 31, 24⟩
abbrev MXC_ACC_COUNT.CLAMPED : Fld := ⟨.MXC_ACC_COUNT, 23, 16⟩
abbrev MXC_ACC_COUNT.ACC_SATURATED : Fld := ⟨.MXC_ACC_COUNT, 15, 8⟩
abbrev MXC_ACC_COUNT.ACC_RESCALED : Fld := ⟨.MXC_ACC_COUNT, 7, 0⟩
abbrev MXC_AUDIT_COUNT.WINDOW_HITS : Fld := ⟨.MXC_AUDIT_COUNT, 31, 28⟩
abbrev MXC_AUDIT_COUNT.INJECTED : Fld := ⟨.MXC_AUDIT_COUNT, 27, 24⟩
abbrev MXC_AUDIT_COUNT.TOTAL : Fld := ⟨.MXC_AUDIT_COUNT, 23, 0⟩
abbrev MXC_AUDIT_INJECT.ARM : Fld := ⟨.MXC_AUDIT_INJECT, 0, 0⟩
abbrev MXC_AUDIT_LAST.KIND : Fld := ⟨.MXC_AUDIT_LAST, 31, 30⟩
abbrev MXC_AUDIT_LAST.PASS : Fld := ⟨.MXC_AUDIT_LAST, 29, 28⟩
abbrev MXC_AUDIT_LAST.ROW : Fld := ⟨.MXC_AUDIT_LAST, 27, 22⟩
abbrev MXC_AUDIT_LAST.COLUMN : Fld := ⟨.MXC_AUDIT_LAST, 21, 16⟩
abbrev MXC_AUDIT_LAST.KBLOCK : Fld := ⟨.MXC_AUDIT_LAST, 15, 8⟩
abbrev MXC_AUDIT_LAST.TAG : Fld := ⟨.MXC_AUDIT_LAST, 7, 0⟩
abbrev MXC_AUDIT_POLICY.AUD_WINDOW : Fld := ⟨.MXC_AUDIT_POLICY, 31, 8⟩
abbrev MXC_AUDIT_POLICY.AUD_RETIRE_COUNT : Fld := ⟨.MXC_AUDIT_POLICY, 3, 0⟩
abbrev MXC_AUDIT_TALLY.TALLY : Fld := ⟨.MXC_AUDIT_TALLY, 31, 0⟩
abbrev MXC_COMPLETION.ENTRY : Fld := ⟨.MXC_COMPLETION, 31, 0⟩
abbrev MXC_COMPLETION_POP.POP : Fld := ⟨.MXC_COMPLETION_POP, 0, 0⟩
abbrev MXC_CONV_COUNT.RESCALED : Fld := ⟨.MXC_CONV_COUNT, 31, 16⟩
abbrev MXC_CONV_COUNT.SATURATED : Fld := ⟨.MXC_CONV_COUNT, 15, 0⟩
abbrev MXC_ERROR.COUNT : Fld := ⟨.MXC_ERROR, 31, 16⟩
abbrev MXC_ERROR.LAST : Fld := ⟨.MXC_ERROR, 7, 0⟩
abbrev MXC_STALL.CYCLES : Fld := ⟨.MXC_STALL, 31, 0⟩
abbrev MXC_STATUS.RATE : Fld := ⟨.MXC_STATUS, 20, 16⟩
abbrev MXC_STATUS.BUSY : Fld := ⟨.MXC_STATUS, 12, 12⟩
abbrev MXC_STATUS.FIFO : Fld := ⟨.MXC_STATUS, 9, 5⟩
abbrev MXC_STATUS.QUEUE : Fld := ⟨.MXC_STATUS, 4, 0⟩
abbrev NOS_HOST_DROPPED.COUNT : Fld := ⟨.NOS_HOST_DROPPED, 31, 0⟩
abbrev NOS_LIMITS.INLET : Fld := ⟨.NOS_LIMITS, 23, 16⟩
abbrev NOS_LIMITS.FLOW : Fld := ⟨.NOS_LIMITS, 15, 0⟩
abbrev NOS_LOG.NEXT_SEQ : Fld := ⟨.NOS_LOG, 31, 0⟩
abbrev NOS_SENSOR_INDEX.INDEX : Fld := ⟨.NOS_SENSOR_INDEX, 9, 0⟩
abbrev NOS_SENSOR_VALUE.VALUE : Fld := ⟨.NOS_SENSOR_VALUE, 31, 0⟩
abbrev NOS_STATUS.LOG_LOST : Fld := ⟨.NOS_STATUS, 31, 16⟩
abbrev NOS_STATUS.MINIMAL : Fld := ⟨.NOS_STATUS, 1, 1⟩
abbrev NOS_STATUS.RUNNING : Fld := ⟨.NOS_STATUS, 0, 0⟩
abbrev PCI_ACCESS_ERR.UR : Fld := ⟨.PCI_ACCESS_ERR, 31, 20⟩
abbrev PCI_ACCESS_ERR.FENCED : Fld := ⟨.PCI_ACCESS_ERR, 19, 8⟩
abbrev PCI_ACCESS_ERR.POISON : Fld := ⟨.PCI_ACCESS_ERR, 7, 0⟩
abbrev PCI_LINK.FLIT : Fld := ⟨.PCI_LINK, 11, 11⟩
abbrev PCI_LINK.WIDTH : Fld := ⟨.PCI_LINK, 10, 6⟩
abbrev PCI_LINK.SPEED : Fld := ⟨.PCI_LINK, 5, 3⟩
abbrev PCI_LINK.APERTURE : Fld := ⟨.PCI_LINK, 2, 1⟩
abbrev PCI_LINK.READY : Fld := ⟨.PCI_LINK, 0, 0⟩
abbrev PCI_WINDOW.BASE : Fld := ⟨.PCI_WINDOW, 39, 26⟩
abbrev PCI_WINDOW.ENABLE : Fld := ⟨.PCI_WINDOW, 0, 0⟩
abbrev PLC_CLUSTER.PLACED : Fld := ⟨.PLC_CLUSTER, 31, 31⟩
abbrev PLC_CLUSTER.LENT : Fld := ⟨.PLC_CLUSTER, 30, 30⟩
abbrev PLC_CLUSTER.DOUBLED : Fld := ⟨.PLC_CLUSTER, 29, 29⟩
abbrev PLC_CLUSTER.MOVING : Fld := ⟨.PLC_CLUSTER, 28, 28⟩
abbrev PLC_CLUSTER.HOST : Fld := ⟨.PLC_CLUSTER, 23, 20⟩
abbrev PLC_CLUSTER.SITE : Fld := ⟨.PLC_CLUSTER, 8, 0⟩
abbrev PLC_DEGRADED.CONTEXTS : Fld := ⟨.PLC_DEGRADED, 15, 0⟩
abbrev PLC_EVENT.TALLY : Fld := ⟨.PLC_EVENT, 63, 32⟩
abbrev PLC_EVENT.KIND : Fld := ⟨.PLC_EVENT, 31, 28⟩
abbrev PLC_EVENT.PARTITION : Fld := ⟨.PLC_EVENT, 27, 24⟩
abbrev PLC_EVENT.CLUSTER : Fld := ⟨.PLC_EVENT, 23, 15⟩
abbrev PLC_EVENT.CONTEXT : Fld := ⟨.PLC_EVENT, 14, 11⟩
abbrev PLC_EVENT_COUNT.COUNT : Fld := ⟨.PLC_EVENT_COUNT, 31, 0⟩
abbrev PLC_LEDGER.ENTRIES : Fld := ⟨.PLC_LEDGER, 31, 16⟩
abbrev PLC_LEDGER.FULL : Fld := ⟨.PLC_LEDGER, 2, 2⟩
abbrev PLC_LEDGER.PENDING : Fld := ⟨.PLC_LEDGER, 1, 1⟩
abbrev PLC_LEDGER.WRITE_FAILED : Fld := ⟨.PLC_LEDGER, 0, 0⟩
abbrev PLC_MIGRATE.ACTIVE : Fld := ⟨.PLC_MIGRATE, 23, 8⟩
abbrev PLC_MIGRATE.PAGES : Fld := ⟨.PLC_MIGRATE, 7, 0⟩
abbrev PLC_PART_ROTATE.STEPS : Fld := ⟨.PLC_PART_ROTATE, 31, 16⟩
abbrev PLC_PART_ROTATE.SPARE : Fld := ⟨.PLC_PART_ROTATE, 12, 8⟩
abbrev PLC_PART_ROTATE.NEXT : Fld := ⟨.PLC_PART_ROTATE, 4, 0⟩
abbrev PLC_PART_SPARES.LENT_IN : Fld := ⟨.PLC_PART_SPARES, 30, 26⟩
abbrev PLC_PART_SPARES.LENT_OUT : Fld := ⟨.PLC_PART_SPARES, 25, 21⟩
abbrev PLC_PART_SPARES.DOUBLED : Fld := ⟨.PLC_PART_SPARES, 20, 16⟩
abbrev PLC_PART_SPARES.DEFECTIVE : Fld := ⟨.PLC_PART_SPARES, 15, 11⟩
abbrev PLC_PART_SPARES.ROTATING : Fld := ⟨.PLC_PART_SPARES, 10, 10⟩
abbrev PLC_PART_SPARES.PARKED : Fld := ⟨.PLC_PART_SPARES, 9, 5⟩
abbrev PLC_PART_SPARES.FREE : Fld := ⟨.PLC_PART_SPARES, 4, 0⟩
abbrev PLC_PRIORITY.HEAD : Fld := ⟨.PLC_PRIORITY, 3, 0⟩
abbrev PLC_ROTATE.ENABLE : Fld := ⟨.PLC_ROTATE, 31, 31⟩
abbrev PLC_ROTATE.INTERVAL : Fld := ⟨.PLC_ROTATE, 15, 0⟩
abbrev PLC_STATUS.FOLIO : Fld := ⟨.PLC_STATUS, 31, 20⟩
abbrev PLC_STATUS.CONTEXT : Fld := ⟨.PLC_STATUS, 19, 16⟩
abbrev PLC_STATUS.PARTITION : Fld := ⟨.PLC_STATUS, 15, 12⟩
abbrev PLC_STATUS.CODE : Fld := ⟨.PLC_STATUS, 7, 0⟩
abbrev PWR_CAP.WATTS : Fld := ⟨.PWR_CAP, 11, 0⟩
abbrev PWR_CX_THROTTLE.RATE : Fld := ⟨.PWR_CX_THROTTLE, 12, 8⟩
abbrev PWR_CX_THROTTLE.BUBBLES : Fld := ⟨.PWR_CX_THROTTLE, 3, 0⟩
abbrev PWR_MEASURE.FABRIC : Fld := ⟨.PWR_MEASURE, 63, 48⟩
abbrev PWR_MEASURE.MEMORY : Fld := ⟨.PWR_MEASURE, 47, 32⟩
abbrev PWR_MEASURE.COMPUTE : Fld := ⟨.PWR_MEASURE, 31, 16⟩
abbrev PWR_MEASURE.PACKAGE : Fld := ⟨.PWR_MEASURE, 15, 0⟩
abbrev PWR_ORDER.FIRST : Fld := ⟨.PWR_ORDER, 5, 4⟩
abbrev PWR_ORDER.SECOND : Fld := ⟨.PWR_ORDER, 3, 2⟩
abbrev PWR_ORDER.LAST : Fld := ⟨.PWR_ORDER, 1, 0⟩
abbrev PWR_PART_CTRL.FMAX : Fld := ⟨.PWR_PART_CTRL, 3, 0⟩
abbrev PWR_PART_STATUS.STATE : Fld := ⟨.PWR_PART_STATUS, 31, 29⟩
abbrev PWR_PART_STATUS.FLOOR : Fld := ⟨.PWR_PART_STATUS, 28, 28⟩
abbrev PWR_PART_STATUS.POINT : Fld := ⟨.PWR_PART_STATUS, 27, 24⟩
abbrev PWR_PART_STATUS.TARGET : Fld := ⟨.PWR_PART_STATUS, 23, 20⟩
abbrev PWR_PART_STATUS.ABORTS : Fld := ⟨.PWR_PART_STATUS, 19, 18⟩
abbrev PWR_PART_STATUS.ABANDONED : Fld := ⟨.PWR_PART_STATUS, 17, 17⟩
abbrev PWR_PART_STATUS.CHANGING : Fld := ⟨.PWR_PART_STATUS, 16, 16⟩
abbrev PWR_PART_STATUS.HOLDOFF : Fld := ⟨.PWR_PART_STATUS, 15, 0⟩
abbrev PWR_REQUEST.CAP : Fld := ⟨.PWR_REQUEST, 31, 16⟩
abbrev PWR_REQUEST.REASON : Fld := ⟨.PWR_REQUEST, 15, 8⟩
abbrev PWR_REQUEST.STATE : Fld := ⟨.PWR_REQUEST, 2, 0⟩
abbrev PWR_SHARE.FABRIC : Fld := ⟨.PWR_SHARE, 63, 48⟩
abbrev PWR_SHARE.MEMORY : Fld := ⟨.PWR_SHARE, 47, 32⟩
abbrev PWR_SHARE.COMPUTE : Fld := ⟨.PWR_SHARE, 31, 16⟩
abbrev PWR_SLACK.VALID : Fld := ⟨.PWR_SLACK, 31, 31⟩
abbrev PWR_SLACK.SLACK : Fld := ⟨.PWR_SLACK, 30, 0⟩
abbrev PWR_STATE_CTRL.PARTITIONS : Fld := ⟨.PWR_STATE_CTRL, 27, 16⟩
abbrev PWR_STATE_CTRL.TARGET : Fld := ⟨.PWR_STATE_CTRL, 2, 0⟩
abbrev PWR_STATUS.BRAKES : Fld := ⟨.PWR_STATUS, 31, 16⟩
abbrev PWR_STATUS.REFUSAL : Fld := ⟨.PWR_STATUS, 11, 10⟩
abbrev PWR_STATUS.HOLD : Fld := ⟨.PWR_STATUS, 9, 9⟩
abbrev PWR_STATUS.BRAKE : Fld := ⟨.PWR_STATUS, 8, 8⟩
abbrev PWR_STATUS.CAP_UNMET : Fld := ⟨.PWR_STATUS, 3, 3⟩
abbrev PWR_STATUS.ORDER_REFUSED : Fld := ⟨.PWR_STATUS, 2, 2⟩
abbrev PWR_STATUS.CAP_REFUSED : Fld := ⟨.PWR_STATUS, 1, 1⟩
abbrev PWR_STATUS.THERMAL : Fld := ⟨.PWR_STATUS, 0, 0⟩
abbrev PWR_THERM.CRITICAL : Fld := ⟨.PWR_THERM, 23, 16⟩
abbrev PWR_THERM.TRIP : Fld := ⟨.PWR_THERM, 15, 8⟩
abbrev PWR_THERM.TARGET : Fld := ⟨.PWR_THERM, 7, 0⟩
abbrev RST_CX_CTRL.CONTEXTS : Fld := ⟨.RST_CX_CTRL, 15, 0⟩
abbrev RST_CX_STATUS.DEPENDANT : Fld := ⟨.RST_CX_STATUS, 3, 3⟩
abbrev RST_CX_STATUS.QUARANTINED : Fld := ⟨.RST_CX_STATUS, 2, 2⟩
abbrev RST_CX_STATUS.REPLAYING : Fld := ⟨.RST_CX_STATUS, 1, 1⟩
abbrev RST_CX_STATUS.SUSPECT : Fld := ⟨.RST_CX_STATUS, 0, 0⟩
abbrev RST_DIE_CTRL.CONFIRM : Fld := ⟨.RST_DIE_CTRL, 31, 16⟩
abbrev RST_DIE_CTRL.DIE : Fld := ⟨.RST_DIE_CTRL, 1, 0⟩
abbrev RST_PART_CTRL.REPLAY : Fld := ⟨.RST_PART_CTRL, 12, 12⟩
abbrev RST_PART_CTRL.PARTITIONS : Fld := ⟨.RST_PART_CTRL, 11, 0⟩
abbrev RST_PART_STATUS.DURATION : Fld := ⟨.RST_PART_STATUS, 31, 16⟩
abbrev RST_PART_STATUS.COUNT : Fld := ⟨.RST_PART_STATUS, 15, 8⟩
abbrev RST_PART_STATUS.CAUSE : Fld := ⟨.RST_PART_STATUS, 7, 6⟩
abbrev RST_PART_STATUS.STEP : Fld := ⟨.RST_PART_STATUS, 3, 0⟩
abbrev RST_PKG_CTRL.CONFIRM : Fld := ⟨.RST_PKG_CTRL, 31, 16⟩
abbrev RST_STATUS.IGNORED : Fld := ⟨.RST_STATUS, 31, 16⟩
abbrev RST_STATUS.LAST_DIE : Fld := ⟨.RST_STATUS, 3, 2⟩
abbrev RST_STATUS.DIE_RESET : Fld := ⟨.RST_STATUS, 1, 1⟩
abbrev RST_STATUS.REPLAYING : Fld := ⟨.RST_STATUS, 0, 0⟩
abbrev SCN_PART.ABANDONED : Fld := ⟨.SCN_PART, 31, 24⟩
abbrev SCN_PART.SCANNED : Fld := ⟨.SCN_PART, 23, 16⟩
abbrev SCN_PART.ACTIVE : Fld := ⟨.SCN_PART, 15, 15⟩
abbrev SCN_PART.PATTERN : Fld := ⟨.SCN_PART, 14, 0⟩
abbrev SCN_RAW_ADDR.ADDR : Fld := ⟨.SCN_RAW_ADDR, 63, 6⟩
abbrev SCN_RAW_CTRL.OP : Fld := ⟨.SCN_RAW_CTRL, 31, 30⟩
abbrev SCN_RAW_CTRL.UNIT : Fld := ⟨.SCN_RAW_CTRL, 29, 25⟩
abbrev SCN_RAW_CTRL.ROW : Fld := ⟨.SCN_RAW_CTRL, 24, 11⟩
abbrev SCN_RAW_CTRL.SITE : Fld := ⟨.SCN_RAW_CTRL, 8, 0⟩
abbrev SCN_STATUS.RELOADS : Fld := ⟨.SCN_STATUS, 31, 16⟩
abbrev SCN_STATUS.PATTERNS_INVALID : Fld := ⟨.SCN_STATUS, 1, 1⟩
abbrev SCN_STATUS.STORED : Fld := ⟨.SCN_STATUS, 0, 0⟩
abbrev SEC_CMD_ADDR.ADDR : Fld := ⟨.SEC_CMD_ADDR, 63, 6⟩
abbrev SEC_CMD_CTRL.GO : Fld := ⟨.SEC_CMD_CTRL, 0, 0⟩
abbrev SEC_CMD_LEN.LENGTH : Fld := ⟨.SEC_CMD_LEN, 31, 0⟩
abbrev SEC_CMD_STATUS.BUSY : Fld := ⟨.SEC_CMD_STATUS, 31, 31⟩
abbrev SEC_CMD_STATUS.DONE : Fld := ⟨.SEC_CMD_STATUS, 30, 30⟩
abbrev SEC_CMD_STATUS.KIND : Fld := ⟨.SEC_CMD_STATUS, 19, 16⟩
abbrev SEC_CMD_STATUS.CODE : Fld := ⟨.SEC_CMD_STATUS, 7, 0⟩
abbrev SEC_STATUS.DENIED : Fld := ⟨.SEC_STATUS, 31, 16⟩
abbrev SEC_STATUS.OWNER_SLOTS : Fld := ⟨.SEC_STATUS, 15, 8⟩
abbrev SEC_STATUS.LOG_FULL : Fld := ⟨.SEC_STATUS, 7, 7⟩
abbrev SEC_STATUS.REQUIRE_OWNER_SIG : Fld := ⟨.SEC_STATUS, 6, 6⟩
abbrev SEC_STATUS.FW_FALLBACK : Fld := ⟨.SEC_STATUS, 5, 5⟩
abbrev SEC_STATUS.KEY_STATE_FAIL : Fld := ⟨.SEC_STATUS, 4, 4⟩
abbrev SEC_STATUS.KEY_EXHAUSTED : Fld := ⟨.SEC_STATUS, 3, 3⟩
abbrev SEC_STATUS.KEY_READY : Fld := ⟨.SEC_STATUS, 2, 2⟩
abbrev SEC_STATUS.ENTROPY_DEGRADED : Fld := ⟨.SEC_STATUS, 1, 1⟩
abbrev SEC_STATUS.ENTROPY_FAIL : Fld := ⟨.SEC_STATUS, 0, 0⟩
abbrev SNP_CTRL.HOST : Fld := ⟨.SNP_CTRL, 31, 31⟩
abbrev SNP_CTRL.MIN_SEVERITY : Fld := ⟨.SNP_CTRL, 3, 2⟩
abbrev SNP_CTRL.ERROR_ENABLE : Fld := ⟨.SNP_CTRL, 1, 1⟩
abbrev SNP_CTRL.TALLY_ENABLE : Fld := ⟨.SNP_CTRL, 0, 0⟩
abbrev SNP_FWD.LEAD : Fld := ⟨.SNP_FWD, 31, 28⟩
abbrev SNP_FWD.PORTS : Fld := ⟨.SNP_FWD, 23, 0⟩
abbrev SNP_RELEASE.RELEASE : Fld := ⟨.SNP_RELEASE, 0, 0⟩
abbrev SNP_STATUS.MISSED : Fld := ⟨.SNP_STATUS, 31, 16⟩
abbrev SNP_STATUS.FULL : Fld := ⟨.SNP_STATUS, 7, 7⟩
abbrev SNP_STATUS.LATE : Fld := ⟨.SNP_STATUS, 6, 6⟩
abbrev SNP_STATUS.SOURCES : Fld := ⟨.SNP_STATUS, 4, 0⟩
abbrev SNP_TALLY.TALLY : Fld := ⟨.SNP_TALLY, 63, 0⟩
abbrev SUB_CX_CQ.ADDR : Fld := ⟨.SUB_CX_CQ, 63, 6⟩
abbrev SUB_CX_CQ.SIZE : Fld := ⟨.SUB_CX_CQ, 5, 2⟩
abbrev SUB_CX_CQ.SEG_RECORDS : Fld := ⟨.SUB_CX_CQ, 1, 1⟩
abbrev SUB_CX_CQ.ENABLE : Fld := ⟨.SUB_CX_CQ, 0, 0⟩
abbrev SUB_CX_CQ_HEAD.INT : Fld := ⟨.SUB_CX_CQ_HEAD, 16, 16⟩
abbrev SUB_CX_CQ_HEAD.HEAD : Fld := ⟨.SUB_CX_CQ_HEAD, 15, 0⟩
abbrev SUB_CX_LOST.HELD : Fld := ⟨.SUB_CX_LOST, 23, 16⟩
abbrev SUB_CX_LOST.LOST : Fld := ⟨.SUB_CX_LOST, 15, 0⟩
abbrev SUB_CX_SQ.ADDR : Fld := ⟨.SUB_CX_SQ, 63, 6⟩
abbrev SUB_CX_SQ.SIZE : Fld := ⟨.SUB_CX_SQ, 5, 2⟩
abbrev SUB_CX_SQ.LOC : Fld := ⟨.SUB_CX_SQ, 1, 1⟩
abbrev SUB_CX_SQ.ENABLE : Fld := ⟨.SUB_CX_SQ, 0, 0⟩
abbrev SUB_CX_STATE.CQ_TAIL : Fld := ⟨.SUB_CX_STATE, 31, 16⟩
abbrev SUB_CX_STATE.SQ_HEAD : Fld := ⟨.SUB_CX_STATE, 15, 0⟩
abbrev SUB_ERR_HEAD.TAIL : Fld := ⟨.SUB_ERR_HEAD, 31, 16⟩
abbrev SUB_ERR_HEAD.HEAD : Fld := ⟨.SUB_ERR_HEAD, 15, 0⟩
abbrev SUB_ERR_RING.ADDR : Fld := ⟨.SUB_ERR_RING, 63, 6⟩
abbrev SUB_ERR_RING.SIZE : Fld := ⟨.SUB_ERR_RING, 5, 2⟩
abbrev SUB_ERR_RING.INT : Fld := ⟨.SUB_ERR_RING, 1, 1⟩
abbrev SUB_ERR_RING.ENABLE : Fld := ⟨.SUB_ERR_RING, 0, 0⟩
abbrev SUB_OVERLOAD.CONTEXTS : Fld := ⟨.SUB_OVERLOAD, 15, 0⟩
abbrev SUB_POLL.COALESCE : Fld := ⟨.SUB_POLL, 31, 24⟩
abbrev SUB_POLL.OVERLOAD : Fld := ⟨.SUB_POLL, 23, 8⟩
abbrev SUB_POLL.FETCH : Fld := ⟨.SUB_POLL, 7, 0⟩
abbrev TLR_CYCLES.CYCLES : Fld := ⟨.TLR_CYCLES, 31, 0⟩
abbrev TLR_FAULT.CODE : Fld := ⟨.TLR_FAULT, 31, 24⟩
abbrev TLR_FAULT.CORE : Fld := ⟨.TLR_FAULT, 23, 22⟩
abbrev TLR_FAULT.PC : Fld := ⟨.TLR_FAULT, 13, 0⟩
abbrev TLR_IMEM_ECC.UNCORRECTABLE : Fld := ⟨.TLR_IMEM_ECC, 31, 16⟩
abbrev TLR_IMEM_ECC.CORRECTED : Fld := ⟨.TLR_IMEM_ECC, 15, 0⟩
abbrev TLR_STATUS.STATE : Fld := ⟨.TLR_STATUS, 18, 16⟩
abbrev TLR_STATUS.PC : Fld := ⟨.TLR_STATUS, 13, 0⟩
abbrev TLY_COUNT.COUNT : Fld := ⟨.TLY_COUNT, 63, 0⟩
abbrev TLY_COUNT_LOAD.VALUE : Fld := ⟨.TLY_COUNT_LOAD, 63, 0⟩
abbrev TLY_CX_BUDGET.CYCLES : Fld := ⟨.TLY_CX_BUDGET, 31, 0⟩
abbrev TLY_CX_OVERRUN.FAULTS : Fld := ⟨.TLY_CX_OVERRUN, 31, 16⟩
abbrev TLY_CX_OVERRUN.SKIPS : Fld := ⟨.TLY_CX_OVERRUN, 15, 0⟩
abbrev TLY_CX_POLICY.SKIP_LIMIT : Fld := ⟨.TLY_CX_POLICY, 11, 4⟩
abbrev TLY_CX_POLICY.POLICY : Fld := ⟨.TLY_CX_POLICY, 0, 0⟩
abbrev TLY_EDGE_CAPTURE.EDGE : Fld := ⟨.TLY_EDGE_CAPTURE, 63, 0⟩
abbrev TLY_FWD_MASK.PORTS : Fld := ⟨.TLY_FWD_MASK, 23, 0⟩
abbrev TLY_HOLDOVER.LIMIT : Fld := ⟨.TLY_HOLDOVER, 7, 0⟩
abbrev TLY_IN_DELAY.DELAY : Fld := ⟨.TLY_IN_DELAY, 15, 0⟩
abbrev TLY_PERIOD.PERIOD : Fld := ⟨.TLY_PERIOD, 18, 0⟩
abbrev TLY_PHASE.ERROR : Fld := ⟨.TLY_PHASE, 31, 0⟩
abbrev TLY_STATUS.PERIOD_REFUSED : Fld := ⟨.TLY_STATUS, 3, 3⟩
abbrev TLY_STATUS.LOST : Fld := ⟨.TLY_STATUS, 2, 2⟩
abbrev TLY_STATUS.HOLDOVER : Fld := ⟨.TLY_STATUS, 1, 1⟩
abbrev TLY_STATUS.LOCKED : Fld := ⟨.TLY_STATUS, 0, 0⟩
abbrev TLY_SYNC.OUT_ENABLE : Fld := ⟨.TLY_SYNC, 12, 12⟩
abbrev TLY_SYNC.SOURCE_PORT : Fld := ⟨.TLY_SYNC, 8, 4⟩
abbrev TLY_SYNC.ROLE : Fld := ⟨.TLY_SYNC, 1, 0⟩
abbrev TLY_TIME.TIME : Fld := ⟨.TLY_TIME, 63, 0⟩
abbrev VEC_CONV_COUNT.RESCALED : Fld := ⟨.VEC_CONV_COUNT, 31, 16⟩
abbrev VEC_CONV_COUNT.SATURATED : Fld := ⟨.VEC_CONV_COUNT, 15, 0⟩
abbrev VEC_RESIDUE.INJECTED : Fld := ⟨.VEC_RESIDUE, 27, 24⟩
abbrev VEC_RESIDUE.TOTAL : Fld := ⟨.VEC_RESIDUE, 23, 0⟩
abbrev VEC_RESIDUE_INJECT.ARM : Fld := ⟨.VEC_RESIDUE_INJECT, 0, 0⟩
abbrev VEC_SCALE_COUNT.INVALID : Fld := ⟨.VEC_SCALE_COUNT, 31, 16⟩
abbrev VEC_SCALE_COUNT.CLAMPED : Fld := ⟨.VEC_SCALE_COUNT, 15, 0⟩
abbrev VEC_STATUS.STATE : Fld := ⟨.VEC_STATUS, 18, 16⟩
abbrev VEC_STATUS.PC : Fld := ⟨.VEC_STATUS, 12, 0⟩
abbrev VLT_CONFLICT.CYCLES : Fld := ⟨.VLT_CONFLICT, 31, 0⟩
abbrev VLT_MERGE.COUNT : Fld := ⟨.VLT_MERGE, 31, 0⟩
abbrev VLT_PARITY.INJECTED : Fld := ⟨.VLT_PARITY, 31, 28⟩
abbrev VLT_PARITY.LOST : Fld := ⟨.VLT_PARITY, 27, 24⟩
abbrev VLT_PARITY.TOTAL : Fld := ⟨.VLT_PARITY, 23, 0⟩
abbrev VLT_PARITY_INJECT.ARM : Fld := ⟨.VLT_PARITY_INJECT, 0, 0⟩
abbrev VLT_PARITY_LAST.TALLY : Fld := ⟨.VLT_PARITY_LAST, 63, 32⟩
abbrev VLT_PARITY_LAST.KIND : Fld := ⟨.VLT_PARITY_LAST, 31, 28⟩
abbrev VLT_PARITY_LAST.PORT : Fld := ⟨.VLT_PARITY_LAST, 27, 24⟩
abbrev VLT_PARITY_LAST.ADDR : Fld := ⟨.VLT_PARITY_LAST, 23, 0⟩
abbrev VLT_PROTECT.COUNT : Fld := ⟨.VLT_PROTECT, 31, 24⟩
abbrev VLT_PROTECT.ADDR : Fld := ⟨.VLT_PROTECT, 23, 0⟩
abbrev VLT_REGION.CURRENT : Fld := ⟨.VLT_REGION, 27, 27⟩
abbrev VLT_REGION.KIND : Fld := ⟨.VLT_REGION, 26, 24⟩
abbrev VLT_REGION.LENGTH : Fld := ⟨.VLT_REGION, 23, 12⟩
abbrev VLT_REGION.BASE : Fld := ⟨.VLT_REGION, 11, 0⟩

end Sys2Proof.Machine
end

