-- ==== Sys2Proof/Machine/State.lean ====
section
/-! DEFINITION. The state of the device as plain data: everything the spec gives it, the queue of commands that wait,
and the outcomes of a step. -/
namespace Sys2Proof.Machine

/-- Why the device model stops. -/
inductive Fault where
  /-- A command names a cluster, core, partition, channel, context, port or other unit that the device does not have
  (R13, R14, R16, R364).  Raised by every meaning that takes a unit number.  Safe: no such event can happen. -/
  | noSuchUnit
  deriving DecidableEq, Repr

/-- Why the model refuses a command. -/
inductive Refusal where
  /-- A command whose meaning is not written.  Raised by `exec`'s refused arms only.  Safe. -/
  | notModelled (mnemonic : String)
  deriving DecidableEq, Repr

/-- Where a core stands: a vector core is idle (halted), running, blocked or faulted; a teller may also wait in WFT or
have finished (TLR_STATUS, VEC_STATUS). -/
inductive RunState where
  | idle | running | blocked | wft | finished | faulted
  deriving DecidableEq, Repr

/-- What a blocked core waits on (R377). -/
inductive Wait where
  | credit (queue : Nat)
  | token (queue : Nat)
  | answer
  | cores (mask : Nat)
  | matrixSlot
  | matrixEntry
  | dmaTag
  | dmaEntry
  | ring (cluster : Nat)
  deriving DecidableEq, Repr

/-- A core: its registers, memories and state (R102, R104). A teller uses bit 0 of each predicate. -/
structure Core where
  g : Vector Word 32
  k : Vector DWord 8
  v : Vector (Vector Word 64) 16
  sc : Vector (Vector Word 4) 8
  gen : Vector Word 64
  pc : Nat
  run : RunState
  wait : Option Wait
  tryWait : Option (Wait × Nat)
  sticky : Nat
  imem : NMap Word
  lut : NMap Word
  deriving DecidableEq, Repr

/-- A core as it stands at power-on and at segment start (R104): registers 0, k0 all ones, every scale 1. -/
def Core.init : Core :=
  { g := Vector.replicate 32 0, k := (Vector.replicate 8 0).set 0 (BitVec.allOnes 64),
    v := Vector.replicate 16 (Vector.replicate 64 0),
    sc := Vector.replicate 8 (Vector.replicate 4 0x007F0080#32),
    gen := Vector.replicate 64 1, pc := 0, run := .idle, wait := none, tryWait := none, sticky := 0,
    imem := [], lut := [] }

/-- A cell's accumulator: value, exponent once set (R82), and whether an invalid scale made the cell invalid (R84). -/
structure Acc where
  v : Int
  e : Option Int
  invalid : Bool
  deriving DecidableEq, Repr

/-- An accumulator set: held by tile `tile` of the descriptor with serial number `job`; `order`, by which the sets that
a site's array holds stand in the order in which it began them (R90); `full` once every K-block and pass has entered it
(R464); the rows that were built from poisoned data (R178); the converted rows of a stream destination that are still to
be sent: row, lanes, scale entries, POISON (R87). -/
structure AccSet where
  job : Nat
  tile : Nat
  order : Nat
  full : Bool
  cells : NMap Acc
  poison : List Nat
  outbox : Option (List (Nat × List Word × List Word × Bool))
  deriving DecidableEq, Repr

/-- A descriptor that has started: its sixteen words, serial number, the next (tile, K-block, pass) of the array, the
tiles written back, the partials in the block registers that wait for an accumulator set (R464) with the poisoned groups
that their operands lay in and the rows that these reach, whether its array work
is done, its outcome flags and whether it had a mismatch (R97, R100), the output scale entries written as invalid. -/
structure Job where
  serial : Nat
  desc : List Word
  tile : Nat
  kblock : Nat
  pass : Nat
  written : Nat
  waiting : Option (NMap Int × List Nat × List Nat)
  arrayDone : Bool
  flags : Nat
  mismatch : Bool
  invalid : List Nat
  deriving DecidableEq, Repr

/-- The matrix core of a logical cluster (R72, R89, R90): the queue, the tags whose completion entries are reserved,
the finished entries, the started descriptors, the accumulator sets that it holds of its site's two (R464), the write-back
generators (R56). -/
structure Matrix where
  queue : List (Nat × List Word)
  reserved : List Nat
  done : List Word
  jobs : List Job
  sets : List (Option AccSet)
  serial : Nat
  gen : Vector Word 64
  deriving DecidableEq, Repr

def Matrix.init : Matrix :=
  { queue := [], reserved := [], done := [], jobs := [], sets := [none, none], serial := 0,
    gen := Vector.replicate 64 1 }

/-- An outstanding DMA request (R260, R263): tag, descriptor, whether it has started, bytes moved, whether it met
poison or a fence, packets or cells not yet answered, whether its last part was issued, the remote XID. -/
structure DmaReq where
  tag : Nat
  desc : List Word
  started : Bool
  moved : Nat
  poison : Bool
  fenced : Bool
  waiting : Nat
  issued : Bool
  xid : Nat
  status : Nat
  deriving DecidableEq, Repr

/-- The DMA engine (R260): requests in order of acceptance, completion words waiting to be popped. -/
structure Dma where
  reqs : List DmaReq
  done : List Word
  deriving DecidableEq, Repr

/-- A send of a core (R259): destination registers, whether it is a try form, its message, the answer once it is on
its way back (status and epoch), whether its sender's message unit holds it for want of space and which CMT_HEAD the
ring had then (R254). -/
structure Send where
  d : Nat
  b : Nat
  try_ : Bool
  msg : List Byte
  held : Bool
  heldAt : Nat
  answer : Option (Nat × Nat)
  deriving DecidableEq, Repr

/-- Kinds of endpoint (R174). -/
inductive EpKind where
  | token | clear | done
  deriving DecidableEq, Repr

/-- An endpoint that the active folio declares (R174) with its allocation and contents (R175, R176): credits in hand
of a SEND endpoint; slots, the part of them in extension slots and parked, and the tokens held of a RECV endpoint;
credits that a FABRIC endpoint has granted and that are neither returned nor used (R188). `pos` is the slot of the oldest
token held: the slots of the store, then the extension slots, then the parked ones are filled in turn. -/
structure Endpoint where
  send : Bool
  kind : EpKind
  peer : Nat
  peerEp : Nat
  circuit : Bool
  fabric : Bool
  count : Nat
  depth : Nat
  skew : Nat
  credits : Nat
  slots : Nat
  ext : Nat
  parked : Nat
  held : List (Token × Producer)
  pos : Nat
  deriving DecidableEq, Repr

/-- The faults of a cluster in the running tally that R97 gathers into one first record and one summary: BLOCK and
CODE of the first, and the count of each kind (audit, write-back, residue, IMEM, LUT, parity). -/
structure FaultTally where
  first : Option (Nat × Nat)
  counts : List Nat
  deriving DecidableEq, Repr

/-- A configuration that is staged in free space of a cluster's vault (R193): context, folio, the bytes of the teller,
VEC0, VEC1, LUT0, LUT1 and descriptor segments, and the 4 KiB units that they lie in. -/
structure Staged where
  cx : Nat
  folio : Nat
  parts : List (List Byte)
  units : List Nat
  deriving DecidableEq, Repr

/-- A configuration load in progress (R191, R192, R238): the context and folio, and the staged copy if it loads from it. -/
structure LoadJob where
  cx : Nat
  folio : Nat
  staged : Option Staged
  deriving DecidableEq, Repr

/-- A logical cluster: its cores, engines, endpoints and vault, the 8-byte vault groups whose parity is bad and those
whose error was reported in the running tally (R141). Its registers are in the register file; register accesses (offset,
size, value of a write) that arrived during a move wait for its end (R12). `reload`: a memory of a core faulted and is
loaded again before the rerun (R126). `closedRun`: the boundaries in a row at which it stood in a closed set (R378). -/
structure Cluster where
  site : Option Nat
  cores : Vector Core 3
  vault : NMap Byte
  bad : NMap Bool
  failed : List Nat
  matrix : Matrix
  dma : Dma
  sends : Vector (Option Send) 3
  eps : NMap (Option Endpoint)
  inSegment : Bool
  loading : Option LoadJob
  moving : Bool
  accesses : List (Nat × Nat × Option Nat)
  copyFrom : Option Nat
  staged : Option Staged
  progress : Nat
  progressSeen : Nat
  closedRun : Nat
  faults : FaultTally
  protectRecorded : Bool
  refusalRecorded : Bool
  auditHold : Bool
  auditPending : Option (DWord × DWord)
  finishCycles : Nat
  vaultLost : Bool
  reload : Bool
  deriving DecidableEq, Repr

def Cluster.init : Cluster :=
  { site := none, cores := Vector.replicate 3 Core.init, vault := [], bad := [], failed := [], matrix := Matrix.init,
    dma := ⟨[], []⟩, sends := Vector.replicate 3 none, eps := [], inSegment := false, loading := none,
    moving := false, accesses := [], copyFrom := none, staged := none, progress := 0, progressSeen := 0, closedRun := 0,
    faults := ⟨none, [0, 0, 0, 0, 0, 0]⟩, protectRecorded := false, refusalRecorded := false,
    auditHold := false, auditPending := none, finishCycles := 0,
    vaultLost := false, reload := false }

/-- A region entry of a CLUSTERS record (R199). -/
structure RegionRec where
  base : Nat
  length : Nat
  kind : Nat
  object : Nat
  offset : Nat
  deriving DecidableEq, Repr

/-- A CLUSTERS record (R199). -/
structure ClusterRec where
  cluster : Nat
  regions : List RegionRec
  deriving DecidableEq, Repr

/-- A FOLIOS record (R201). -/
structure FolioRec where
  repeat_ : Nat
  next : Nat
  first : Nat
  count : Nat
  deriving DecidableEq, Repr

/-- A FOLIO_CLUSTERS record (R202). -/
structure FolioClusterRec where
  cluster : Nat
  entry : Nat
  tellerSeg : Nat
  vecSeg : List Nat
  lutSeg : List Nat
  descSeg : Nat
  descAddr : Nat
  epFirst : Nat
  epCount : Nat
  deriving DecidableEq, Repr

/-- A SEGMENTS record (R203). -/
structure SegmentRec where
  kind : Nat
  length : Nat
  offset : Nat
  deriving DecidableEq, Repr

/-- An ENDPOINTS record (R204). -/
structure EndpointRec where
  endpoint : Nat
  flags : Nat
  peerCluster : Nat
  peerEp : Nat
  count : Nat
  slots : Nat
  depth : Nat
  skew : Nat
  deriving DecidableEq, Repr

/-- A HALOS record (R205). -/
structure HaloRec where
  folio : Nat
  halo : Nat
  src : Nat
  dst : Nat
  srcAddr : Nat
  dstAddr : Nat
  length : Nat
  slots : Nat
  dstEp : Nat
  deriving DecidableEq, Repr

/-- A CLEARING record (R206). -/
structure ClearingRec where
  folio : Nat
  tag : Nat
  contributions : Nat
  root : Nat
  rows : Nat
  base : Nat
  rootEp : Nat
  contributors : List Nat
  deriving DecidableEq, Repr

/-- A FABRIC_CIRCUITS record (R207). -/
structure FabricRec where
  folio : Nat
  inbound : Bool
  clearing : Bool
  circuit : Nat
  port : Nat
  cluster : Nat
  endpoint : Nat
  cells : Nat
  skew : Nat
  deriving DecidableEq, Repr

/-- A RINGS record (R208). -/
structure RingRec where
  ring : Nat
  cluster : Nat
  region : Nat
  maxMsg : Nat
  deriving DecidableEq, Repr

/-- A WINDOWS record (R209). -/
structure WindowRec where
  window : Nat
  object : Nat
  ops : Nat
  key : Nat
  offset : Nat
  length : Nat
  ranges : List (Nat × Nat)
  deriving DecidableEq, Repr

/-- A MEMORY_OBJECTS record (R210). -/
structure ObjectRec where
  object : Nat
  interleave : Nat
  home : Nat
  pages : Nat
  base : Nat
  init : Nat
  initOffset : Nat
  initLength : Nat
  deriving DecidableEq, Repr

/-- A MEMORY_USE record (R211). -/
structure UseRec where
  folio : Nat
  object : Nat
  use : Nat
  deriving DecidableEq, Repr

/-- A structure image as its records read (R195 to R212). `dataOffset` is where its DATA section starts, `fabricAt`
where its FABRIC_CIRCUITS section does. -/
structure Image where
  context : Nat
  steady : Bool
  budget : Nat
  pages : Nat
  fabricPorts : Nat
  clusters : List ClusterRec
  folios : List FolioRec
  folioClusters : List FolioClusterRec
  segments : List SegmentRec
  endpoints : List EndpointRec
  halos : List HaloRec
  clearing : List ClearingRec
  fabric : List FabricRec
  rings : List RingRec
  windows : List WindowRec
  objects : List ObjectRec
  uses : List UseRec
  dataOffset : Nat
  fabricAt : Nat
  signedLength : Nat
  imageLength : Nat
  ownerSigned : Bool
  digest : List Byte
  deriving DecidableEq, Repr

/-- What step 3 decided for a context (R33, R38). -/
inductive Decision where
  | none | commit | rerun | skip | fault | discard
  deriving DecidableEq, Repr

/-- Why a context stands still (R38, R338, R382, R386). -/
inductive Hold where
  | none | fault | host | suspect | quarantine
  deriving DecidableEq, Repr

/-- A context: its image and where its schedule stands (R33, R38, R104, R165, R172, R188, R377 to R388): the time base value
of its activation, the run number, whether a segment runs, is the last of its folio, or a last one was committed and the
switch is due; a request that makes the next segment a last one; the marks that step 3 acts on; the decision of this
boundary; consecutive skips; when its drain was complete and whether fabric credits are withheld; a Function Level Reset or
a context reset that is to act; as a suspect: whether a discarded segment is to be replayed, its replay passed, and how many
boundaries it lasted; whether a request met a fence; partitions whose sites reported faults; what was recorded in this
tally; whether a hang was declared that left it as it stands, and whether one was declared at this boundary; whether STOP found
it DONE; whether its context reset lasts until folio 0 is active. -/
structure Ctx where
  image : Option Image
  activatedAt : Option Nat
  runNumber : Nat
  segment : Bool
  lastSegment : Bool
  switchDue : Bool
  nextApplied : Bool
  rerunMark : Bool
  faultMark : Option Nat
  decision : Decision
  hold : Hold
  skips : Nat
  drainedAt : Option Nat
  withheld : Bool
  hostReset : Bool
  resetPending : Bool
  discarded : Bool
  replayPass : Bool
  replayBoundaries : Nat
  metFence : Bool
  faultParts : List Nat
  poisonRecorded : Bool
  leftoverRecorded : Bool
  clearRecorded : List Nat
  windowRecorded : List Nat
  hung : Bool
  hangNow : Bool
  wasDone : Bool
  inReset : Bool
  deriving DecidableEq, Repr

def Ctx.init : Ctx :=
  { image := none, activatedAt := none, runNumber := 0, segment := false, lastSegment := false, switchDue := false,
    nextApplied := false, rerunMark := false, faultMark := none, decision := .none, hold := .none,
    skips := 0, drainedAt := none, withheld := false,
    hostReset := false, resetPending := false, discarded := false,
    replayPass := false, replayBoundaries := 0, metFence := false, faultParts := [],
    poisonRecorded := false, leftoverRecorded := false, clearRecorded := [], windowRecorded := [],
    hung := false, hangNow := false, wasDone := false, inReset := false }

/-- States of a site in the placement ledger (R224). -/
inductive SiteState where
  | HOLDING | SPARE | ROTATING | PARKED | CUT | DEFECTIVE
  deriving DecidableEq, Repr

/-- The ledger entry of a site (R224), its site tag: the clusters and the tier offsets that it names (R225), its audit
window (R98), what stopped it, and, while no cluster is on it, what its vault array holds (R137) and the 8-byte groups there
whose parity is bad (R459); `marched`: a march of the whole site left its background there (R365); `arrayLast`: the cluster of a
doubled site whose set the array began last (R90). -/
structure Site where
  state : SiteState
  holds : List Nat
  tierOffsets : List Nat
  tag : List Nat
  tagOffsets : List Nat
  window : List Nat
  routerBad : Bool
  retire : Option Nat
  turn : Nat
  left : NMap Byte
  bad : NMap Bool
  marched : Bool
  arrayLast : Option Nat
  deriving DecidableEq, Repr

def Site.init : Site :=
  { state := .SPARE, holds := [], tierOffsets := [0, 0, 0], tag := [], tagOffsets := [0, 0, 0], window := [], routerBad := false,
    retire := none, turn := 0, left := [], bad := [], marched := false, arrayLast := none }

/-- An entry of the defect ledger (R227). -/
structure Defect where
  kind : Nat
  cause : Nat
  location : Nat
  tally : Nat
  deriving DecidableEq, Repr

/-- A page migration in progress (R243). -/
structure Migration where
  cx : Nat
  page : Nat
  old : List (Nat × Nat × Nat)
  new : List (Nat × Nat × Nat)
  copied : Bool
  deriving DecidableEq, Repr

/-- A circuit or halo of a loaded folio (R156, R158): context, folio, whether it is a halo, its number (halo number, or
cluster * 2048 + SEND endpoint), the outputs of its path as (router, output), its slots at the first output: none where
packets carry it (R240). -/
structure Circuit where
  cx : Nat
  folio : Nat
  halo : Bool
  id : Nat
  outputs : List (Nat × Nat)
  slots : List Nat
  deriving DecidableEq, Repr

/-- The clearing tree of a group of a loaded folio (R162): its routers; none where it runs without combining (R240). -/
structure Tree where
  cx : Nat
  folio : Nat
  tag : Nat
  routers : List Nat
  deriving DecidableEq, Repr

/-- The depth that the placer gave a RECV endpoint of a loaded folio (R175, R186): slots in all, those in extension slots
and in parked delay, and the site where the delay is parked. -/
structure DepthRec where
  cx : Nat
  folio : Nat
  cluster : Nat
  ep : Nat
  slots : Nat
  ext : Nat
  parked : Nat
  parkSite : Option Nat
  deriving DecidableEq, Repr

/-- The placer (10_placement_and_self_healing.md): sites, fault regions, the defect ledger as it stands in flash, appends
that are outstanding and whether the first failed, migrations, pages reported as without room, reservations of logical
clusters by contexts, the circuit, tree and depth choices of loaded folios, the site an unplaced cluster left, the
next local index of each partition's rotation, the site under scan, partitions whose visit is due or whose ledger array
failed, copies of the defect ledger in flash that fail their digest (R399), the partition whose array holds a ledger, spare rows used, the tally of a row's last
corrected error, rows due for a spare row, frames to be freed at the next boundary (R275), clusters reported as without a site (R236), and
folios whose circuits wait to be placed again (R157). -/
structure Placer where
  sites : NMap Site
  regions : List (Nat × Nat × Nat × Nat)
  defects : List Defect
  appends : List Defect
  migrations : List Migration
  noRoom : List (Nat × Nat)
  reserved : NMap (Option Nat)
  circuits : List Circuit
  trees : List Tree
  depths : List DepthRec
  leftSite : NMap (Option Nat)
  rotateNext : NMap Nat
  scanSite : NMap (Option Nat)
  rotateDue : List Nat
  ledgerFailed : List Nat
  ledgerBad : List Nat
  ledgerHome : NMap (Option Nat)
  spareRows : NMap Nat
  rowErrors : NMap (Option Nat)
  rowsDue : List (Nat × Nat)
  freed : List (List (Nat × Nat × Nat))
  unplaced : List Nat
  owed : List (Nat × Nat)
  deriving DecidableEq, Repr

/-- Before anything is placed. The defect ledger of a shipped part may hold sites found at manufacture, up to two in a
partition (R17): which ones the spec leaves open, and the model's part has none, DESIGN CHOICE (log 65). -/
def Placer.init : Placer :=
  { sites := [], regions := [], defects := [], appends := [], migrations := [], noRoom := [], reserved := [],
    circuits := [], trees := [], depths := [], leftSite := [], rotateNext := [], scanSite := [], rotateDue := [],
    ledgerFailed := [], ledgerBad := [], ledgerHome := [], spareRows := [], rowErrors := [], rowsDue := [],
    freed := [], unplaced := [], owed := [] }

/-- A combining buffer of a tree router (R164). -/
structure Combine where
  cx : Nat
  tag : Nat
  row : Nat
  run : Nat
  sfmt16 : Bool
  scale : Nat
  count : Nat
  lanes : List Word
  from_ : List Nat
  poison : Bool
  deriving DecidableEq, Repr

/-- An output that a packet leaves a router by: the port, whether it moves to or stays on the detour channel, the flits
sent there, the packet that arrives there: itself, or for a MCAST_RSP its copy (R151, R153). -/
structure BufOut where
  out : Port
  detour : Bool
  sent : Nat
  copy : Nat
  deriving DecidableEq, Repr

/-- A packet in the buffer of an input's virtual channel (R148): its number, the flits that have arrived there, and the
outputs allotted to it, none before its first flit has gone. -/
structure BufEntry where
  pkt : Nat
  here : Nat
  outs : List BufOut
  deriving DecidableEq, Repr

/-- A circuit flit (R156): the context and number of its circuit (as a slot entry gives them), the router and input that
it stands at, the packet that it is a flit of. -/
structure CircFlit where
  cx : Nat
  id : Nat
  router : Nat
  input : Nat
  pkt : Nat
  deriving DecidableEq, Repr

/-- The mesh (07_mesh_and_clearing.md): packets in flight in the order in which they were sent, the buffers of each
router input by virtual channel, circuit flits in flight, credits on their way back, combining buffers and rotating
pointers of each router, slot tables (active and shadow) of each router output, clearing groups completed. -/
structure Mesh where
  packets : List Packet
  buffers : NMap (List BufEntry)
  flits : List CircFlit
  credits : List (Nat × Nat)
  combine : NMap (List Combine)
  pointers : NMap Nat
  slots : NMap (Option (Nat × Nat × Nat))
  shadow : NMap (Option (Nat × Nat × Nat))
  doneGroups : List (Nat × Nat)
  deriving DecidableEq, Repr

def Mesh.init : Mesh :=
  { packets := [], buffers := [], flits := [], credits := [], combine := [], pointers := [], slots := [], shadow := [],
    doneGroups := [] }

/-- What happened to a channel in self-refresh (R282, R283, R454): it did not acknowledge the entry; its short check will
fail; its rail was lost. -/
inductive ChannelFault where
  | entry | check | rail
  deriving DecidableEq, Repr

/-- The memory (12_memory_subsystem.md): bytes of DRAM by physical place, poison bit per block, page maps, chunks in
use, lane counts, training caches and working copies, error-window counts, channels in self-refresh and what happened to
them there, channels that failed their short check and are trained again at the next bring-up (R282). -/
structure Memory where
  bytes : NMap Byte
  poison : NMap Bool
  pages : NMap (List (Nat × Nat × Nat))
  used : NMap Bool
  ceTimes : NMap (List Nat)
  ueTimes : NMap (List Nat)
  laneTimes : NMap (List Nat)
  cache : NMap Bool
  working : NMap Bool
  selfRefresh : NMap Bool
  identity : NMap Nat
  cacheIdentity : NMap Nat
  cacheTemp : NMap Nat
  fault : NMap (Option ChannelFault)
  again : NMap Bool
  deriving DecidableEq, Repr

def Memory.init : Memory :=
  { bytes := [], poison := [], pages := [], used := [], ceTimes := [], ueTimes := [], laneTimes := [],
    cache := [], working := [], selfRefresh := [], identity := [], cacheIdentity := [], cacheTemp := [],
    fault := [], again := [] }

/-- An error record of R432 (without the host ring's PHASE). DETAIL holds the fields that the owning rule names. -/
structure Record where
  injected : Bool
  severity : Nat
  block : Nat
  code : Nat
  seq : Nat
  tally : Nat
  time : Nat
  inst : Nat
  cx : Option Nat
  count : Nat
  detail : List Word
  deriving DecidableEq, Repr

/-- A link block of this package (R290, R291): SEQ, BTYPE, the credits it returns for each channel, its 26 cell positions. -/
structure OutBlock where
  seq : Nat
  btype : Nat
  credit : List Nat
  cells : List Cell
  deriving DecidableEq, Repr

/-- What the package has sent to the outside: the model's own record of its outputs, oldest first. -/
inductive Output where
  | tallyOut (edge : Nat)
  | msix (addr data : Nat)
  | linkBlock (port ack : Nat) (nak ready : Bool) (b : OutBlock)
  | linkExchange (port module features : Nat)
  | aihar (dest port : Nat) (datagram : List Byte)
  | mctp (message : List Byte)
  | mctpInterrupt (seq : Nat)
  | doe (body : List Byte)
  | ethernet (body : List Byte)
  | readData (bytes : List Byte) (status : Nat)
  | retryStatus
  | thermTrip
  | cartridgeWrite (port hours insertions module : Nat)
  deriving DecidableEq, Repr

/-- The tally's own state beside its registers (02_tally.md): number, captured edge and time base, in 10 ns steps; the
edges passed since power-on, which no load of the number and no reset of CD0 changes (windows in tallies); the source edge in ns that a Follower took in the running tally, whether it has taken one in its role, the number and period of
a cell for the next boundary, the period last taken from a cell; consecutive missed edges; whether the entropy fallback was
reported in this tally, and when a context's last cluster finished in it. -/
structure Tally where
  count : Nat
  passed : Nat
  edge : Nat
  time : Nat
  nextEdge : Nat
  sourceEdge : Option Nat
  cellTally : Option (Nat × Nat)
  cellPeriod : Option Nat
  missed : Nat
  acquired : Bool
  entropyNoted : Bool
  lastFinish : Option Nat
  deriving DecidableEq, Repr

def Tally.init : Tally :=
  { count := 0, passed := 0, edge := 0, time := 0, nextEdge := 0, sourceEdge := none, cellTally := none, cellPeriod := none, missed := 0,
    acquired := false, entropyNoted := false, lastFinish := none }

/-- A power domain (R22): off, held in reset, or in service. -/
inductive Domain where
  | off | reset | on
  deriving DecidableEq, Repr

/-- A trigger of a snapshot that has not fired yet (R438): the tally at whose boundary it fires, its source bit in
SNP_STATUS.SOURCES, whether its cell came late, the ORIGIN and ID of its cell. -/
structure Trigger where
  tally : Nat
  source : Nat
  late : Bool
  origin : Nat
  id : Nat
  deriving DecidableEq, Repr

/-- A held snapshot (R439): the edge, and the value of each register at it, with the sources it shows. -/
structure Snapshot where
  tally : Nat
  edge : Nat
  sources : Nat
  late : Bool
  origin : Nat
  id : Nat
  blocks : List (Nat × Bool × List Word)
  deriving DecidableEq, Repr

/-- The Nose (20_nose_and_management.md): the log, the SEQ each collector has acknowledged, the last samples and set
conditions of each sensor, floor entries in the last second, the time since no condition holds, each source's
requests in the last second, outstanding triggers and the held snapshot, the last 16 (ORIGIN, ID) pairs, DRP_COUNT of each
partition when it was last sampled. -/
structure Nose where
  log : List Record
  acked : NMap (Option Nat)
  samples : NMap (List Int)
  absent : NMap Bool
  conditions : NMap Bool
  floorTimes : List Nat
  lastCondition : Option Nat
  requests : List (Nat × Nat)
  triggers : List Trigger
  snapshot : Option Snapshot
  pairs : List (Nat × Nat)
  nextId : Nat
  droops : NMap Nat
  deriving DecidableEq, Repr

def Nose.init : Nose :=
  { log := [], acked := [], samples := [], absent := [], conditions := [], floorTimes := [],
    lastCondition := none, requests := [], triggers := [], snapshot := none, pairs := [], nextId := 0, droops := [] }

/-- A submission record that was fetched and has not finished (R335, R336): its 64 bytes, how many tallies had opened when the
poll fetched it, whether it has started (a COPY) or has been taken over to act at a boundary. -/
structure Command where
  bytes : List Byte
  boundary : Nat
  started : Bool
  deriving DecidableEq, Repr

/-- A completion record waiting for its ring (R339). -/
structure CompRec where
  type : Nat
  status : Nat
  tag : Nat
  folio : Nat
  committed : Nat
  detail : Nat
  deriving DecidableEq, Repr

/-- The rings of a context (R334 to R341): expected phase of the submission ring and phase of the completion ring, fetched
commands in ring order, whether a MSG waits for space, completions of commands and conditions not yet written, whether a
segment was committed at this boundary, records held, backlogged polls in a row, whether an overload was signalled,
commits since activation. -/
structure Rings where
  sqPhase : Bool
  cqPhase : Bool
  queue : List Command
  msgWaits : Bool
  due : List CompRec
  conditions : List Nat
  segDone : Bool
  held : List CompRec
  backlogged : Nat
  overloaded : Bool
  committed : Nat
  deriving DecidableEq, Repr

def Rings.init : Rings :=
  { sqPhase := true, cqPhase := true, queue := [], msgWaits := false, due := [], conditions := [], segDone := false,
    held := [], backlogged := 0, overloaded := false, committed := 0 }

/-- The host interface (14_host_interface.md): configuration state of the endpoint, the MSI-X table, per-vector
message state, the phase of the error ring, the DOE mailbox and whether it shows an error, the two BARs as configuration
requests wrote them (four words, R329), ring commands of MSG_RING_CTRL
waiting for step 4. -/
structure HostIf where
  ready : Bool
  perst : Bool
  memorySpace : Bool
  bar2Log : Nat
  d3 : Bool
  msixOn : Bool
  bars : NMap Nat
  msixAddr : NMap Nat
  msixData : NMap Nat
  msixMask : NMap Bool
  msixPending : NMap Bool
  gotRecord : NMap Bool
  lastMessage : NMap (Option Nat)
  errPhase : Bool
  overloadMessage : Bool
  doeRequest : Option (List Byte)
  doeResponse : Option (List Byte)
  doeError : Bool
  ringCmds : List (Nat × Nat × Nat)
  rings : NMap Rings
  deriving DecidableEq, Repr

def HostIf.init : HostIf :=
  { ready := false, perst := true, memorySpace := false, bar2Log := 0, d3 := false, msixOn := false, bars := [],
    msixAddr := [], msixData := [], msixMask := [], msixPending := [], gotRecord := [], lastMessage := [],
    errPhase := true, overloadMessage := false, doeRequest := none, doeResponse := none, doeError := false, ringCmds := [],
    rings := [] }

/-- An inbound half of a binding (R312 to R314): SSEQ, TOTAL once a token has come, the tokens logged with their INDEX,
the indices passed to the endpoint in the running segment, whether it was acknowledged. -/
structure InHalf where
  sseq : Nat
  total : Option Nat
  tokens : List (Nat × Token)
  passed : List Nat
  acked : Bool
  deriving DecidableEq, Repr

/-- A sealed outbound half (R312, R313): SSEQ, tokens, whether its transmission has started, the next of its cells, the time
at which its last cell went, and which of its tokens an ADD action has used (R318). -/
structure OutHalf where
  sseq : Nat
  tokens : List Token
  sent : Bool
  next : Nat
  lastAt : Nat
  used : List Nat
  deriving DecidableEq, Repr

/-- The running state of a binding (R310 to R318): the open outbound half, the sealed ones, the SSEQ of the next one,
GRANTs held, inbound halves, GRANTs sent and not yet returned or used, the SSEQ that the next commit consumes, the
pass buffer of an ADD action (SSEQ, INDEX, TOTAL, token), whether the active folio
uses it, whether its clearing error was recorded in the running tally, the endpoint it feeds. -/
structure Binding where
  open_ : Option (List Token)
  sealed : List OutHalf
  nextSseq : Nat
  grants : List Nat
  halves : List InHalf
  granted : List Nat
  consume : Nat
  pass : List (Nat × Nat × Nat × Token)
  active : Bool
  recorded : Bool
  target : Option (Nat × Nat)
  deriving DecidableEq, Repr

def Binding.init : Binding :=
  { open_ := none, sealed := [], nextSseq := 0, grants := [], halves := [], granted := [], consume := 0,
    pass := [], active := false, recorded := false, target := none }

/-- A packet cell that waits for an output: the input by which it entered (24: it starts here), the channel whose buffer it
holds there, and the cell with its route field consumed (R299, R302). -/
structure QueuedCell where
  input : Nat
  buf : Nat
  cell : PacketCell
  deriving DecidableEq, Repr

/-- A fabric port (13_cikel_fabric.md): cells waiting at its inputs by virtual channel, cells delivered here, circuit
cells arrived, packet and circuit cells waiting for its output, the rotating pointer of each channel there (R302), credits
held and to be returned by virtual channel, the SEQ of its next block, the replay buffer with the place that a resend has
come to (R292), the next SEQ expected, whether a resend is awaited and a NAK is due, NAKs in a row and the block they name,
its partner's licensed features (R289), the three banks of its circuit and slot tables, held staging writes, entries known
bad, tokens being put together, its cartridge; for the hours that the Nose counts (R328), the time at which the transmitter
went on, and how long it was on before, not yet counted, in 10 ns; `resetting`: the retraining that a reset of the port
started still lasts (R376). -/
structure FabPort where
  inputs : NMap (List PacketCell)
  delivered : List PacketCell
  circuitIn : List CircuitCell
  outq : List QueuedCell
  circOut : List CircuitCell
  pointers : NMap Nat
  credit : NMap Nat
  toReturn : NMap Nat
  nextSeq : Nat
  blocks : List OutBlock
  resendAt : Nat
  expect : Nat
  awaiting : Bool
  nakDue : Bool
  naks : Nat
  nakAck : Option Nat
  partner : Nat
  ccur : NMap Nat
  cprev : NMap Nat
  cstag : NMap Nat
  scur : NMap Nat
  sprev : NMap Nat
  sstag : NMap Nat
  heldWrites : List (Bool × Nat × Nat)
  badCircuit : List Nat
  badSlot : List Nat
  badRoute : List Nat
  badEscape : List Nat
  parts : NMap (List CircuitCell)
  cartridge : Option Cartridge
  onAt : Option Nat
  onFor : Nat
  resetting : Bool
  deriving DecidableEq, Repr

def FabPort.init : FabPort :=
  { inputs := [], delivered := [], circuitIn := [], outq := [], circOut := [], pointers := [], credit := [], toReturn := [],
    nextSeq := 0, blocks := [], resendAt := 0, expect := 0, awaiting := false, nakDue := false, naks := 0, nakAck := none,
    partner := 0, ccur := [], cprev := [], cstag := [], scur := [], sprev := [], sstag := [], heldWrites := [],
    badCircuit := [], badSlot := [], badRoute := [], badEscape := [], parts := [], cartridge := none, onAt := none, onFor := 0,
    resetting := false }

/-- A transaction of a remote DMA request that has been sent (R316): target module and XID, cluster and DMA tag, whether
it reads, vault address, length, the INDEX of the data cells received. -/
structure RemoteTx where
  toModule : Nat
  xid : Nat
  cluster : Nat
  tag : Nat
  read : Bool
  addr : Nat
  len : Nat
  got : List Nat
  deriving DecidableEq, Repr

/-- An accepted WREQ whose WDATA are still to come (R316, R317): requester, XID, the port it came by, the request cell,
context, logical memory address, length, whether a write of it was answered FENCED or met a failed channel, data received by
INDEX, the partitions that were in service when it was accepted (R381). -/
structure RemoteWrite where
  src : Nat
  xid : Nat
  port : Nat
  cell : PacketCell
  cx : Nat
  addr : Nat
  len : Nat
  bad : Bool
  data : List (Nat × List Byte)
  took : List Nat
  deriving DecidableEq, Repr

/-- The fabric: ports, bindings by port * 256 + binding, the route and escape tables that every port copies (R298, R304),
remote transactions sent and writes being received, ports whose table needed a spare row and had none (R323). -/
structure Fabric where
  ports : NMap FabPort
  binds : NMap Binding
  route : NMap Nat
  escape : NMap Nat
  tx : List RemoteTx
  writes : List RemoteWrite
  spoiled : List Nat
  deriving DecidableEq, Repr

def Fabric.init : Fabric :=
  { ports := [], binds := [], route := [], escape := [], tx := [], writes := [], spoiled := [] }

/-- An envelope that was verified and stored in flash, or started (R409, R414): KIND, SIGNER, SEQUENCE, BODY_DIGEST, and
byte 0 of a licence's body. -/
structure Envelope where
  kind : Nat
  signer : Nat
  sequence : Nat
  digest : List Byte
  variant : Nat
  deriving DecidableEq, Repr

/-- A request for attestation that waits (R421, R424): OP, nonce, where it came from, its XID. -/
structure AttRequest where
  op : Nat
  nonce : List Byte
  source : Requester
  xid : Nat
  deriving DecidableEq, Repr

/-- The security engine (19_security.md): the active and pending slot of each KIND 1 to 4 in flash, whether the active one
is slot B (R414), whether the start-up test of the entropy source still lasts (R419), whether the identity key has been made
(R406), the security versions
in fuses, owner keys and policy, the envelope of each component that runs in this boot, the measurement log, whether the
challenge was drawn or a draw waits, the flash copies of the key state, the leaf that signed the bottom tree, requests
that wait, the time-base value at which the unlock ends, the voltage trims in flash, the four life-cycle fuses, and the
address and length of the envelope of the command that runs. -/
structure Security where
  active : NMap (Option Envelope)
  pendingSlot : NMap (Option Envelope)
  inSlotB : NMap Bool
  svn : NMap Nat
  ownerKeys : NMap (Option (List Byte))
  policy : Nat
  running : NMap (Option Envelope)
  log : List (Nat × Nat × Nat × List Byte)
  challengeValid : Bool
  challengeDue : Bool
  startTest : Bool
  keyMade : Bool
  keyCopies : List (Option Nat)
  waiting : List AttRequest
  unlockEnd : Option Nat
  trims : NMap Nat
  lifeFuses : Nat
  command : Option (Nat × Nat)
  deriving DecidableEq, Repr

/-- Flash and fuses as the factory leaves them: one platform firmware, one Nose firmware and one pattern set signed by
the firmware root with SEQUENCE 0, no licence, no owner key, no key state, and the fuses of Production (log entry 2). -/
def Security.init : Security :=
  { active := [(1, some ⟨1, 0, 0, Config.factoryDigest 1, 0⟩), (2, some ⟨2, 0, 0, Config.factoryDigest 2, 0⟩),
      (3, some ⟨3, 0, 0, Config.factoryDigest 3, 0⟩)]
    pendingSlot := [], inSlotB := [], svn := [], ownerKeys := [], policy := 0, running := [], log := [],
    challengeValid := false, challengeDue := false, startTest := true, keyMade := true, keyCopies := [none, none], waiting := [], unlockEnd := none,
    trims := [], lifeFuses := 0b0011, command := none }

/-- The command that the IMG block performs (R216 to R220): a LOAD that fetches, with the address and length it was
given and whether the policy refused unsigned images when it started; a LOAD that was checked, with the image's bytes; an
ACTIVATE; an UNLOAD. -/
inductive ImageJob where
  | idle
  | fetch (cx addr len : Nat) (policy : Bool)
  | checked (cx : Nat) (bytes : List Byte)
  | activate (cx : Nat)
  | unload (cx : Nat)
  deriving DecidableEq, Repr

/-- A change of a partition's operating point or voltage in progress (R352, R357): a raise to a point, whose voltage
settles before the clock is switched; a trim; a lowering to a point, whose clock is switched before the voltage falls. -/
inductive PointChange where
  | none
  | raise (point : Nat)
  | trim
  | lower (point : Nat) (switched : Bool)
  deriving DecidableEq, Repr

/-- The power controller's state of a partition (R345, R346, R352 to R359): the target of a transition in progress, the
command it holds, the change in progress, the point whose voltage is in force, whether the clock is stretched, whether it
is in the thermal floor, whether a third abort in a row has not been acted on, whether a lowering was stopped and is to be
retried. -/
structure PartPower where
  goal : Option Nat
  held : Option Nat
  change : PointChange
  volt : Nat
  stretched : Bool
  hot : Bool
  abandonDue : Bool
  lowering : Bool
  deriving DecidableEq, Repr

def PartPower.init : PartPower :=
  { goal := none, held := none, change := .none, volt := 15, stretched := false, hot := false, abandonDue := false,
    lowering := false }

/-- The power controller (15_power_and_thermal.md): partitions; loops of the running tally, those that found E above 0,
the sums of their measured fabric, memory and compute power, and of each partition's; a PWR_STATE_CTRL that came due and
has not acted; PWR_BRAKE_N low; a boundary seen since it rose; THERM_TRIP_N asserted; whether the ports are held in electrical
idle, from a Hold that acts until a partition leaves Hold. -/
structure Power where
  parts : NMap PartPower
  loops : Nat
  hotLoops : Nat
  watts : List Nat
  partWatts : NMap Nat
  command : Option DWord
  brakeLow : Bool
  brakeHigh : Bool
  thermTrip : Bool
  portsHeld : Bool
  deriving DecidableEq, Repr

def Power.init : Power :=
  { parts := [], loops := 0, hotLoops := 0, watts := [0, 0, 0], partWatts := [], command := none, brakeLow := false,
    brakeHigh := true, thermTrip := false, portsHeld := false }

/-- The work of a test engine (R363, R364, R367): a scan slice of a site, or a march slice: site, unit, block of 128 rows,
background. -/
inductive Work where
  | scan (site : Nat)
  | march (site unit block background : Nat)
  deriving DecidableEq, Repr

def Work.isScan : Work → Bool
  | .scan _ => true
  | .march .. => false

/-- A slice that failed once and is to be repeated (R369): partition, work, the row and element it failed at, the tally. -/
structure Failed where
  part : Nat
  work : Work
  row : Nat
  element : Nat
  tally : Nat
  deriving DecidableEq, Repr

/-- A confirmed failure that acts at step 7 (R369): site, unit (30 for scan), row. -/
structure Confirmed where
  site : Nat
  unit : Nat
  row : Nat
  deriving DecidableEq, Repr

/-- A plan that was accepted (R372, R373): its number, its partitions, its sites, and whether it has started. -/
structure TestPlan where
  plan : Nat
  mask : Nat
  sites : List Nat
  started : Bool
  deriving DecidableEq, Repr

/-- Built-in self-test (16_self_test.md): the work of each engine (partition * 8 + engine) with whether it is a repeat,
whether the test window is open, slices that failed once, the next march slice of each site, the local index of each
partition's next site, the next pattern of each partition's scan, confirmed failures, sites that RETEST found good, the FIFO of result records, the plan, whether
RAW is enabled, whether the field entries of the ledger go at the next bring-up, whether PATTERNS_INVALID was
reported, and the words that raw writes left in units whose cells the model does not hold elsewhere. -/
structure SelfTest where
  engines : NMap (Option (Work × Bool))
  window : Bool
  once : List Failed
  position : NMap Nat
  turn : NMap Nat
  pattern : NMap Nat
  confirmed : List Confirmed
  restored : List Nat
  results : List (List Byte)
  plan : Option TestPlan
  raw : Bool
  clearDue : Bool
  invalidReported : Bool
  cells : NMap Nat
  deriving DecidableEq, Repr

def SelfTest.init : SelfTest :=
  { engines := [], window := false, once := [], position := [], turn := [], pattern := [], confirmed := [], restored := [],
    results := [], plan := none, raw := false, clearDue := false, invalidReported := false, cells := [] }

/-- A partition reset in progress (R383, R384): the time its fence was raised, whether its suspects are replayed, whether
steps 2 to 6 have ended, the packets that its units had accepted when the fence was raised (R381). -/
structure PartReset where
  raised : Nat
  replay : Bool
  ready : Bool
  accepted : List Nat
  deriving DecidableEq, Repr

/-- Recovery (17_fault_recovery.md): the reset of each partition, dies whose platform is in reset, the context that
replays, the suspects of each declared hang that these replays follow, and the suspects that hung again. -/
structure Recovery where
  parts : NMap (Option PartReset)
  dies : NMap Bool
  replaying : Option Nat
  hang : List (List Nat)
  hungAgain : List Nat
  deriving DecidableEq, Repr

def Recovery.init : Recovery := { parts := [], dies := [], replaying := none, hang := [], hungAgain := [] }

/-- Bring-up (18_bring_up.md): the step in progress with its outcome so far (code, notes, budget in ms), the last step that
completed with CODE OK, how often the step after it failed and with which code, whether BRG_LEDGER was met in this
power-up, the memory partitions that step 3 switched on, the notes that have their record (bits of NOTES, and bit 8 for
COLD_RETRAIN, which shares bit 7). -/
structure BringUp where
  running : Option (Nat × Nat × Nat × Nat)
  done : Nat
  failures : Nat
  failCode : Nat
  ledgerLost : Bool
  switchedOn : List Nat
  noted : Nat
  deriving DecidableEq, Repr

def BringUp.init : BringUp :=
  { running := none, done := 0, failures := 0, failCode := 0, ledgerLost := false, switchedOn := [], noted := 0 }

/-- The device. -/
structure State where
  regs : NMap DWord
  rwt : NMap (Option DWord)
  low : NMap (Option Word)
  tally : Tally
  clusters : NMap Cluster
  ctxs : NMap Ctx
  placer : Placer
  mesh : Mesh
  fabric : Fabric
  memory : Memory
  domains : NMap Domain
  nose : Nose
  host : HostIf
  security : Security
  imageJob : ImageJob
  power : Power
  test : SelfTest
  recovery : Recovery
  bringUp : BringUp
  fresh : Nat
  hostMem : NMap Byte
  hostPoison : NMap Bool
  out : List Output
  pending : List Instr
  deriving DecidableEq, Repr

/-- The device held in power-on reset (R450): every register at its reset value, every memory with nothing listed.
POWER_ON_RESET, the release of AON_POR_N, starts it. -/
def State.reset : State :=
  { regs := [], rwt := [], low := [], tally := Tally.init, clusters := [], ctxs := [], placer := Placer.init,
    mesh := Mesh.init, fabric := Fabric.init, memory := Memory.init, domains := [], nose := Nose.init, host := HostIf.init,
    security := Security.init, imageJob := .idle, power := Power.init, test := SelfTest.init, recovery := Recovery.init,
    bringUp := BringUp.init, fresh := 0, hostMem := [], hostPoison := [], out := [], pending := [] }

end Sys2Proof.Machine
end

