-- ==== Sys2Proof/Machine/Regs.lean ====
section
/-! DEFINITION. The register file: reading and writing registers and their fields, and the addresses of BAR0
(00_scope.md R6 to R11; 21_address_map.md R441 to R446). -/
namespace Sys2Proof.Machine

/-- The key of instance `i` of a register in the register file. -/
def regKey (r : Reg) (i : Nat) : Nat := r.num * 2 ^ 20 + i

/-- The register whose key is `k`. -/
def regOfKey (k : Nat) : Option Reg := Reg.all[k / 2 ^ 20]?

/-- What an unwritten register holds: its reset value (R11). -/
def regDefault (k : Nat) : DWord :=
  match regOfKey k with
  | some r => BitVec.ofNat 64 r.info.reset
  | none => 0

/-- The value instance `i` of register `r` holds. -/
def State.rget (s : State) (r : Reg) (i : Nat) : DWord := mget regDefault s.regs (regKey r i)

/-- Set instance `i` of register `r`. -/
def State.rset (s : State) (r : Reg) (i : Nat) (v : DWord) : State :=
  { s with regs := mput regDefault s.regs (regKey r i) v }

/-- Bits [hi:lo] of a 64-bit value. -/
def fieldOf (v : DWord) (hi lo : Nat) : Nat := (v.toNat >>> lo) % 2 ^ (hi + 1 - lo)

/-- The mask of bits [hi:lo]. -/
def fieldMask (hi lo : Nat) : DWord := BitVec.ofNat 64 ((2 ^ (hi + 1 - lo) - 1) * 2 ^ lo)

/-- A 64-bit value with bits [hi:lo] replaced by the low bits of `x`. -/
def withField (v : DWord) (hi lo x : Nat) : DWord :=
  (v &&& ~~~(fieldMask hi lo)) ||| (BitVec.ofNat 64 (x * 2 ^ lo) &&& fieldMask hi lo)

/-- A field of instance `i`. -/
def State.fget (s : State) (f : Fld) (i : Nat) : Nat := fieldOf (s.rget f.reg i) f.hi f.lo

/-- Set a field of instance `i`. -/
def State.fset (s : State) (f : Fld) (i x : Nat) : State :=
  s.rset f.reg i (withField (s.rget f.reg i) f.hi f.lo x)

/-- Set or clear a one-bit field. -/
def State.fbit (s : State) (f : Fld) (i : Nat) (b : Bool) : State := s.fset f i b.toNat

/-- A one-bit field. -/
def State.fon (s : State) (f : Fld) (i : Nat) : Bool := s.fget f i != 0

/-- The largest value of a field. -/
def Fld.maxVal (f : Fld) : Nat := 2 ^ (f.hi + 1 - f.lo) - 1

/-- Count up a counter field by `n`; counters saturate. -/
def State.fadd (s : State) (f : Fld) (i n : Nat) : State := s.fset f i (min (s.fget f i + n) f.maxVal)

/-- Count up a counter field; counters saturate. -/
def State.finc (s : State) (f : Fld) (i : Nat) : State := s.fadd f i 1

/-- The mask of a register's fields with access code `a` (R7). -/
def Reg.mask (r : Reg) (a : Access) : DWord :=
  r.info.fields.foldl (fun m f => if f.access = a then m ||| fieldMask f.hi f.lo else m) 0

/-- The offset of instance index `d` of a register's block offset list: `d` is the distance from the first instance.
Answers the instance number and the distance left within its word. -/
def matchDims (dims : List (Nat × Nat)) (d : Nat) : Option (Nat × Nat) :=
  match dims with
  | [] => some (0, d)
  | [(s, c)] => if d / s < c then some (d / s, d % s) else none
  | (s, c) :: (s2, c2) :: _ =>
    if d / s < c ∧ (d % s) / s2 < c2 then some ((d / s) * c2 + (d % s) / s2, d % s % s2) else none

/-- The RWT fields of a register take a value (R8). -/
def State.putRwtFields (s : State) (r : Reg) (i : Nat) (v : DWord) : State :=
  s.rset r i ((s.rget r i &&& ~~~(r.mask .RWT)) ||| (v &&& r.mask .RWT))

/-- How many instances a register has within one region. -/
def RegInfo.instances (r : RegInfo) : Nat := r.dims.foldl (fun a d => a * d.2) 1

/-- The region of the address map that an instance of a register lies in: its partition, port or cluster. -/
def regionOf (r : Reg) (i : Nat) : Nat := i / r.info.instances

/-- Where an offset within region `region` of kind `k` falls in register `r`: the instance, and whether it is the upper
word of a 64-bit register (R6, R443, R446). -/
def matchReg (k : RegKind) (region off : Nat) (r : Reg) : Option (Reg × Nat × Bool) :=
  let i := r.info
  let base := i.block + i.off
  if i.kind = k ∧ base ≤ off then
    match matchDims i.dims (off - base) with
    | some (n, 0) => some (r, region * i.instances + n, false)
    | some (n, 4) => if i.wide then some (r, region * i.instances + n, true) else none
    | _ => none
  else none

/-- What a BAR0 address names: a register instance and word (R441 to R446). -/
def bar0Region (a : Nat) : Option (RegKind × Nat × Nat) :=
  if a < 0x00100000 then some (.G, 0, a)
  else if 0x00800000 ≤ a ∧ a < 0x00B00000 then
    some (.F, (a - 0x00800000) / 0x20000, (a - 0x00800000) % 0x20000)
  else if 0x01000000 ≤ a ∧ a < 0x02800000 then
    some (.P, (a - 0x01000000) / 0x200000, (a - 0x01000000) % 0x200000)
  else if 0x03000000 ≤ a ∧ a < 0x03480000 then
    some (.C, (a - 0x03000000) / 0x4000, (a - 0x03000000) % 0x4000)
  else if 0x03F00000 ≤ a ∧ a < 0x04000000 then some (.N, 0, a - 0x03F00000)
  else none

/-- The register that a BAR0 address names, its instance, and whether the address is that of its upper word. -/
def bar0Reg (a : Nat) : Option (Reg × Nat × Bool) :=
  match bar0Region a with
  | none => none
  | some (k, region, off) => Reg.all.findSome? (matchReg k region off)

end Sys2Proof.Machine
end

