-- ==== Sys2Proof/Machine/Ops.lean ====
section
/-! DEFINITION. The operations that every family shares: the parts of the state by number, error records on their way to
the Nose, marks for rerun and Fault, and the vault with its region table and parity. -/
namespace Sys2Proof.Machine

open Sys2Proof

/-! ### Parts of the state by number -/

def State.cl (s : State) (L : Nat) : Cluster := mget (fun _ => Cluster.init) s.clusters L

def State.setCl (s : State) (L : Nat) (c : Cluster) : State :=
  { s with clusters := mput (fun _ => Cluster.init) s.clusters L c }

def State.updCl (s : State) (L : Nat) (f : Cluster → Cluster) : State := s.setCl L (f (s.cl L))

def State.cx (s : State) (c : Nat) : Ctx := mget (fun _ => Ctx.init) s.ctxs c

def State.setCx (s : State) (c : Nat) (x : Ctx) : State :=
  { s with ctxs := mput (fun _ => Ctx.init) s.ctxs c x }

def State.updCx (s : State) (c : Nat) (f : Ctx → Ctx) : State := s.setCx c (f (s.cx c))

def State.site (s : State) (n : Nat) : Site := mget (fun _ => Site.init) s.placer.sites n

def State.setSite (s : State) (n : Nat) (x : Site) : State :=
  { s with placer := { s.placer with sites := mput (fun _ => Site.init) s.placer.sites n x } }

def State.updSite (s : State) (n : Nat) (f : Site → Site) : State := s.setSite n (f (s.site n))

def State.ring (s : State) (c : Nat) : Rings := mget (fun _ => Rings.init) s.host.rings c

def State.updRing (s : State) (c : Nat) (f : Rings → Rings) : State :=
  { s with host := { s.host with rings := mput (fun _ => Rings.init) s.host.rings c (f (s.ring c)) } }

/-- The state after each element of a list has been taken in turn. -/
def State.forEach {α : Type} (l : List α) (f : α → State → State) (s : State) : State :=
  l.foldl (fun s a => f a s) s

/-- Numbers of the power domains of R22. -/
def domAon : Nat := 0
def domPcie : Nat := 1
def domPlat (d : Nat) : Nat := 2 + d
def domFab (d : Nat) : Nat := 6 + d
def domArr (p : Nat) : Nat := 10 + p
def domMem (p : Nat) : Nat := 22 + p

/-- Before bring-up only PD_AON is powered (R392). -/
def domDefault (k : Nat) : Domain := if k = 0 then .on else .off

def State.domain (s : State) (k : Nat) : Domain := mget domDefault s.domains k

def State.setDomain (s : State) (k : Nat) (d : Domain) : State :=
  { s with domains := mput domDefault s.domains k d }

/-- The domain is in service. -/
def State.up (s : State) (k : Nat) : Bool := s.domain k == .on

/-- The die of a partition, of a fabric port (numbering schemes of 00_scope.md). -/
def dieOfPart (p : Nat) : Nat := p / 3
def dieOfPort (n : Nat) : Nat := n / 6

/-- The partition that owns a logical cluster. -/
def partOf (L : Nat) : Nat := L / 24

/-- The partition a site lies in: site (x, y) has number 42 y + x; a partition is 7 columns by 4 rows (R13, R223). -/
def partOfSite (n : Nat) : Nat :=
  let x := n % 42
  let y := n / 42
  let die := (if x < 21 then 0 else 1) + (if y < 4 then 0 else 2)
  die * 3 + (x % 21) / 7

/-- A site's local index within its partition (R223). -/
def localIndex (n : Nat) : Nat := 7 * ((n / 42) % 4) + (n % 42 % 21) % 7

/-- The site of a local index. -/
def siteOf (p i : Nat) : Nat :=
  let d := dieOfPart p
  42 * (4 * (d / 2) + i / 7) + 21 * (d % 2) + 7 * (p % 3) + i % 7

/-- The partition whose site holds the cluster: the hosting partition of a lent one (R234). -/
def State.hostPart (s : State) (L : Nat) : Nat :=
  match (s.cl L).site with
  | some n => partOfSite n
  | none => partOf L

/-- The context that has reserved a logical cluster (R216). -/
def State.owner (s : State) (L : Nat) : Option Nat := mget (fun _ => none) s.placer.reserved L

def State.setOwner (s : State) (L : Nat) (c : Option Nat) : State :=
  { s with placer := { s.placer with reserved := mput (fun _ => none) s.placer.reserved L c } }

/-- The clusters that a context has reserved, in ascending order. -/
def State.clustersOf (s : State) (c : Nat) : List Nat :=
  s.placer.reserved.filterMap fun e => if e.2 = some c then some e.1 else none

/-- The partition is fenced (R380). -/
def State.fenced (s : State) (p : Nat) : Bool := s.fon FNC_PART_STATUS.FENCED p

/-- The clusters of a partition cannot start a segment (R36, R344, R352): it is not Active, a voltage is being raised for
it, or its clock is to be lowered. -/
def State.clockBusy (s : State) (p : Nat) : Bool :=
  s.fget PWR_PART_STATUS.STATE p != 0
    || match (mget (fun _ => PartPower.init) s.power.parts p).change with
      | .none => false
      | .raise _ => true
      | .trim => true
      | .lower _ switched => !switched

/-- The vault, cores and engines of a cluster can be reached: it is placed, and its host's domain is in service and not
fenced (R152, R236). -/
def State.reachable (s : State) (L : Nat) : Bool :=
  (s.cl L).site.isSome && s.up (domArr (s.hostPart L)) && !s.fenced (s.hostPart L)

/-- The next free value's number, and the state that has taken it. -/
def State.take (s : State) : Nat × State := (s.fresh, { s with fresh := s.fresh + 1 })

def State.emit (s : State) (o : Output) : State := { s with out := s.out ++ [o] }

/-- TLY_COUNT[31:0]. -/
def State.count32 (s : State) : Nat := s.tally.count % 2 ^ 32

/-! ### Fault regions and paths -/

/-- A router lies in a fault region (x0, y0, x1, y1). -/
def regionHas (r : Nat × Nat × Nat × Nat) (q : Nat × Nat) : Bool :=
  decide (r.1 ≤ q.1) && decide (q.1 ≤ r.2.2.1) && decide (r.2.1 ≤ q.2) && decide (q.2 ≤ r.2.2.2)

/-- A region that spans all rows or all columns parts two routers on its two sides (R154). -/
def regionParts (r : Nat × Nat × Nat × Nat) (a b : Nat × Nat) : Bool :=
  (r.2.1 == 0 && r.2.2.2 == 7
      && ((decide (a.1 < r.1) && decide (r.2.2.1 < b.1)) || (decide (b.1 < r.1) && decide (r.2.2.1 < a.1))))
    || (r.1 == 0 && r.2.2.1 == 41
      && ((decide (a.2 < r.2.1) && decide (r.2.2.2 < b.2)) || (decide (b.2 < r.2.1) && decide (r.2.2.2 < a.2))))

/-- Two routers are disconnected (R154). -/
def State.parted (s : State) (a b : Nat × Nat) : Bool := s.placer.regions.any fun r => regionParts r a b

/-- The partition of a router. -/
def partOfXY (q : Nat × Nat) : Nat := partOfSite (42 * q.2 + q.1)

/-- The next router in dimension order: along the row first (R153). -/
def orderNext (q d : Nat × Nat) : Nat × Nat :=
  if q.1 < d.1 then (q.1 + 1, q.2) else if d.1 < q.1 then (q.1 - 1, q.2)
  else if q.2 < d.2 then (q.1, q.2 + 1) else (q.1, q.2 - 1)

/-- The dimension-order path to a destination, at most `n` routers of it. -/
def orderPath (d : Nat × Nat) : Nat → Nat × Nat → List (Nat × Nat)
  | 0, _ => []
  | n + 1, q => if q = d then [] else orderNext q d :: orderPath d n (orderNext q d)

/-- The dimension-order path crosses a die whose platform is in reset or off (R24). -/
def State.crossesDown (s : State) (a d : Nat × Nat) : Bool :=
  (a :: orderPath d 50 a).any fun q => !s.up (domPlat (dieOfPart (partOfXY q)))

/-- Why traffic between two routers does not get through: 2 UNREACHABLE where the mesh is partitioned between them, 1
FENCED where a die platform on its way is in reset (R24, R154). -/
def State.transit (s : State) (a d : Nat × Nat) : Option Nat :=
  if s.parted a d then some 2 else if s.crossesDown a d then some 1 else none

/-- The last router of a path before one that is down or lies in a region that parts its ends: the router on the live
side, which refuses what cannot go on (R152); that the near side of a partitioned mesh refuses is DEDUCED. -/
def State.liveEnd (s : State) (a d : Nat × Nat) : Nat × Nat :=
  ((a :: orderPath d 50 a).takeWhile fun q =>
    s.up (domPlat (dieOfPart (partOfXY q))) && !(s.placer.regions.any fun r => regionParts r a d && regionHas r q)).getLastD a

/-- The router that refuses traffic: its destination's, or the last on the live side (R152, R154). -/
def State.refuser (s : State) (a d : Nat × Nat) : Nat × Nat :=
  if (s.transit a d).isSome then s.liveEnd a d else d

/-! ### Where units attach (R159, R160) -/

/-- The router of a cluster's site (R13). -/
def State.clusterXY (s : State) (L : Nat) : Nat × Nat :=
  match (s.cl L).site with
  | some n => (n % 42, n / 42)
  | none => (0, 0)

/-- The router by which a unit's traffic leaves the mesh in edge mode, or its nearest point in spread mode (R159, R160):
`other` is the router at the far end. -/
def nearest (x0 y0 : Nat) (ox oy : Nat) : Nat × Nat :=
  let cx := min (max ox x0) (x0 + 6)
  let cy := min (max oy y0) (y0 + 3)
  let dx := cx - x0
  (x0 + (dx - dx % 2), cy)

/-- The first column and row of a partition (R13, R159). -/
def partOrigin (p : Nat) : Nat × Nat := (21 * (dieOfPart p % 2) + 7 * (p % 3), 4 * (dieOfPart p / 2))

/-- The outer row of a partition. -/
def outerRow (p : Nat) : Nat := if p < 6 then 0 else 7

/-- The injection point of a port at column offset `off` of the outer row of partition `p` (R159, R160). -/
def State.attach (s : State) (p off : Nat) (other : Nat × Nat) : Nat × Nat :=
  let (x0, y0) := partOrigin p
  if s.fon MSH_ATTACH.CURRENT p then nearest x0 y0 other.1 other.2 else (x0 + off, outerRow p)

/-- The router at which a unit attaches, for traffic whose other end is `other` (R159). -/
def State.unitXY (s : State) (u : MeshUnit) (other : Nat × Nat) : Nat × Nat :=
  match u with
  | .cluster L _ => s.clusterXY L
  | .channel p ch => s.attach p (ch % 7) other
  | .port n => s.attach (n / 2) (if n % 2 = 0 then 2 else 4) other
  | .pcie => if s.fon MSH_ATTACH.CURRENT 0 then s.attach 0 0 other else (0, 1)

/-! ### Registers in BAR0 (R330, R331, R404) -/

/-- Memory requests reach the device. -/
def State.barsOn (s : State) : Bool := s.host.ready && s.up domPcie && s.host.memorySpace && !s.host.d3

/-- Global blocks in PD_AON: SEC, LCS, ATT, LIC and CRT. -/
def aonBlocks : List Nat := [0x4000, 0x5000, 0x6000, 0x7000, 0x15000]

/-- The power domain in which instance `i` of a register answers (R22, R442, R443): the domain of its block. -/
def State.regDomain (s : State) (r : Reg) (i : Nat) : Nat :=
  match r.info.kind with
  | .N => domAon
  | .G => if aonBlocks.contains r.info.block then domAon else if r.info.block = 0x17000 then domPcie else domPlat 0
  | .P => domPlat (dieOfPart (regionOf r i))
  | .F => domFab (dieOfPort (regionOf r i))
  | .C => domArr (s.hostPart (regionOf r i))

/-- The bring-up step after which a register answers (R404). -/
def Reg.step (r : Reg) (write : Bool) : Nat :=
  match r.info.kind with
  | .N => 0
  | .P | .F => 3
  | .C => 7
  | .G =>
    if ([0x0, 0x3000, 0xE000, 0x17000] ++ aonBlocks).contains r.info.block then 0
    else if r.info.block = 0x8000 then (if write then 3 else 0)
    else if r.info.block = 0xB000 then 7 else 3

/-- A register of a cluster that no site holds (R236). -/
def State.unplacedReg (s : State) (r : Reg) (i : Nat) : Bool :=
  r.info.kind == .C && (s.cl (regionOf r i)).site.isNone && decide (7 ≤ s.bringUp.done)

/-- CODE of a bring-up whose step 1 failed (R405). -/
def brgFirmware := 3

/-- After BRG_FIRMWARE the Nose and the firmware update path in SEC serve until a package cold reset (R405), with PCI, BRG and
RST, by which the host sees the code and resets the package: DEDUCED, log entry 49. -/
def State.firmwareServes (s : State) (r : Reg) : Bool :=
  s.bringUp.failCode != brgFirmware || r.info.kind == .N
    || (r.info.kind == .G && [0x3000, 0x4000, 0xE000, 0x17000].contains r.info.block)

/-- The router at which register packets reach the block of a register: the site of a cluster, the attachment of a port; the
first router of a partition for the blocks in its die's platform, DESIGN CHOICE, log entry 80. A global block lies beside the
endpoint, on CD0. -/
def State.regRouter (s : State) (r : Reg) (i : Nat) : Option (Nat × Nat) :=
  match r.info.kind with
  | .C => some (s.clusterXY (regionOf r i))
  | .F => some (s.unitXY (.port (regionOf r i)) (0, 1))
  | .P => some (partOrigin (regionOf r i))
  | _ => none

/-- The mesh carries an access from the PCIe endpoint to the block, and the answer of a read back: no die on its way is in
reset, and no region parts the two (R24, R154). -/
def State.regCarried (s : State) (r : Reg) (i : Nat) (write : Bool) : Bool :=
  match s.regRouter r i with
  | none => true
  | some d =>
    let a := s.unitXY .pcie d
    (s.transit a d).isNone && (write || (s.transit d a).isNone)

/-- The block of a register is in service and reached, its domain is on and not fenced. -/
def State.served (s : State) (r : Reg) (i : Nat) (write : Bool) : Bool :=
  s.up (s.regDomain r i) && decide (r.step write ≤ s.bringUp.done) && s.firmwareServes r && s.regCarried r i write
    && !(r.info.kind == .C && s.fenced (s.hostPart (regionOf r i)))

/-- A write to a register arrives over BAR0: it has its effect; or the device does not take memory requests; or it is
ignored (R236); or it is answered with Completer Abort, or dropped, and counted (R331). -/
def State.writeTo (s : State) (r : Reg) (i : Nat) (act : State → State) : State :=
  if !s.barsOn then s
  else if !s.up (domPlat 0) then s.finc PCI_ACCESS_ERR.FENCED 0
  else if s.unplacedReg r i then s
  else if s.served r i true then act s
  else s.finc PCI_ACCESS_ERR.FENCED 0

/-- The offset of an instance of a register in its region (R446). -/
def Reg.offset (r : Reg) (i : Nat) : Nat :=
  let j := i % r.info.instances
  r.info.block + r.info.off + match r.info.dims with
    | [] => 0
    | [(d, _)] => j * d
    | (d, _) :: (e, m) :: _ => j / m * d + j % m * e

/-- A register access that arrives while its cluster is being moved waits for the end of the move (R12). -/
def State.holdAccess (s : State) (L off size : Nat) (w : Option Nat) : State :=
  s.updCl L fun k => { k with accesses := k.accesses ++ [(off, size, w)] }

/-- A write of `v` to a register of a cluster arrives over BAR0, with the effect `act`. -/
def State.writeCl (s : State) (r : Reg) (i v : Nat) (act : State → State) : State :=
  if s.barsOn && s.up (domPlat 0) && (s.cl (regionOf r i)).moving then s.holdAccess (regionOf r i) (r.offset i) 4 (some v)
  else s.writeTo r i act

/-! ### Host memory -/

def zeroByte : Nat → Byte := fun _ => 0
def noFlag : Nat → Bool := fun _ => false

def State.hostRead (s : State) (a n : Nat) : List Byte := mslice zeroByte s.hostMem a n

/-- The 32-byte pieces of host memory that a range touches: the device marks poisoned data (R336) by these. -/
def hostPieces (a n : Nat) : List Nat := if n = 0 then [] else (List.range ((a + n - 1) / 32 - a / 32 + 1)).map (a / 32 + ·)

def noPoison : Nat → Bool := fun _ => false

/-- A range of host memory holds poisoned data. -/
def State.hostPoisoned (s : State) (a n : Nat) : Bool := (hostPieces a n).any fun k => mget noPoison s.hostPoison k

/-- The device writes data to host memory, as good data or as poisoned data. -/
def State.hostPut (s : State) (a : Nat) (b : List Byte) (poison : Bool) : State :=
  { s with
    hostMem := mrun zeroByte s.hostMem a b
    hostPoison := mputs noPoison s.hostPoison ((hostPieces a b.length).map fun k => (k, poison)) }

def State.hostWrite (s : State) (a : Nat) (b : List Byte) : State := s.hostPut a b false

/-! ### Error records -/

/-- Block numbers of R432. -/
def blkTLY := 1
def blkMXC := 2
def blkVEC := 3
def blkTLR := 4
def blkVLT := 5
def blkMSH := 6
def blkFOL := 7
def blkIMG := 8
def blkPLC := 9
def blkMSG := 10
def blkDMA := 11
def blkMEM := 12
def blkFAB := 13
def blkPCI := 14
def blkSUB := 15
def blkPWR := 16
def blkDRP := 17
def blkAGE := 18
def blkBST := 19
def blkSCN := 20
def blkHNG := 21
def blkFNC := 22
def blkRST := 23
def blkBRG := 24
def blkSEC := 25
def blkLCS := 26
def blkATT := 27
def blkLIC := 28
def blkNOS := 29
def blkMGT := 30
def blkSNP := 31
def blkCRT := 32

/-- Severities of R432. -/
def sevInfo := 0
def sevWarning := 1
def sevError := 2
def sevFatal := 3

/-- Conditions whose records the spec gives no CODE (R432, R463): a budget that no longer fits (R37), a partitioned mesh
(R154), a poisoned read (R272), lost data (R286), too few channels (R287), an expired cartridge (R328), a cap that
cannot be met (R348), an abandoned change (R355), a trim beyond its limit (R357), trips (R359, R360), a lost source (R42), invalid patterns
(R368), a pending licence that fails (R398), a rebuilt ledger (R399), a request (R430), a channel that became GOOD (R284),
a bring-up note (R405). -/
inductive Uncoded where
  | budget | partitioned | poisonRead | dataLost | belowGuarantee | expired | capUnmet | abandoned | trimLimit
  | thermalTrip | criticalTrip | regulatorFault | lost | patternsInvalid | licenceFailed | ledgerRebuilt | request
  | channelGood
  | note (bit : Nat)
  deriving DecidableEq, Repr

/-- The CODE of such a record is a free value. -/
def Uncoded.code : Uncoded → Nat
  | .note b => (Config.recordCode (32 + b)).toNat
  | u => (Config.recordCode u.ctorIdx).toNat

/-- The 64 bytes of an error record with a PHASE (R432). -/
def Record.toBytes (r : Record) (phase : Bool) : List Byte :=
  leBytes 4 (phase.toNat + 2 * r.injected.toNat + 4 * r.severity + 2 ^ 8 * r.block + 2 ^ 16 * r.code)
  ++ leBytes 4 r.seq ++ leBytes 8 r.tally ++ leBytes 8 r.time
  ++ leBytes 4 (r.inst % 2 ^ 16 + 2 ^ 16 * (r.cx.getD 0 % 16) + 2 ^ 20 * r.cx.isNone.toNat)
  ++ leBytes 4 r.count
  ++ ((r.detail ++ List.replicate 8 0#32).take 8).flatMap fun w => leBytes 4 w.toNat

/-- Entries of a ring of SIZE (R334). -/
def ringEntries (size : Nat) : Nat := 2 ^ (size + 4)

/-- Write a record to the host error ring while it is enabled and PD_PCIE and PD_PLAT0 are in service; a record that
finds the ring full is counted (R433, R339). -/
def State.toErrorRing (s : State) (r : Record) : State :=
  if s.fon SUB_ERR_RING.ENABLE 0 && s.up domPcie && s.up (domPlat 0) && s.fget SUB_ERR_RING.SIZE 0 ≤ 12 then
    let n := ringEntries (s.fget SUB_ERR_RING.SIZE 0)
    let tail := s.fget SUB_ERR_HEAD.TAIL 0
    if (tail + 1) % n = s.fget SUB_ERR_HEAD.HEAD 0 then s.finc NOS_HOST_DROPPED.COUNT 0
    else
      let s := s.hostWrite (s.fget SUB_ERR_RING.ADDR 0 * 64 + 64 * tail) (r.toBytes s.host.errPhase)
      let s := { s with host := { s.host with
        errPhase := if tail + 1 = n then !s.host.errPhase else s.host.errPhase,
        gotRecord := mput (fun _ => false) s.host.gotRecord 0 true } }
      s.fset SUB_ERR_HEAD.TAIL 0 ((tail + 1) % n)
  else s

/-! ### Packet cells to a fabric port (R298, R299, R302) -/

def zeroNat : Nat → Nat := fun _ => 0

def State.fp (s : State) (n : Nat) : FabPort := mget (fun _ => FabPort.init) s.fabric.ports n

def State.setFp (s : State) (n : Nat) (p : FabPort) : State :=
  { s with fabric := { s.fabric with ports := mput (fun _ => FabPort.init) s.fabric.ports n p } }

def State.updFp (s : State) (n : Nat) (f : FabPort → FabPort) : State := s.setFp n (f (s.fp n))

def portIdle := 0
def portTraining := 1
def portUp := 2
def portRetraining := 3
def portDown := 4
def portHeld := 5

def State.portState (s : State) (n : Nat) : Nat := s.fget FAB_PORT_STATUS.STATE n

/-- A port's transmitter is on in TRAINING, UP and RETRAINING (R328). -/
def transmits (st : Nat) : Bool := st == portTraining || st == portUp || st == portRetraining

/-- The time for which a port's transmitter has been on and which is not yet counted. -/
def State.litTime (s : State) (n : Nat) : Nat :=
  (s.fp n).onFor + match (s.fp n).onAt with
    | some t => s.tally.time - t
    | none => 0

/-- The transmitter of a port that takes state `st` goes on or off. -/
def State.light (s : State) (n st : Nat) : State :=
  match (s.fp n).onAt, transmits st with
  | none, true => s.updFp n fun p => { p with onAt := some s.tally.time }
  | some _, false => s.updFp n fun p => { p with onAt := none, onFor := s.litTime n }
  | _, _ => s

/-- A port takes a state; a reset of it lasts while it trains or retrains (R376). -/
def State.setPort (s : State) (n st code : Nat) : State :=
  let s := if (s.fp n).resetting && st != portTraining && st != portRetraining then s.updFp n fun p => { p with resetting := false }
    else s
  ((s.light n st).fset FAB_PORT_STATUS.STATE n st).fset FAB_PORT_STATUS.CODE n code

/-- A port can send on its link. -/
def State.linkOpen (s : State) (n : Nat) : Bool := s.portState n == portUp && s.fon FAB_PORT_STATUS.PARTNER_READY n

/-- A cell reads its route field and leaves its ingress port there; the next field is PTR + 1 (R299). -/
def consumeField (c : PacketCell) (ingress : Nat) : PacketCell :=
  if c.ptr < 14 then { c with route := c.route.set c.ptr ingress, ptr := c.ptr + 1 } else { c with revValid := false }

/-- A request on VC0 that an RSP answers (R300). -/
def isRequest (c : PacketCell) : Bool := c.kind == 0 || c.kind == 1

/-- A request of this module that a port of its own discards is answered with RSP 0x12 along its reverse path, which ends
here (R300): the answer shows the module that was asked. -/
def State.ownRsp (s : State) (via : Nat) (c : PacketCell) : State :=
  if isRequest c then
    s.updFp via fun p => { p with delivered := p.delivered ++
      [{ c with vc := 1, kind := 4, src := c.dst, dst := c.src, payload := 0x12#8 :: List.replicate 31 0 }] }
  else s

/-- A cell that starts at this module: it crosses to the port that field 0 names, waits there for the port's output, and 24
is written in the field (R298, R299). A field 0 of 24 delivers it at the port it entered by. A reserved value, or a port
that is not UP, discards it as ROUTE_ERR (R300). -/
def State.sendCell (s : State) (via : Nat) (c : PacketCell) : State :=
  match c.route[0]? with
  | none => s
  | some f =>
    let c := consumeField { c with src := s.fget FAB_MODULE.MODULE 0 } 24
    if f = 24 then s.updFp via fun p => { p with delivered := p.delivered ++ [c] }
    else if f < 24 && s.portState f == portUp then s.updFp f fun p => { p with outq := p.outq ++ [⟨24, c.vc, c⟩] }
    else (s.finc FAB_PORT_DISCARD.ROUTE via).ownRsp via c

/-- The ports named in SNP_FWD that are UP and whose partner is READY (R440). -/
def State.triggerPorts (s : State) : List Nat :=
  (List.range Config.nPorts).filter fun n =>
    (s.fget SNP_FWD.PORTS 0).testBit n && s.linkOpen n

/-- A cell on VC2 to the neighbour at a port: fields 0 and 1 of ROUTE are the port and 24 (R440). -/
def State.neighbourCell (s : State) (n kind : Nat) (payload : List Byte) : PacketCell :=
  { vc := 2, esc := false, revValid := true, ptr := 0, kind := kind, route := [n, 24] ++ List.replicate 12 0, src := 0,
    dst := s.fget FAB_PORT_NEIGHBOUR.MODULE n, xid := 0, index := 0,
    payload := (payload ++ List.replicate 32 0).take 32 }

/-- TRIGGER cells go out on the ports of SNP_FWD (R440). -/
def State.sendTriggers (s : State) (tally id origin : Nat) : State :=
  s.forEach s.triggerPorts fun n s => s.sendCell n (s.neighbourCell n 7 (leBytes 8 tally ++ leBytes 2 id ++ leBytes 2 origin))

/-- Remember a pair of ORIGIN and ID among the last 16 (R440). -/
def State.rememberPair (s : State) (p : Nat × Nat) : State :=
  { s with nose := { s.nose with pairs := (p :: s.nose.pairs).take 16 } }

/-- A trigger of this package for a tally: it has the next ID, its pair is remembered, and it is forwarded when SNP_FWD.PORTS
is not 0 (R440). -/
def State.ownTrigger (s : State) (tally : Nat) : State :=
  let origin := s.fget FAB_MODULE.MODULE 0
  let id := s.nose.nextId
  let s := { s with nose := { s.nose with nextId := (id + 1) % 2 ^ 16 } }.rememberPair (origin, id)
  if s.fget SNP_FWD.PORTS 0 ≠ 0 then s.sendTriggers tally id origin else s

/-- A local snapshot trigger (R438): it fires at the next tally, or LEAD tallies on when SNP_FWD.PORTS is not 0. -/
def State.localTrigger (s : State) (source : Nat) : State :=
  let tally := (s.tally.count + if s.fget SNP_FWD.PORTS 0 ≠ 0 then max 1 (s.fget SNP_FWD.LEAD 0) else 1) % 2 ^ 64
  { s with nose := { s.nose with
    triggers := s.nose.triggers ++ [(⟨tally, source, false, s.fget FAB_MODULE.MODULE 0, s.nose.nextId⟩ : Trigger)] }
      : State }.ownTrigger tally

/-- A collector's address: IPv4 in word 0, or the four words of an IPv6 address (MGT_COLLECTOR). -/
def State.collectorAddr (s : State) (k : Nat) : Nat :=
  let w := fun i => s.fget MGT_COLLECTOR_ADDR.ADDR (4 * k + i)
  if s.fon MGT_COLLECTOR.IPV6 k then w 0 + 2 ^ 32 * w 1 + 2 ^ 64 * w 2 + 2 ^ 96 * w 3 else w 0

/-- The collectors in use. -/
def State.collectors (s : State) : List Nat := [0, 1].filter fun k => s.fon MGT_COLLECTOR.VALID k

/-- Aihar is in service on the management port. -/
def State.aiharOn (s : State) : Bool := s.fon MGT_CTRL.ENABLE 0 && s.fon MGT_CTRL.LINK 0

/-- An Aihar datagram (R435): the 20-byte header and its part of the body. Numbers are little-endian: PRESUMED. -/
def State.datagram (s : State) (op status xid off : Nat) (body : List Byte) : List Byte :=
  [0x41, 0x49, 0x48, 0x52] ++ leBytes 1 op ++ leBytes 1 status ++ leBytes 2 body.length ++ leBytes 4 xid
    ++ leBytes 2 (s.fget FAB_MODULE.MODULE 0) ++ leBytes 2 0 ++ leBytes 4 off ++ body

/-- A datagram leaves by the management port. -/
def State.sendDatagram (s : State) (dest op status xid off : Nat) (body : List Byte) : State :=
  s.emit (.aihar dest (s.fget MGT_CTRL.PORT 0) (s.datagram op status xid off body))

/-- An unsolicited datagram goes to every valid collector. -/
def State.push (s : State) (op xid : Nat) (body : List Byte) : State :=
  if s.aiharOn then s.forEach s.collectors fun k s => s.sendDatagram (s.collectorAddr k) op 0 xid 0 body else s

/-- The Nose accepts a record: logs it, assigns SEQ, and routes it (R433); an error trigger may follow (R438).
The minimal responder logs nothing (R431). -/
def State.accept (s : State) (e : ErrorRecord) (count : Nat) : State :=
  if s.fon NOS_STATUS.MINIMAL 0 then s
  else
    let seq := s.fget NOS_LOG.NEXT_SEQ 0
    let r : Record :=
      { injected := e.injected, severity := e.severity, block := e.block, code := e.code, seq := seq,
        tally := s.tally.count, time := s.tally.time, inst := e.inst, cx := e.cx, count := count,
        detail := e.detail }
    let full := s.nose.log.length ≥ 4096
    let s := s.fset NOS_LOG.NEXT_SEQ 0 (seq + 1)
    let s := if full then s.finc NOS_STATUS.LOG_LOST 0 else s
    let s := { s with nose := { s.nose with log := (if full then s.nose.log.drop 1 else s.nose.log) ++ [r] } }
    let s := s.push 9 seq (r.toBytes false)
    let s := s.emit (.mctpInterrupt seq)
    let s := s.toErrorRing r
    if s.fon SNP_CTRL.ERROR_ENABLE 0 && s.fget SNP_CTRL.MIN_SEVERITY 0 ≤ e.severity then s.localTrigger 3 else s

/-- An error record of one occurrence goes to the Nose. -/
def State.report (s : State) (severity block code inst : Nat) (cx : Option Nat) (detail : List Word) : State :=
  s.accept ⟨false, severity, block, code, inst, cx, detail⟩ 1

/-! ### Marks that step 3 acts on -/

/-- Mark the context for Fault at the next boundary with a completion status; the first mark stands (R38, R339). -/
def State.markFault (s : State) (c status : Nat) : State :=
  s.updCx c fun x => { x with faultMark := some (x.faultMark.getD status) }

/-- Mark the context of a cluster for Fault. -/
def State.markClusterFault (s : State) (L status : Nat) : State :=
  match s.owner L with
  | some c => s.markFault c status
  | none => s

/-- Note a mismatching tally in a site's audit window; a tally counts once (R98). -/
def State.noteSite (s : State) (n : Nat) : State :=
  s.updSite n fun x =>
    if x.window.head? = some s.tally.count then x else { x with window := s.tally.count :: x.window }

/-- Note it in the window of a cluster's site. -/
def State.noteWindow (s : State) (L : Nat) : State :=
  match (s.cl L).site with
  | some n => s.noteSite n
  | none => s

/-- The numbers of the arrays under SECDED, as SPARE_ROW entries of the defect ledger name them, are DESIGN CHOICE: a
ledger array has the number of its partition, a teller instruction memory 256 and its site. -/
def imemArray (n : Nat) : Nat := 256 + n

/-- The slot tables of a router have the number 1,024 and its own; a port's route, escape, circuit and slot tables have
2,048 and 4 times the port, and 0 to 3: DESIGN CHOICE as above. -/
def slotArray (router : Nat) : Nat := 1024 + router
def fabArray (n : Nat) (t : FabTable) : Nat := 2048 + 4 * n + t.ctorIdx

/-- The spare rows of an array (R144). -/
def spareRowsOf (array : Nat) : Nat := if array < 12 then 8 else if 1024 ≤ array ∧ array < 2048 then 2 else 4

/-- A corrected error of a row: the second within 2^20 tallies makes it due for a spare row at step 7 (R145). -/
def State.noteRow (s : State) (array row : Nat) : State :=
  let k := array * 65536 + row
  match mget (fun _ => none) s.placer.rowErrors k with
  | some t =>
    if s.tally.passed ≤ t + 2 ^ 20 then
      { s with placer := { s.placer with
          rowErrors := mput (fun _ => none) s.placer.rowErrors k none
          rowsDue := s.placer.rowsDue ++ [(array, row)] } }
    else { s with placer := { s.placer with
          rowErrors := mput (fun _ => none) s.placer.rowErrors k (some s.tally.passed) } }
  | none => { s with placer := { s.placer with
          rowErrors := mput (fun _ => none) s.placer.rowErrors k (some s.tally.passed) } }

/-- The kinds of fault that share the record of R97. -/
inductive HwKind where
  | audit | writeback | residue | imem | lut | parity
  deriving DecidableEq, Repr

def HwKind.index : HwKind → Nat
  | .audit => 0 | .writeback => 1 | .residue => 2 | .imem => 3 | .lut => 4 | .parity => 5

/-- Site numbers are shown in Development and Return (R223). -/
def State.showSites (s : State) : Bool := s.fget LCS_STATE.STATE 0 == 1 || s.fget LCS_STATE.STATE 0 == 3

/-- Records show the site of a cluster (R97, R223). -/
def State.siteDetail (s : State) (L : Nat) : List Word :=
  if s.showSites then
    match (s.cl L).site with
    | some n => [BitVec.ofNat 32 n]
    | none => []
  else []

/-- The first fault of a cluster in the tally sends a record, and later ones are counted for the summary (R97). -/
def State.hwSend (s : State) (L : Nat) (k : HwKind) (block code : Nat) (injected : Bool) (detail : List Word) : State :=
  match (s.cl L).faults.first with
  | none =>
    (s.updCl L fun c => { c with faults := { c.faults with first := some (block, code) } }).accept
      ⟨injected, sevWarning, block, code, L, s.owner L, detail⟩ 1
  | some _ => s.updCl L fun c => { c with faults := { c.faults with
      counts := c.faults.counts.set k.index (c.faults.counts.getD k.index 0 + 1) } }

/-- A fault that R97 gathers: its record, and the site's window unless it was injected (R98). -/
def State.hwRecord (s : State) (L : Nat) (k : HwKind) (block code : Nat) (injected : Bool) (detail : List Word) : State :=
  (if injected then s else s.noteWindow L).hwSend L k block code injected detail

/-- The segment of a cluster's context is marked for rerun; the partition reported a fault. -/
def State.markRerun (s : State) (L : Nat) : State :=
  match s.owner L with
  | some x => s.updCx x fun x => { x with rerunMark := true, faultParts := s.hostPart L :: x.faultParts }
  | none => s

/-- A hardware fault handled under R97: the segment is marked for rerun, and the fault recorded. -/
def State.hwFault (s : State) (L : Nat) (k : HwKind) (block code : Nat) (injected : Bool) (detail : List Word) :
    State :=
  (s.markRerun L).hwRecord L k block code injected detail

/-- Advance a cluster's progress counter (R378). -/
def State.progress (s : State) (L : Nat) : State := s.updCl L fun c => { c with progress := c.progress + 1 }

/-! ### The vault: region table, protection, parity -/

/-- An entry of a region table (R133). -/
structure Region where
  base : Nat
  length : Nat
  kind : Nat
  current : Nat
  deriving DecidableEq, Repr

/-- VLT_REGION of region `r` of cluster `L`, in bytes. -/
def State.region (s : State) (L r : Nat) : Region :=
  let i := L * 16 + r
  { base := s.fget VLT_REGION.BASE i * 4096, length := s.fget VLT_REGION.LENGTH i * 4096,
    kind := s.fget VLT_REGION.KIND i, current := s.fget VLT_REGION.CURRENT i }

/-- Bytes a region covers: twice its length if it is carried. -/
def Region.span (r : Region) : Nat := if r.kind = 2 then 2 * r.length else r.length

/-- The region that covers an address, with its number; none in free space (R133). -/
def State.regionAt (s : State) (L a : Nat) : Option (Nat × Region) :=
  (List.range 16).findSome? fun i =>
    let r := s.region L i
    if r.kind ≠ 0 ∧ r.base ≤ a ∧ a < r.base + r.span then some (i, r) else none

/-- The address lies in the current half of a carried region. -/
def Region.inCurrent (r : Region) (a : Nat) : Bool :=
  r.kind == 2 && decide ((a - r.base) / r.length = r.current)

/-- The 4 KiB units that [a, a+n) touches; regions and halves end at unit boundaries. -/
def unitsOf (a n : Nat) : List Nat :=
  if n = 0 then [] else (List.range ((a + n - 1) / 4096 - a / 4096 + 1)).map fun i => max a ((a / 4096 + i) * 4096)

/-- A read of [a, a+n) breaks no rule of R134: it touches no free space. -/
def State.readOk (s : State) (L a n : Nat) : Bool := (unitsOf a n).all fun u => (s.regionAt L u).isSome

/-- The ports of the vault in the order of R131, and the scrub of R143. -/
inductive VPort where
  | teller | vec0 | vec1 | matrixA | matrixB | writeBack | dma | message | mesh | fill | scrub
  deriving DecidableEq, Repr

def VPort.num : VPort → Nat
  | .teller => 0 | .vec0 => 1 | .vec1 => 2 | .matrixA => 3 | .matrixB => 4 | .writeBack => 5 | .dma => 6
  | .message => 7 | .mesh => 8 | .fill => 9 | .scrub => 10

/-- The ports of the message unit and the cores, which alone write a ring region (R133). -/
def VPort.writesRing : VPort → Bool
  | .teller => true | .vec0 => true | .vec1 => true | .message => true
  | _ => false

/-- A store to [a, a+n) breaks no rule of R133 and R134: no free space, no constant region, no current half, and a ring
region only by the message unit and the cluster's cores. -/
def State.writeOk (s : State) (L a n : Nat) (port : VPort) : Bool :=
  (unitsOf a n).all fun u =>
    match s.regionAt L u with
    | none => false
    | some (_, r) => r.kind != 3 && !r.inCurrent u && (r.kind != 4 || port.writesRing)

/-- A region violation (R134). -/
def State.violate (s : State) (L a : Nat) : State :=
  let s := s.finc VLT_PROTECT.COUNT L
  let s := s.fset VLT_PROTECT.ADDR L a
  let s := if (s.cl L).protectRecorded then s
    else (s.updCl L fun c => { c with protectRecorded := true }).report sevError blkVLT 4 L (s.owner L)
      [BitVec.ofNat 32 a]
  s.markClusterFault L 0x04

/-- The bank of a vault address: 8 * TIER + BANK (R129). -/
def bankOf (a : Nat) : Nat := 8 * bitsOf a 23 22 + bitsOf a 7 5

/-- The record of a parity error holds the vault address, and in Development and Return the site and bank (R141). -/
def State.parityDetail (s : State) (L a : Nat) : List Word :=
  let site := s.siteDetail L
  BitVec.ofNat 32 a :: (if site.isEmpty then [] else site ++ [BitVec.ofNat 32 (bankOf a)])

/-- A parity error is counted and latched with the region kind of its word, 0 for free space (VLT_PARITY_LAST). -/
def State.parityLatch (s : State) (L kind g : Nat) (port : VPort) (injected : Bool) : State :=
  let s := s.finc VLT_PARITY.TOTAL L
  let s := if injected then s.finc VLT_PARITY.INJECTED L else s
  s.rset .VLT_PARITY_LAST L
    (BitVec.ofNat 64 (s.count32 * 2 ^ 32 + kind * 2 ^ 28 + port.num * 2 ^ 24 + 8 * g))

/-- A parity error in a cluster's own vault: counted and latched, and the group is put right at the boundary (R141). -/
def State.parityCount (s : State) (L g : Nat) (port : VPort) (injected : Bool) : State :=
  let kind := match s.regionAt L (8 * g) with | some (_, r) => r.kind | none => 0
  (s.parityLatch L kind g port injected).updCl L fun c => { c with failed := if g ∈ c.failed then c.failed else g :: c.failed }

/-- The group lies in a current half or a ring region, whose data no rerun can restore (R142). -/
def State.irreparable (s : State) (L g : Nat) : Bool :=
  match s.regionAt L (8 * g) with
  | some (_, r) => r.kind == 4 || r.inCurrent (8 * g)
  | none => false

/-- Committed data of a cluster is lost: counted, reported, and the context stopped (R142). -/
def State.parityLost (s : State) (L g : Nat) : State :=
  ((s.finc VLT_PARITY.LOST L).report sevError blkVLT 5 L (s.owner L) [BitVec.ofNat 32 (8 * g)]).markClusterFault L 0x05

/-- A parity error found in the 8-byte group `g` (R141, R142): counted, latched, reported, the segment marked for rerun;
in a current half or a ring region the context is stopped. -/
def State.parityError (s : State) (L g : Nat) (port : VPort) (injected : Bool) : State :=
  let s := (s.parityCount L g port injected).hwFault L .parity blkVLT 1 injected (s.parityDetail L (8 * g))
  if s.irreparable L g then s.parityLost L g else s

/-- The 8-byte groups of [a, a+n). -/
def groupsOf (a n : Nat) : List Nat :=
  if n = 0 then [] else (List.range ((a + n - 1) / 8 - a / 8 + 1)).map (a / 8 + ·)

/-- The group on which an armed injection reports an error: the first of those read that lies in a scratch region
(VLT_PARITY_INJECT). -/
def State.injectGroup (s : State) (L : Nat) (gs : List Nat) : Option Nat :=
  if s.fon VLT_PARITY_INJECT.ARM L then
    gs.find? fun g =>
      match s.regionAt L (8 * g) with
      | some (_, r) => r.kind == 1
      | none => false
  else none

/-- The parity check of a read of 8-byte groups (R140, R141): the groups delivered poisoned, and the state. -/
def State.checkGroups (s : State) (L : Nat) (gs : List Nat) (port : VPort) : List Nat × State :=
  let bad := gs.filter fun g => mget (fun _ => false) (s.cl L).bad g
  let s1 := s.forEach bad fun g s => s.parityError L g port false
  match s1.injectGroup L gs with
  | some g => (g :: bad, (s1.fset VLT_PARITY_INJECT.ARM L 0).parityError L g port true)
  | none => (bad, s1)

/-- The parity check of a read of [a, a+n): whether any of it was delivered poisoned. -/
def State.checkParity (s : State) (L a n : Nat) (port : VPort) : Bool × State :=
  let (bad, s') := s.checkGroups L (groupsOf a n) port
  (!bad.isEmpty, s')

/-- Bytes with their addresses. -/
def addressed (a : Nat) : List Byte → List (Nat × Byte)
  | [] => []
  | b :: t => (a, b) :: addressed (a + 1) t

/-! ### Reads that the device makes for itself in free space (R459) -/

/-- The 4 KiB units of a cluster's vault that no region covers. -/
def State.freeUnits (s : State) (L : Nat) : List Nat :=
  (List.range (Config.vaultBytes / 4096)).filter fun u => (s.regionAt L (4096 * u)).isNone

/-- Groups written by the device for itself have good parity. -/
def State.freshGroups (s : State) (L : Nat) (gs : List Nat) : State :=
  s.updCl L fun c => { c with bad := mputs (fun _ => false) c.bad (gs.map fun g => (g, false)) }

/-- The groups with bad parity in some 4 KiB units of a vault. -/
def State.badIn (s : State) (L : Nat) (units : List Nat) : List Nat :=
  ((s.cl L).bad.filter fun e => e.2 && units.contains (e.1 / 512)).map (·.1)

/-- The 4 KiB units are written by the device for itself. -/
def State.freshUnits (s : State) (L : Nat) (units : List Nat) : State :=
  s.updCl L fun c => { c with bad := mkeep (fun g => !units.contains (g / 512)) c.bad }

/-- The device's own read of groups in free space: each bad one is counted, reported and noted in the window, the segment
is marked for rerun where its data belonged to it, and the words are made good before they are used again. Answers
whether any was bad. -/
def State.ownRead (s : State) (L : Nat) (gs : List Nat) (port : VPort) (rerun : Bool) : Bool × State :=
  let bad := gs.filter fun g => mget (fun _ => false) (s.cl L).bad g
  if bad.isEmpty then (false, s)
  else
    let s := s.forEach bad fun g s =>
      let s := (s.parityCount L g port false).hwRecord L .parity blkVLT 1 false (s.parityDetail L (8 * g))
      if rerun then s.markRerun L else s
    let s := s.updCl L fun c => { c with
      vault := mputs zeroByte c.vault (bad.flatMap fun g => addressed (8 * g) (List.replicate 8 0))
      failed := c.failed.filter fun g => !bad.contains g }
    (true, s.freshGroups L bad)

/-- A byte of the background that a march leaves in a row (R365). -/
def backgroundByte (g row : Nat) : Byte := if g = 0 then 0 else if row % 2 = 0 then 0x55 else 0xAA

/-- What an unlisted byte of a site's own array holds: background 1 after a march of the whole site, which runs it last
(R365, R371). -/
def Site.ground (x : Site) : Nat → Byte := fun a => if x.marched then backgroundByte 1 (a / 256) else 0

/-- The device's own read, for cluster `L`, of groups in the vault of a site without a cluster, where delay is parked (R186):
the errors are `L`'s, the window and the record's site are those of site `n` (R98, R459). -/
def State.spareRead (s : State) (L n : Nat) (gs : List Nat) (port : VPort) : State :=
  let bad := gs.filter fun g => mget (fun _ => false) (s.site n).bad g
  let s := s.forEach bad fun g s =>
    let site := if s.showSites then [BitVec.ofNat 32 n, BitVec.ofNat 32 (bankOf (8 * g))] else []
    (((s.parityLatch L 0 g port false).noteSite n).hwSend L .parity blkVLT 1 false (BitVec.ofNat 32 (8 * g) :: site)).markRerun L
  s.updSite n fun x => { x with
    left := mputs x.ground x.left (bad.flatMap fun g => addressed (8 * g) (List.replicate 8 0))
    bad := mputs (fun _ => false) x.bad (bad.map fun g => (g, false)) }

/-- The bytes of a vault, unchecked. -/
def State.vbytes (s : State) (L a n : Nat) : List Byte := mslice zeroByte (s.cl L).vault a n

/-- A checked read (R134, R140): the bytes, zeros after a violation, whether they are poisoned, and the state. -/
def State.vload (s : State) (L a n : Nat) (port : VPort) : List Byte × Bool × State :=
  if s.readOk L a n then
    let (p, s') := s.checkParity L a n port
    (s.vbytes L a n, p, s')
  else (List.replicate n 0, false, s.violate L a)

/-- A list without repeats of neighbours. -/
def dedupRun : List Nat → List Nat
  | [] => []
  | x :: t => match dedupRun t with
    | [] => [x]
    | y :: u => if x = y then y :: u else x :: y :: u

/-- Bytes put into a vault at rising addresses whose region access is good: the groups they cover in part are read
with their parity checked, then merged, and every group is written with good parity (R140). -/
def State.vpairs (s : State) (L : Nat) (l : List (Nat × Byte)) (port : VPort) : State :=
  let gs := dedupRun (l.map fun e => e.1 / 8)
  let part := gs.filter fun g => decide ((l.countP fun e => e.1 / 8 == g) < 8)
  let (_, s) := s.checkGroups L part port
  s.updCl L fun c => { c with
    vault := mputs zeroByte c.vault l, bad := mputs (fun _ => false) c.bad (gs.map fun g => (g, false)) }

/-- A store of bytes whose region access is good. -/
def State.vmerge (s : State) (L a : Nat) (b : List Byte) (port : VPort) : State :=
  if b.isEmpty then s else s.vpairs L (addressed a b) port

/-- A checked store (R134, R140). -/
def State.vstore (s : State) (L a : Nat) (b : List Byte) (port : VPort) : State :=
  if s.writeOk L a b.length port then s.vmerge L a b port else s.violate L a

/-- A byte of a ring header that stores by cores leave alone: all but READ and CLOSE (R253). -/
def State.headerByte (s : State) (L a : Nat) : Bool :=
  match s.regionAt L a with
  | some (_, r) =>
    let o := a - r.base
    r.kind == 4 && decide (o < 64) && !(decide (4 ≤ o) && decide (o < 8)) && !(decide (0x14 ≤ o) && decide (o < 0x18))
  | none => false

/-- A store by a core: the bytes that fall on protected words of a ring header are dropped, and the store counted in
MSG_COUNT.HEADER (R253). -/
def State.corePairs (s : State) (L : Nat) (l : List (Nat × Byte)) (port : VPort) : State :=
  if l.any fun e => s.headerByte L e.1 then
    (s.vpairs L (l.filter fun e => !s.headerByte L e.1) port).finc MSG_COUNT.HEADER L
  else s.vpairs L l port

/-- A checked store by a core (R134, R253). -/
def State.coreStore (s : State) (L a : Nat) (b : List Byte) (port : VPort) : State :=
  if s.writeOk L a b.length port then s.corePairs L (addressed a b) port else s.violate L a

/-- Little-endian 32-bit words of a list of bytes. -/
def wordsOf (b : List Byte) : Nat → List Word
  | 0 => []
  | n + 1 => BitVec.ofNat 32 (leNat (b.take 4)) :: wordsOf (b.drop 4) n

/-- The outcome of a command on units that exist; naming one that does not exist is a fault. -/
def onUnit (ok : Bool) (s : State) : Host.Outcome State Fault Refusal :=
  if ok then .next s else .fault .noSuchUnit

end Sys2Proof.Machine
end

