-- ==== Sys2Proof/WellFormed.lean ====
section
/-! DEFINITION. When a command is well formed: the units it names exist in the device and its numbers fit their fields.
The event that an ill-formed command would be cannot happen; a meaning stops on one. -/
namespace Sys2Proof

/-- Numbering schemes of 00_scope.md: clusters 0 to 287 (R14), cores teller 0, VEC0 1, VEC1 2 (R102). -/
def okCluster (n : Nat) : Bool := decide (n < Config.nClusters)
def okCore (n : Nat) : Bool := decide (n < 3)
def okCx (n : Nat) : Bool := decide (n < Config.nContexts)
def okPart (n : Nat) : Bool := decide (n < Config.nPartitions)
def okCh (n : Nat) : Bool := decide (n < Config.nChannels)
def okPort (n : Nat) : Bool := decide (n < Config.nPorts)
def okSite (n : Nat) : Bool := decide (n < Config.nSites)
def okDie (n : Nat) : Bool := decide (n < Config.nDies)

/-- A router: its column and row (R13). -/
def okRouter (x y : Nat) : Bool := decide (x < 42) && decide (y < 8)

/-- The test engines of a partition (R363), the droop detectors (R353), the banks of a channel (R278). -/
def okEngine (n : Nat) : Bool := decide (n < 8)
def okDetector (n : Nat) : Bool := decide (n < 16)
def okBank (n : Nat) : Bool := decide (n < 32)

/-- Bindings of a port (R311), DMA tags (R260), accumulator sets (R81), virtual channels (R300), rings (R254). -/
def okBinding (n : Nat) : Bool := decide (n < 256)
def okTag (n : Nat) : Bool := decide (n < 128)
def okSet (n : Nat) : Bool := decide (n < 2)
def okVc (n : Nat) : Bool := decide (n < 4)
def okRing (n : Nat) : Bool := decide (n < 4096)

/-- Sensors (R428), pins of a channel (R268), 64-byte blocks of a channel (R272), collectors (R433), folios (R172). -/
def okSensor (n : Nat) : Bool := decide (n < 684)
def okRail (n : Nat) : Bool := decide (n < 32)
def okPin (n : Nat) : Bool := decide (n < 24)
def okBlock (n : Nat) : Bool := decide (n < 16384 * 2048)
def okCollector (n : Nat) : Bool := decide (n < 2)
def okFolio (n : Nat) : Bool := decide (n < 4096)

/-- Entries of the tables of a port (R323). -/
def okEntry (t : FabTable) (n : Nat) : Bool :=
  match t with
  | .route => decide (n < 16384)
  | .escape => decide (n < 16384)
  | .circuit => decide (n < 4096)
  | .slot => decide (n < 416)

/-- An issuing core exists, and the lane, entry or address of its upset. -/
def Upset.ok : Upset → Bool
  | .residue l => decide (l < 64)
  | .lut e => decide (e < 4096)
  | .parity a => decide (a < Config.vaultBytes)
  | .spareParity n a => okSite n && decide (a < Config.vaultBytes)
  | _ => true

def Issue.ok (i : Issue) : Bool := okCluster i.cluster && okCore i.core && i.upset.ok

def CellUpset.ok : CellUpset → Bool
  | .none => true
  | .cells l => l.all fun e => decide (e.1 < 65) && decide (e.2.1 < 65)
  | .writeback row col => decide (row < 64) && decide (col < 64)

/-- The set, and the cell of a residue mismatch in it (R88, R464). -/
def FreedSet.ok (f : FreedSet) : Bool :=
  okSet f.set && f.residueError.all fun c => decide (c.1 < 64) && decide (c.2 < 64)

/-- Symbols of a block, each at most once, that differ in some bit (R270). -/
def symbolsOk (l : List (Nat × Byte)) : Bool :=
  l.all (fun e => decide (e.1 < 72) && e.2 != 0) && decide (l.map (·.1)).Nodup

/-- A unit of R364, or 30 for the scan, and the fields of its result record (R374). -/
def UnitFailure.ok (f : UnitFailure) : Bool :=
  okSite f.site && decide (f.unit ≤ 30) && decide (f.row < 65536) && decide (f.element ≤ 5) && decide (f.background ≤ 1)
    && decide (f.pattern < 24576)

def BlockErrors.ok (r : BlockErrors) : Bool := symbolsOk r.first && symbolsOk r.again

/-- A unit of the mesh exists (R150): unit 7 is the attachment, which the others name. -/
def MeshUnit.ok : MeshUnit → Bool
  | .cluster L u => okCluster L && decide (u < 7)
  | .channel p ch => okPart p && okCh ch
  | .port n => okPort n
  | .pcie => true

/-- The bytes of a payload: a token or contribution has its own size, and a destination set 64 bytes (R150, R151, R163,
R178). -/
def Payload.size : Payload → Nat
  | .bytes b => b.length
  | .token _ _ => 320
  | .clear _ _ _ _ _ _ _ => 256
  | .dests _ b => 64 + b.length

/-- The numbers of a token fit the fields of its head (R178). -/
def Token.ok (t : Token) : Bool :=
  decide (t.endpoint < 2048) && decide (t.epoch < 4) && okCx t.cx && decide (t.source < 512) && decide (t.sourceEp < 2048)
    && decide (t.scales.length ≤ 4) && decide (t.id < 65536) && decide (t.lanes.length ≤ 64)

def Payload.ok : Payload → Bool
  | .bytes _ => true
  | .token t _ => t.ok
  | .clear row count run _ scale lanes _ =>
    decide (row < 65536) && decide (count < 65536) && decide (run < 65536) && decide (scale < 65536)
      && decide (lanes.length ≤ 64)
  | .dests d _ => decide (d.length ≤ 16) && d.all fun e => e.1.ok && decide (e.2 < 65536)

/-- The fields of a packet fit its header, and LEN counts the flits of header and payload, which is at most 480 bytes
(R150). -/
def Packet.ok (p : Packet) : Bool :=
  p.dst.ok && p.src.ok && okRouter p.x p.y && okCx p.cx && decide (p.injTime < 65536) && decide (p.addr < 2 ^ 64)
    && decide (p.reqId < 65536) && decide (p.status < 256) && p.payload.ok && decide (p.payload.size ≤ 480)
    && decide (p.len = (p.payload.size + 31) / 128) && p.block.all (fun b => decide (b < 2 ^ 25))

/-- A read and those that wait with it: at most 15 remote ones, and one of each of the ten vault ports (R131, R138). -/
def ReadService.ok (r : ReadService) : Bool :=
  r.pkt.ok && decide (r.waiting.length ≤ 15) && r.waiting.all (fun w => w.1.ok && decide (w.2 < 65536))
    && decide (r.ports ≤ 10)

/-- The fields of a packet cell's header fit (R295), and its payload is 32 bytes (R294). -/
def PacketCell.ok (c : PacketCell) : Bool :=
  decide (c.vc < 4) && decide (c.ptr ≤ 14) && decide (c.kind < 16) && decide (c.route.length = 14)
    && c.route.all (fun f => decide (f < 32)) && decide (c.src < 65536) && decide (c.dst < 65536)
    && decide (c.xid < 512) && decide (c.index < 8) && decide (c.payload.length = 32)

/-- The fields of a circuit cell's header fit (R297), and its payload is 44 bytes. -/
def CircuitCell.ok (c : CircuitCell) : Bool :=
  decide (c.phase < 4) && decide (c.circuit < 4096) && decide (c.part < 8) && decide (c.payload.length = 44)

def Cell.ok : Cell → Bool
  | .packet c => c.ok
  | .circuit c => c.ok
  | _ => true

/-- A link block has 26 cell positions (R290), and its link control fits its fields; a reserved BTYPE is never sent
(R291). -/
def LinkBlock.ok (b : LinkBlock) : Bool :=
  decide (b.cells.length = 26) && b.cells.all Cell.ok && decide (b.seq < 4096) && decide (b.ack < 4096)
    && decide (b.btype ≤ 2) && decide (b.credit.length = 4) && b.credit.all (fun n => decide (n < 256))
    && (match b.tableError with | some (t, i) => okEntry t i | none => true)

/-- A requester on the management port is named by its IPv4 or IPv6 address (R434). -/
def Requester.ok : Requester → Bool
  | .aihar a | .malformed a => decide (a < 2 ^ 128)
  | .udp a port _ => decide (a < 2 ^ 128) && decide (port < 65536)
  | _ => true

/-- The addresses of a frame fit (R434). -/
def MgtFrame.ok (f : MgtFrame) : Bool := decide (f.source < 2 ^ 128) && decide (f.target < 2 ^ 128)

/-- The fields of a record fit (R432). -/
def ErrorRecord.ok (r : ErrorRecord) : Bool :=
  decide (r.severity < 4) && decide (r.block < 256) && decide (r.code < 65536) && decide (r.inst < 65536)
    && decide (r.detail.length ≤ 6) && (match r.cx with | some c => okCx c | none => true)

/-- Every unit that the command names is one that the device has, and every number fits its field. -/
def Instr.wf : Instr → Bool
  | .overload cx => okCx cx
  | .skipLimit cx => okCx cx
  | .folDrainTimeout cx => okCx cx
  | .hangDeclared cx => okCx cx
  | .rerunLimit cx => okCx cx
  | .quarantined cx => okCx cx
  | .auditRetire site => okSite site
  | .tallyInPulse _ => true
  | .tallyCell port cell _ => okPort port && cell.ok
  | .registerWrite _ _ _ => true
  | .alu who => who.ok
  | .addi who => who.ok
  | .andi who => who.ok
  | .ori who => who.ok
  | .xori who => who.ok
  | .lui who => who.ok
  | .shli who => who.ok
  | .shri who => who.ok
  | .srai who => who.ok
  | .cmp who => who.ok
  | .kop who => who.ok
  | .vv who => who.ok
  | .vs who => who.ok
  | .vcmp who => who.ok
  | .vcmps who => who.ok
  | .sel who => who.ok
  | .red who => who.ok
  | .ldw who => who.ok
  | .stw who => who.ok
  | .vld who => who.ok
  | .vst who => who.ok
  | .sld who => who.ok
  | .sst who => who.ok
  | .vldr who => who.ok
  | .vstr who => who.ok
  | .bmax who => who.ok
  | .rescale who => who.ok
  | .smul who => who.ok
  | .smov who => who.ok
  | .sshift who => who.ok
  | .sget who => who.ok
  | .sput who => who.ok
  | .smaxe who => who.ok
  | .lut who => who.ok
  | .qsend who => who.ok
  | .qrecv who => who.ok
  | .qsendt who => who.ok
  | .qrecvt who => who.ok
  | .msend who => who.ok
  | .msendt who => who.ok
  | .dmaq who => who.ok
  | .dmaqt who => who.ok
  | .dmapop who => who.ok
  | .dmapopt who => who.ok
  | .mxi who => who.ok
  | .mxit who => who.ok
  | .mxpop who => who.ok
  | .mxpopt who => who.ok
  | .beqz who => who.ok
  | .bnez who => who.ok
  | .jal who => who.ok
  | .jr who => who.ok
  | .sysNop who => who.ok
  | .halt who => who.ok
  | .wft who => who.ok
  | .vrun who => who.ok
  | .vwait who => who.ok
  | .fence who => who.ok
  | .trap who => who.ok
  | .rdsr who => who.ok
  | .coreUnblock cluster core => okCluster cluster && okCore core
  | .clusterFinished cluster => okCluster cluster
  | .doubledSiteSwitch site => okSite site
  | .descriptorStart cluster => okCluster cluster
  | .accumulatorSetFree cluster freed => okCluster cluster && freed.ok
  | .auditResult cluster upset => okCluster cluster && upset.ok
  | .descriptorComplete cluster _ => okCluster cluster
  | .mxcCompletionPop cluster => okCluster cluster
  | .mxcAuditInject cluster => okCluster cluster
  | .mxcAuditTallyRead cluster => okCluster cluster
  | .mxcAuditLastRead cluster => okCluster cluster
  | .auditHoldExpire cluster => okCluster cluster
  | .vecResidueInject cluster core => okCluster cluster && okCore core && core != 0
  | .vltParityInject cluster => okCluster cluster
  | .readReq service => service.ok
  | .writeReq pkt => pkt.ok
  | .readRsp pkt => pkt.ok
  | .writeAck pkt => pkt.ok
  | .mcastRsp pkt => pkt.ok
  | .reg cluster offset _ _ => okCluster cluster && decide (offset < 0x4000)
  | .routerForward x y _ => okRouter x y
  | .aged _ _ => true
  | .clearCombine x y _ => okRouter x y
  | .combineHoldExpire x y _ => okRouter x y
  | .clearRootAbsorb _ => true
  | .tokenArrival _ => true
  | .creditReturn _ => true
  | .drained cx => okCx cx
  | .configurationStage cx => okCx cx
  | .configurationLoadComplete cluster => okCluster cluster
  | .folCxNextWrite cx _ folio => okCx cx && okFolio folio
  | .load cx => okCx cx
  | .imageFetchComplete _ => true
  | .activate cx => okCx cx
  | .unload cx => okCx cx
  | .moveCopyComplete cluster _ => okCluster cluster
  | .ledgerAppendRetry _ => true
  | .migrationCopyComplete _ => true
  | .messageReceive _ => true
  | .messageAnswer cluster core => okCluster cluster && okCore core
  | .messageRetry cluster core => okCluster cluster && okCore core
  | .ringClose cx ring => okCx cx && okRing ring
  | .ringOpen cx ring => okCx cx && okRing ring
  | .ringReset cx ring => okCx cx && okRing ring
  | .dmaRead cluster tag => okCluster cluster && okTag tag
  | .dmaWrite cluster tag => okCluster cluster && okTag tag
  | .vcopy cluster tag => okCluster cluster && okTag tag
  | .vfill cluster tag => okCluster cluster && okTag tag
  | .mcopy cluster tag => okCluster cluster && okTag tag
  | .mfill cluster tag => okCluster cluster && okTag tag
  | .xcopy cluster tag => okCluster cluster && okTag tag
  | .halo cluster tag => okCluster cluster && okTag tag
  | .rread cluster tag => okCluster cluster && okTag tag
  | .rwrite cluster tag => okCluster cluster && okTag tag
  | .dmaCompletion cluster tag => okCluster cluster && okTag tag
  | .dmaRemoteTimeout cluster tag => okCluster cluster && okTag tag
  | .blockRead part ch block cx errors => okPart part && okCh ch && okBlock block && okCx cx && errors.ok
  | .blockWrite part ch block cx _ _ => okPart part && okCh ch && okBlock block && okCx cx
  | .ceLimitReached part ch => okPart part && okCh ch
  | .ueLimitReached part ch => okPart part && okCh ch
  | .laneMark part ch pin => okPart part && okCh ch && okPin pin
  | .channelCommandTimeout part ch => okPart part && okCh ch
  | .selfRefreshTimeout part timeout => okPart part && okCh timeout.ch
  | .patrolScrub part ch block errors => okPart part && okCh ch && okBlock block && errors.ok
  | .memInjectCe part ch => okPart part && okCh ch
  | .memInjectUe part ch => okPart part && okCh ch
  | .portEnable port _ => okPort port
  | .portReset port => okPort port
  | .portRetrain port => okPort port
  | .linkTrainingComplete port _ _ _ => okPort port
  | .trainFailed port => okPort port
  | .linkBlock port block => okPort port && block.ok
  | .nakRetrain port => okPort port
  | .retrainComplete port _ => okPort port
  | .packetCellForward port vc => okPort port && okVc vc
  | .escapeTimeout port vc => okPort port && okVc vc
  | .rreq port cell => okPort port && cell.ok
  | .wreq port cell => okPort port && cell.ok
  | .wdata port cell => okPort port && cell.ok
  | .rdata port cell => okPort port && cell.ok
  | .rsp port cell => okPort port && cell.ok
  | .grant port cell => okPort port && cell.ok
  | .ack port cell => okPort port && cell.ok
  | .revoke port cell => okPort port && cell.ok
  | .revoked port cell => okPort port && cell.ok
  | .trigger port cell => okPort port && cell.ok
  | .circuitCell port cell => okPort port && cell.ok
  | .halfTransmit port binding => okPort port && okBinding binding
  | .halfRetransmit port binding => okPort port && okBinding binding
  | .clearingAdd port binding _ => okPort port && okBinding binding
  | .tableCopyComplete port => okPort port
  | .routeEntryWrite _ => true
  | .escapeEntryWrite _ => true
  | .routeValidWrite _ => true
  | .cartridgePresent port _ => okPort port
  | .cartridgeVerified port => okPort port
  | .cartridgeRemoved port => okPort port
  | .pciePerst _ => true
  | .apertureRead _ _ => true
  | .apertureWrite _ _ => true
  | .nop cx => okCx cx
  | .copyIn cx => okCx cx
  | .copyOut cx => okCx cx
  | .copyComplete cx _ => okCx cx
  | .msg cx => okCx cx
  | .next cx => okCx cx
  | .stop cx => okCx cx
  | .resume cx => okCx cx
  | .doeRequest _ => true
  | .powerActive _ => true
  | .powerIdle _ => true
  | .powerSleep _ => true
  | .powerTransitionComplete part => okPart part
  | .powerInnerLoop _ _ _ _ => true
  | .voltageSettled part => okPart part
  | .voltageLowered part => okPart part
  | .droopAssert part detector => okPart part && okDetector detector
  | .droopRelease part => okPart part
  | .changeAbandoned part => okPart part
  | .thermalTrip part => okPart part
  | .criticalTrip sensor => okSensor sensor
  | .regulatorFault rail => okRail rail
  | .marchSliceEnd part engine _ => okPart part && okEngine engine
  | .scanSliceEnd part engine _ => okPart part && okEngine engine
  | .sliceAbort part engine => okPart part && okEngine engine
  | .vaultFull _ => true
  | .scanFull _ => true
  | .scanNext cluster => okCluster cluster
  | .retest _ => true
  | .planComplete failed => failed.all UnitFailure.ok
  | .rawApplyPatterns site => okSite site
  | .rawReadWord site _ _ => okSite site
  | .rawWriteWord site _ _ => okSite site
  | .patternStoreCopyComplete _ => true
  | .partitionResetRequest _ _ => true
  | .fenceDrainEnd part => okPart part
  | .fenceTimeout part => okPart part
  | .contextReset _ => true
  | .diePlatformReset die => okDie die
  | .dieResetComplete die => okDie die
  | .brgStepFuses _ _ => true
  | .brgStepPower _ => true
  | .brgStepLock _ => true
  | .brgStepTrain _ => true
  | .brgStepRestore _ _ => true
  | .brgStepVaultTest failed => failed.all UnitFailure.ok
  | .bringUpStepEnd _ => true
  | .platformFirmware _ _ => true
  | .noseFirmware _ _ => true
  | .scanPatterns _ _ => true
  | .licence _ _ => true
  | .ownerKey _ _ => true
  | .policy _ _ => true
  | .lifeCycleToken _ _ => true
  | .unlockToken _ => true
  | .bottomTreeReady _ => true
  | .attestReport _ asker => asker.source.ok
  | .attestPublicKey asker => asker.source.ok
  | .attestLog asker => asker.source.ok
  | .sensorSample sensor _ => okSensor sensor
  | .errorRecord record => record.ok
  | .recordResend collector _ => okCollector collector
  | .status source _ => source.ok
  | .sensors source _ _ _ => source.ok
  | .records source _ _ _ => source.ok
  | .aiharAck source _ _ => source.ok
  | .snapshotTrigger source _ => source.ok
  | .snapshotRead source _ _ _ => source.ok
  | .setConfig _ _ => true
  | .arpRequest f => f.ok
  | .icmpEcho f _ => f.ok
  | .neighborSolicitation f => f.ok
  | .linkDown port => okPort port
  | .configurationRequest _ => true
  | .clockSwitchComplete part => okPart part
  | .rotationVisit part => okPart part
  | .ledgerUncorrectable part => okPart part
  | .dramTemperatureRead part ch _ => okPart part && okCh ch
  | .refresh part ch bank => okPart part && okCh ch && okBank bank
  | .periodicCalibration part ch => okPart part && okCh ch
  | .tableEntryUncorrectable port table entry => okPort port && okEntry table entry
  | .usageRecordWrite port _ => okPort port
  | .tallyEdge => true
  | .lost => true
  | .lostClear => true
  | .activateComplete => true
  | .abort => true
  | .ledgerAppendComplete => true
  | .configurationReady => true
  | .functionLevelReset => true
  | .doeAbort => true
  | .powerHold => true
  | .brake => true
  | .ledgerClear => true
  | .raw => true
  | .bstResultPop => true
  | .packageColdReset => true
  | .powerOnReset => true
  | .brgStepFirmware => true
  | .ledgerRebuild => true
  | .brgStepPlace => true
  | .brgStepFabric => true
  | .brgStepReady => true
  | .unlockExpire => true
  | .entropyHealthFail => true
  | .requestClear => true
  | .snapshotHostTrigger => true
  | .snapshotRelease => true
  | .brakeDeassert => true
  | .powerDown => true
  | .dramRailLoss => true
  | .entropyHealthPass => true
  | .attEntropy => true
  | .testWindowStart => true
  | .sgmiiLinkUp => true
  | .sgmiiLinkDown => true

end Sys2Proof
end

