-- ==== Sys2Proof/Machine/Memory.lean ====
section
/-! DEFINITION. The memory subsystem (12_memory_subsystem.md): blocks, poison, frames, channel health, and the rows of
the controllers. -/
namespace Sys2Proof.Machine

open Sys2Proof

/-! ### Sorting -/

/-- Insert by a strict order, after equal elements. -/
def insertBy {α : Type} (lt : α → α → Bool) (x : α) : List α → List α
  | [] => [x]
  | y :: t => if lt x y then x :: y :: t else y :: insertBy lt x t

/-- Sort by a strict order; equal elements keep their order. -/
def sortBy {α : Type} (lt : α → α → Bool) (l : List α) : List α := l.foldl (fun a x => insertBy lt x a) []

/-- Lexicographic order of pairs. -/
def pairLt (a b : Nat × Nat) : Bool := decide (a.1 < b.1) || (a.1 == b.1 && decide (a.2 < b.2))

/-! ### Places -/

/-- Channel `ch` of partition `p` in the numbering that LOCATION uses (R285). -/
def chKey (p ch : Nat) : Nat := p * 32 + ch

/-- Block `b` of a channel; 2,048 blocks of 64 B make a chunk of 128 KiB. -/
def blockKey (p ch b : Nat) : Nat := chKey p ch * (16384 * 2048) + b

def chunkKey (p ch k : Nat) : Nat := chKey p ch * 16384 + k

def noBool : Nat → Bool := fun _ => false

def pageKey (c page : Nat) : Nat := c * 2 ^ 20 + page

/-- The frame of a page: slots 0 to 15, each a partition, channel and chunk (R273). None: []. -/
def State.frame (s : State) (c page : Nat) : List (Nat × Nat × Nat) := mget (fun _ => []) s.memory.pages (pageKey c page)

/-- The canonical form of the memory: addresses rise, and no listed byte or POISON bit equals what an unlisted one reads
as. -/
def Memory.wf (m : Memory) : Bool := mwf zeroByte m.bytes && mwf noBool m.poison

/-- Bytes put at a place, and the POISON bit of block `k`. -/
def Memory.put (m : Memory) (a : Nat) (data : List Byte) (k : Nat) (poison : Bool) : Memory :=
  { m with
    bytes := mrun zeroByte m.bytes a data
    poison := mput noBool m.poison k poison }

/-- The keys outside [lo, hi). -/
def outside (lo hi x : Nat) : Bool := !(decide (lo ≤ x) && decide (x < hi))

/-- `n` blocks from block `b` on made zero, with POISON clear or set. -/
def Memory.wipe (m : Memory) (b n : Nat) (poison : Bool) : Memory :=
  { m with
    bytes := mkeep (outside (64 * b) (64 * (b + n))) m.bytes
    poison := (fun p => if poison then mrun noBool p b (List.replicate n true) else p)
      (mkeep (outside b (b + n)) m.poison) }

def State.setMem (s : State) (m : Memory) : State := { s with memory := m }

def State.setFrame (s : State) (c page : Nat) (f : List (Nat × Nat × Nat)) : State :=
  s.setMem { s.memory with pages := mput (fun _ => []) s.memory.pages (pageKey c page) f }

/-- The channel and block that hold the logical address, and the byte's offset in the block (R273). -/
def State.place (s : State) (c a : Nat) : Option (Nat × Nat × Nat × Nat) :=
  let o := a % 2 ^ 21
  match (s.frame c (a / 2 ^ 21))[(o / 256) % 16]? with
  | none => none
  | some (p, ch, k) =>
    let byte := (o / 4096) * 256 + o % 256
    some (p, ch, k * 2048 + byte / 64, byte % 64)

/-! ### Channel state -/

def chGood := 0
def chDegrading := 1
def chFailed := 2
def chUntrained := 3

def State.chState (s : State) (p ch : Nat) : Nat := s.fget MEM_CH_STATE.STATE (chKey p ch)

def State.working (s : State) (p ch : Nat) : Bool := decide (s.chState p ch ≤ 1)

/-- How many channels of a partition are in a state. -/
def State.chCount (s : State) (p st : Nat) : Nat := (List.range 32).countP fun ch => s.chState p ch == st

def State.workingIn (s : State) (p : Nat) : Nat := (List.range 32).countP fun ch => s.working p ch

/-- MEM_STATUS of a partition follows its channels. -/
def State.syncPart (s : State) (p : Nat) : State :=
  let s := s.fset MEM_STATUS.WORKING p (s.workingIn p)
  let s := s.fset MEM_STATUS.DEGRADING p (s.chCount p chDegrading)
  let s := s.fbit MEM_STATUS.TRAINED p (s.chCount p chUntrained == 0)
  s.fbit MEM_STATUS.BELOW_FLOOR p (decide (s.workingIn p < 24))

def nat12 : List Nat := List.range 12

/-- MEM_SUMMARY counts the channels. -/
def State.countSummary (s : State) : State :=
  (s.fset MEM_SUMMARY.WORKING 0 (nat12.map s.workingIn).sum).fset MEM_SUMMARY.FAILED 0
    ((nat12.map fun p => s.chCount p chFailed).sum)

/-- BELOW_GUARANTEE follows the channels, and the Nose reports it once (R287). -/
def State.judgeSummary (s : State) : State :=
  let total := (nat12.map s.workingIn).sum
  let below := decide (total < 352) || nat12.any fun p => decide (s.workingIn p < 24)
  let was := s.fon MEM_SUMMARY.BELOW_GUARANTEE 0
  let s := s.fbit MEM_SUMMARY.BELOW_GUARANTEE 0 below
  if below && !was then s.report sevError blkMEM Uncoded.belowGuarantee.code 0xFFFF none [BitVec.ofNat 32 total] else s

/-- MEM_SUMMARY follows the channels. Before step 5 of bring-up has ended they are not all trained, and nothing is judged. -/
def State.syncSummary (s : State) : State :=
  if 5 ≤ s.bringUp.done then s.countSummary.judgeSummary else s.countSummary

def State.syncMem (s : State) (p : Nat) : State := (s.syncPart p).syncSummary

/-- MEM_ERR_LAST of an event. -/
def State.memLast (s : State) (p ch kind cx pin : Nat) : State :=
  s.rset .MEM_ERR_LAST p
    (BitVec.ofNat 64 (s.count32 * 2 ^ 32 + kind * 2 ^ 28 + (cx % 16) * 2 ^ 24 + pin * 2 ^ 16 + ch))

/-- PLC_LEDGER follows the defect ledger in flash (R228). -/
def State.syncLedger (s : State) : State :=
  (s.fset PLC_LEDGER.ENTRIES 0 s.placer.defects.length).fbit PLC_LEDGER.FULL 0 (decide (4096 ≤ s.placer.defects.length))

/-- An entry goes to the defect ledger: it waits for its append to flash, where that will have room for it (R228). -/
def State.ledgerAppend (s : State) (kind cause location : Nat) : State :=
  if 4096 ≤ s.placer.defects.length + s.placer.appends.length then s
  else
    ({ s with placer := { s.placer with
        appends := s.placer.appends ++ [({ kind := kind, cause := cause, location := location, tally := s.tally.count } : Defect)] } }).fbit PLC_LEDGER.PENDING 0 true

/-- The pages of a context that have a chunk on a channel. -/
def State.pagesOn (s : State) (c p ch : Nat) : List Nat :=
  s.memory.pages.filterMap fun e =>
    if e.1 / 2 ^ 20 = c ∧ e.2.any (fun t => t.1 == p && t.2.1 == ch) then some (e.1 % 2 ^ 20) else none

/-- MEM_DATA_LOST to each context with a page on the channel (R286). -/
def State.dataLost (s : State) (p ch : Nat) : State :=
  s.forEach (List.range 16) fun c s =>
    match s.pagesOn c p ch with
    | [] => s
    | l => s.report sevError blkMEM Uncoded.dataLost.code (chKey p ch) (some c) (l.map (BitVec.ofNat 32))

/-- A state change of a channel, reported to the Nose (R284). -/
def State.chChange (s : State) (p ch st kind cx : Nat) (injected : Bool) : State :=
  let s := s.fset MEM_CH_STATE.STATE (chKey p ch) st
  let s := s.memLast p ch kind cx 0
  let s := s.accept ⟨injected, if st = chFailed then sevError else sevWarning, blkMEM, kind, chKey p ch, none,
    [BitVec.ofNat 32 (chKey p ch), BitVec.ofNat 32 st]⟩ 1
  s.syncMem p

def State.dropChunk (s : State) (p ch k : Nat) : State :=
  let i := chKey p ch
  (s.setMem { s.memory with used := mput noBool s.memory.used (chunkKey p ch k) false }).fset MEM_CH_STATE.USED i
    (s.fget MEM_CH_STATE.USED i - 1)

def State.freeFrame (s : State) (f : List (Nat × Nat × Nat)) : State :=
  s.forEach f fun t s => s.dropChunk t.1 t.2.1 t.2.2

/-- The migrations with a destination on a channel that fails are abandoned: the old frames stay, the new ones are free, and
the copies start again at a later boundary (R286). -/
def State.dropMigrations (s : State) (p ch : Nat) : State :=
  let l := s.placer.migrations.filter fun m => m.new.any fun t => t.1 == p && t.2.1 == ch
  let s := { s with placer := { s.placer with migrations := s.placer.migrations.filter fun m => !l.contains m } }
  (s.forEach l fun m s => s.freeFrame m.new).fset PLC_MIGRATE.ACTIVE 0 s.placer.migrations.length

/-- A channel becomes FAILED (R284, R286): KIND of MEM_ERR_LAST, CHANNEL entry of the ledger, records. -/
def State.chFail (s : State) (p ch kind cx : Nat) : State :=
  if s.chState p ch = chFailed then s
  else (((s.chChange p ch chFailed kind cx false).ledgerAppend 3 8 (chKey p ch)).dataLost p ch).dropMigrations p ch

/-- A change to DEGRADING of a channel that is GOOD. -/
def State.chDegrade (s : State) (p ch kind cx : Nat) (injected : Bool) : State :=
  if s.chState p ch = chGood then s.chChange p ch chDegrading kind cx injected else s

/-- Tallies of the window that count now, by the number of edges passed; WINDOW 0 sets no limit (MEM_WINDOW). -/
def State.inWindow (s : State) (p : Nat) (l : List Nat) : List Nat :=
  let w := s.fget MEM_WINDOW.WINDOW p
  if w = 0 then l else l.filter fun t => decide (s.tally.passed < t + w)

def noList : Nat → List Nat := fun _ => []

def State.ceCount (s : State) (p ch : Nat) : Nat := (s.inWindow p (mget noList s.memory.ceTimes (chKey p ch))).length
def State.ueCount (s : State) (p ch : Nat) : Nat := (s.inWindow p (mget noList s.memory.ueTimes (chKey p ch))).length
def State.laneCount (s : State) (p ch pin : Nat) : Nat :=
  (s.inWindow p (mget noList s.memory.laneTimes (chKey p ch * 32 + pin))).length

/-- CE reaches its limit: DEGRADING (R284). -/
def State.ceLimit (s : State) (p ch cx : Nat) : State :=
  let l := s.fget MEM_THRESH.CE_LIMIT p
  if l ≠ 0 ∧ l ≤ s.ceCount p ch then s.chDegrade p ch 0 cx false else s

/-- UE reaches its limit: FAILED (R284). -/
def State.ueLimit (s : State) (p ch cx : Nat) : State :=
  let l := s.fget MEM_THRESH.UE_LIMIT p
  if l ≠ 0 ∧ l ≤ s.ueCount p ch ∧ s.working p ch then s.chFail p ch 3 cx else s

/-- 16 errors on one pin mark its lane; a second lane fails the channel (R284, R285). -/
def State.laneLimit (s : State) (p ch cx pin : Nat) : State :=
  let i := chKey p ch
  if 16 ≤ s.laneCount p ch pin ∧ s.working p ch then
    if s.fon MEM_CH_STATE.LANE i then
      if s.fget MEM_CH_STATE.PIN i = pin then s else s.chFail p ch 3 cx
    else
      let s := (s.fbit MEM_CH_STATE.LANE i true).fset MEM_CH_STATE.PIN i pin
      let s := s.fset MEM_CH_STATE.STATE i chDegrading
      let s := s.memLast p ch 2 cx pin
      let s := s.report sevWarning blkMEM 2 i none [BitVec.ofNat 32 i, BitVec.ofNat 32 pin]
      (s.ledgerAppend 5 8 (pin * 2 ^ 16 + i)).syncMem p
  else s

/-- The pins of a correction or detection count one each (R285). -/
def State.countPins (s : State) (p ch cx : Nat) (pins : List Nat) : State :=
  s.forEach pins.dedup fun pin s =>
    let k := chKey p ch * 32 + pin
    let l := s.inWindow p (mget noList s.memory.laneTimes k)
    (s.setMem { s.memory with laneTimes := mput noList s.memory.laneTimes k (s.tally.passed :: l) }).laneLimit p ch cx pin

/-- A correctable error of a channel (R271). -/
def State.memCe (s : State) (p ch cx : Nat) (pins : List Nat) (injected : Bool) : State :=
  let s := s.memLast p ch 0 cx 0
  if injected then s
  else
    let k := chKey p ch
    let l := s.inWindow p (mget noList s.memory.ceTimes k)
    let s := s.finc MEM_CH_ERR.CE k
    let s := s.setMem { s.memory with ceTimes := mput noList s.memory.ceTimes k (s.tally.passed :: l) }
    (s.ceLimit p ch cx).countPins p ch cx pins

/-- An uncorrectable error: the block is rewritten with POISON set and its data as read (R271); the first makes the channel
DEGRADING. -/
def State.memUe (s : State) (p ch b cx : Nat) (data : List Byte) (pins : List Nat) (injected : Bool) : State :=
  let k := chKey p ch
  let s := s.setMem (s.memory.put (64 * blockKey p ch b) data (blockKey p ch b) true)
  let s := s.finc MEM_POISON.WRITTEN p
  let s := s.memLast p ch 1 cx 0
  let s := s.chDegrade p ch 1 cx injected
  if injected then s
  else
    let l := s.inWindow p (mget noList s.memory.ueTimes k)
    let s := s.finc MEM_CH_ERR.UE k
    let s := s.setMem { s.memory with ueTimes := mput noList s.memory.ueTimes k (s.tally.passed :: l) }
    (s.ueLimit p ch cx).countPins p ch cx pins

/-! ### The block code (R269, R270) -/

def State.blockBytes (s : State) (p ch b : Nat) : List Byte := mslice zeroByte s.memory.bytes (64 * blockKey p ch b) 64

def State.blockPoison (s : State) (p ch b : Nat) : Bool := mget noBool s.memory.poison (blockKey p ch b)

/-- The six coefficients of the generator polynomial times x^i, packed as CHECK packs its symbols. The field polynomial
0x11D and the roots α^0 to α^5 are PRESUMED (R270 names neither). -/
def checkSteps : List Nat :=
  [0x3F01DA20E326, 0x7E02A940DB4C, 0xFC044F80AB98, 0xE5089E1D4B2D, 0xD710213A965A, 0xB320427431B4, 0x7B4084E86275,
    0xF68015CDC4EA]

/-- The check symbols after one more symbol: the remainder by the generator polynomial. -/
def checkStep (r : Nat) (b : Byte) : Nat :=
  let f := (r / 2 ^ 40) ^^^ b.toNat
  (checkSteps.zipIdx).foldl (fun x e => if f.testBit e.2 then x ^^^ e.1 else x) (r * 2 ^ 8 % 2 ^ 48)

/-- The 8 metadata bytes of a block: CHECK over the data and bytes 6 and 7, POISON, reserved bits 0 (R269). Every block that
is held is a code word, so they follow from its data and POISON. -/
def metadataOf (data : List Byte) (poison : Bool) : List Byte :=
  let tail : List Byte := [BitVec.ofNat 8 poison.toNat, 0]
  leBytes 6 ((data ++ tail).foldl checkStep 0) ++ tail

/-- The 72 symbols of a block: 32 of data and 4 of metadata on each sub-channel (R266, R270). Their order there is DESIGN
CHOICE. -/
def State.blockSymbols (s : State) (p ch b : Nat) : List Byte :=
  let d := s.blockBytes p ch b
  let m := metadataOf d (s.blockPoison p ch b)
  d.take 32 ++ m.take 4 ++ d.drop 32 ++ m.drop 4

/-- The pin that carries a symbol (R270, R285). -/
def pinOf (symbol : Nat) : Nat := symbol / 3

/-- The data of a block as it is read, some symbols changed. -/
def State.asRead (s : State) (p ch b : Nat) (errors : List (Nat × Byte)) : List Byte :=
  let l := errors.foldl (fun l e => l.modify e.1 (· ^^^ e.2)) (s.blockSymbols p ch b)
  l.take 32 ++ (l.drop 36).take 32

/-- What the decoder makes of a read (R270): the data, with the pins of the symbols that it corrects, or none where it detects
more than it corrects. The symbols of a marked lane are erasures. That two symbols beside the erasures are detected is
DEDUCED from the code's distance; of more symbols than are said to be detected the result is a free value. -/
def State.decodeBlock (s : State) (p ch b : Nat) (errors : List (Nat × Byte)) : Option (List Byte × List Nat) :=
  let marked := s.fon MEM_CH_STATE.LANE (chKey p ch)
  let far := errors.countP fun e => !(marked && pinOf e.1 == s.fget MEM_CH_STATE.PIN (chKey p ch))
  if far ≤ (if marked then 1 else 2) then some (s.blockBytes p ch b, errors.map fun e => pinOf e.1)
  else if far ≤ (if marked then 2 else 4) then none
  else (Config.wideDecode errors).map fun fix => (s.asRead p ch b (errors ++ fix), fix.map fun e => pinOf e.1)

/-- A corrected block is written back where it is not what is held. -/
def State.writeBlockBack (s : State) (p ch b : Nat) (data : List Byte) : State :=
  if data = s.blockBytes p ch b then s
  else s.setMem (s.memory.put (64 * blockKey p ch b) data (blockKey p ch b) (s.blockPoison p ch b))

/-- A read of which the decoder made data: clean, or corrected with an error counted. -/
def State.readCorrected (s : State) (p ch b cx : Nat) (data : List Byte) (pins : List Nat) : List Byte × State :=
  (data, if pins.isEmpty then s else (s.writeBlockBack p ch b data).memCe p ch cx pins false)

/-- What a controller's read of a block meets, and the data that it delivers (R271, MEM_INJECT). A block that cannot be
corrected is read once more. -/
def State.readOutcome (s : State) (p ch b cx : Nat) (r : BlockErrors) : List Byte × State :=
  let target := s.fget MEM_INJECT.CHANNEL p == ch
  let held := s.blockBytes p ch b
  if target && s.fon MEM_INJECT.UE p then (held, (s.fset MEM_INJECT.UE p 0).memUe p ch b cx held [] true)
  else if target && s.fon MEM_INJECT.CE p then (held, (s.fset MEM_INJECT.CE p 0).memCe p ch cx [] true)
  else
    match s.decodeBlock p ch b r.first with
    | some (d, pins) => s.readCorrected p ch b cx d pins
    | none =>
      match s.decodeBlock p ch b r.again with
      | some (d, pins) => s.readCorrected p ch b cx d (r.first.map (fun e => pinOf e.1) ++ pins)
      | none =>
        let d := s.asRead p ch b r.again
        (d, s.memUe p ch b cx d (r.again.map fun e => pinOf e.1) false)

/-! ### Blocks -/

/-- The controllers of a partition serve requests (R152, R282). -/
def State.memServes (s : State) (p : Nat) : Bool :=
  s.up (domMem p) && !s.fenced p && s.fget MEM_STATUS.SR p == 0

/-- The logical address of context `c` that a block backs. -/
def State.logicalOf (s : State) (c p ch b : Nat) : Option Nat :=
  s.memory.pages.findSome? fun e =>
    if e.1 / 2 ^ 20 = c then
      (e.2.findIdx? fun t => t.1 == p && t.2.1 == ch && t.2.2 == b / 2048).map fun slot =>
        let byte := (b % 2048) * 64
        (e.1 % 2 ^ 20) * 2 ^ 21 + (byte / 256) * 4096 + slot * 256 + byte % 256
    else none

/-- MEM_POISON_READ: at most one record per context and tally (R272). -/
def State.poisonRead (s : State) (c p ch b : Nat) : State :=
  if (s.cx c).poisonRecorded then s
  else
    let a := (s.logicalOf c p ch b).getD 0
    (s.updCx c fun x => { x with poisonRecorded := true }).report sevWarning blkMEM Uncoded.poisonRead.code (chKey p ch)
      (some c)
      [BitVec.ofNat 32 a, BitVec.ofNat 32 (a / 2 ^ 32)]

/-- The answer to a block read: its bytes and whether they are poisoned; none is FENCED. -/
def State.blockRead (s : State) (p ch b cx : Nat) (r : BlockErrors) : Option (List Byte × Bool) × State :=
  if !s.memServes p then (none, s)
  else if !s.working p ch then (some (List.replicate 64 0, true), (s.finc MEM_POISON.READ p).poisonRead cx p ch b)
  else
    let (d, s) := s.readOutcome p ch b cx r
    if s.blockPoison p ch b then (some (d, true), (s.finc MEM_POISON.READ p).poisonRead cx p ch b)
    else (some (d, false), s)

/-- A block write (R268, R272): bytes at an offset. A whole block writes POISON as `poison`; a part of one is a read, a
merge and a write, and keeps POISON. Answers whether it was answered FENCED. -/
def State.blockWrite (s : State) (p ch b cx off : Nat) (data : List Byte) (poison : Bool) : Bool × State :=
  if !s.memServes p then (true, s)
  else if !s.working p ch then (false, s.finc MEM_POISON.DROPPED p)
  else
    let whole := data.length == 64
    let s := if whole then s else (s.readOutcome p ch b cx .none).2
    let k := blockKey p ch b
    let bad := poison || (!whole && s.blockPoison p ch b)
    (false, s.setMem (s.memory.put (64 * k + off) data k bad))

/-! ### Logical memory -/

/-- A range cut at block boundaries: (address, length). -/
def blockPieces (a n : Nat) : List (Nat × Nat) :=
  if n = 0 then []
  else (List.range ((a + n - 1) / 64 - a / 64 + 1)).map fun i =>
    let lo := max a ((a / 64 + i) * 64)
    (lo, min (a + n) ((a / 64 + i + 1) * 64) - lo)

/-- What a read of memory brought: bytes, with poisoned ones as zeros; whether any was poisoned; whether any part was
answered FENCED. -/
structure MemRead where
  bytes : List Byte
  poison : Bool
  fenced : Bool

/-- A read of logical memory, block by block. `raw` keeps the bytes of poisoned blocks. -/
def State.memRead (s : State) (c a n : Nat) (raw : Bool) : MemRead × State :=
  (blockPieces a n).foldl (fun (acc : MemRead × State) pc =>
    let (r, s) := acc
    match s.place c pc.1 with
    | none => ({ r with bytes := r.bytes ++ List.replicate pc.2 0 }, s)
    | some (p, ch, b, off) =>
      match s.blockRead p ch b c .none with
      | (none, s) => ({ r with bytes := r.bytes ++ List.replicate pc.2 0, fenced := true }, s)
      | (some (d, bad), s) =>
        ({ r with bytes := r.bytes ++ (if bad && !raw then List.replicate pc.2 0 else (d.drop off).take pc.2),
                  poison := r.poison || bad }, s)) (⟨[], false, false⟩, s)

/-- A write of logical memory, with POISON set if `poison` (R263, R277). Answers whether any part was answered FENCED. -/
def State.memWrite (s : State) (c a : Nat) (data : List Byte) (poison : Bool) : Bool × State :=
  (blockPieces a data.length).foldl (fun (acc : Bool × State) pc =>
    match acc.2.place c pc.1 with
    | none => acc
    | some (p, ch, b, off) =>
      let (f, s) := acc.2.blockWrite p ch b c off ((data.drop (pc.1 - a)).take pc.2) poison
      (acc.1 || f, s)) (false, s)

/-! ### Frames -/

def chunkUsed (m : Memory) (k : Nat) : Bool := mget noBool m.used k

/-- The first number from `k` on that is not in a rising list. -/
def firstGap : List Nat → Nat → Nat
  | [], k => k
  | x :: t, k => if x < k then firstGap t k else if x = k then firstGap t (k + 1) else k

/-- The lowest free chunk of a channel. -/
def State.freeChunkOf (s : State) (p ch : Nat) : Option Nat :=
  let base := chKey p ch * 16384
  let k := firstGap (s.memory.used.map (·.1)) base - base
  if k < 16384 then some k else none

def State.useChunk (s : State) (p ch k : Nat) : State :=
  (s.setMem { s.memory with used := mput noBool s.memory.used (chunkKey p ch k) true }).finc MEM_CH_STATE.USED
    (chKey p ch)

/-- The channels of a partition that can give a chunk, in the order of preference of R274: GOOD before DEGRADING, then
fewest chunks in use, then lowest number. -/
def State.channelOrder (s : State) (p : Nat) (barred : List Nat) : List Nat :=
  let cand := (List.range 32).filter fun ch =>
    s.working p ch && !barred.contains ch && decide (s.fget MEM_CH_STATE.USED (chKey p ch) < 16384)
  sortBy (fun a b => pairLt (s.chState p a, s.fget MEM_CH_STATE.USED (chKey p a))
    (s.chState p b, s.fget MEM_CH_STATE.USED (chKey p b))) cand

/-- A new frame in a partition: 16 distinct channels in ascending order (R274). -/
def State.newFrame (s : State) (p : Nat) : Option (List (Nat × Nat × Nat) × State) :=
  let l := (s.channelOrder p []).take 16
  if l.length < 16 then none
  else
    some ((sortBy (fun a b => decide (a < b)) l).foldl (fun (acc : List (Nat × Nat × Nat) × State) ch =>
      let k := (acc.2.freeChunkOf p ch).getD 0
      (acc.1 ++ [(p, ch, k)], acc.2.useChunk p ch k)) ([], s))

/-- A new frame in the first partition from `p` on, wrapping, that has one (R274). -/
def State.newFrameFrom (s : State) (p : Nat) : Option (List (Nat × Nat × Nat) × State) :=
  nat12.findSome? fun i => s.newFrame ((p + i) % 12)

/-- Zero a chunk's bytes and set or clear the POISON of its blocks. -/
def State.wipeChunk (s : State) (p ch k : Nat) (poison : Bool) : State :=
  s.setMem (s.memory.wipe (blockKey p ch (k * 2048)) 2048 poison)

/-- The page is made new: every chunk of its frame zero and not poisoned. -/
def State.wipeFrame (s : State) (f : List (Nat × Nat × Nat)) : State :=
  s.forEach f fun t s => s.wipeChunk t.1 t.2.1 t.2.2 false

/-- A frame that holds a chunk of a FAILED channel gets a chunk of zeros and POISON instead, where there is one (R286). -/
def State.replaceIn (s : State) (key : Nat) (f : List (Nat × Nat × Nat)) : State :=
  s.forEach (List.range f.length) fun i s =>
    let f := mget (fun _ => []) s.memory.pages key
    match f[i]? with
    | none => s
    | some (p, ch, k) =>
      if s.chState p ch = chFailed then
        match s.channelOrder p (f.map (·.2.1)) with
        | [] => s
        | new :: _ =>
          match s.freeChunkOf p new with
          | none => s
          | some j =>
            let s := (s.useChunk p new j).wipeChunk p new j true
            let s := (s.fadd MEM_POISON.WRITTEN p 2048).dropChunk p ch k
            s.setMem { s.memory with pages := mput (fun _ => []) s.memory.pages key (f.set i (p, new, j)) }
      else s

/-- Step 7: chunks on failed channels are replaced (R286). -/
def State.replaceChunks (s : State) : State :=
  s.forEach s.memory.pages fun e s => s.replaceIn e.1 e.2

/-! ### The rows -/

def okMem (p ch : Nat) : Bool := okPart p && okCh ch

def execBlockRead (part ch block cx : Nat) (errors : BlockErrors) (s : State) : Host.Outcome State Fault Refusal :=
  onUnit (okMem part ch && okBlock block && okCx cx && errors.ok) (s.blockRead part ch block cx errors).2

/-- BLOCK_WRITE (R268, R276): at most the 64 bytes of the block. -/
def execBlockWrite (part ch block cx offset : Nat) (data : List Byte) (s : State) :
    Host.Outcome State Fault Refusal :=
  onUnit (okMem part ch && okBlock block && okCx cx)
    (s.blockWrite part ch block cx offset (data.take (64 - offset)) false).2

def execCeLimitReached (part ch : Nat) (s : State) : Host.Outcome State Fault Refusal :=
  onUnit (okMem part ch) (s.ceLimit part ch 0)

def execUeLimitReached (part ch : Nat) (s : State) : Host.Outcome State Fault Refusal :=
  onUnit (okMem part ch) (s.ueLimit part ch 0)

def execLaneMark (part ch pin : Nat) (s : State) : Host.Outcome State Fault Refusal :=
  onUnit (okMem part ch && okPin pin) (s.laneLimit part ch 0 pin)

/-- CHANNEL_COMMAND_TIMEOUT (R284). -/
def execChannelCommandTimeout (part ch : Nat) (s : State) : Host.Outcome State Fault Refusal :=
  onUnit (okMem part ch) (if s.memServes part && s.working part ch then s.chFail part ch 3 0 else s)

def noFault : Nat → Option ChannelFault := fun _ => none

/-- A channel of a partition whose memory stops, which works or is in self-refresh, has met a fault there. -/
def State.channelFault (s : State) (p ch : Nat) (f : ChannelFault) : State :=
  if !s.memServes p && (s.working p ch || mget noBool s.memory.selfRefresh (chKey p ch)) then
    s.setMem { s.memory with fault := mput noFault s.memory.fault (chKey p ch) (some f) }
  else s

/-- SELF_REFRESH_TIMEOUT (R283): the channel does not acknowledge its entry, or (`entry` false) will fail its short check
(R282). It has lost its contents and is FAILED when the controllers return. -/
def execSelfRefreshTimeout (part : Nat) (timeout : RefreshTimeout) (s : State) : Host.Outcome State Fault Refusal :=
  onUnit (okMem part timeout.ch) (s.channelFault part timeout.ch (if timeout.entry then .entry else .check))

/-- DRAM_TEMPERATURE_READ (R278). -/
def execDramTemperatureRead (part ch report : Nat) (s : State) : Host.Outcome State Fault Refusal :=
  onUnit (okMem part ch)
    (if s.memServes part && s.working part ch then s.fset MEM_CH_STATE.TEMP (chKey part ch) (report % 256) else s)

/-- REFRESH (R278): it keeps the contents of the array, and changes nothing that the model holds. -/
def execRefresh (part ch bank : Nat) (s : State) : Host.Outcome State Fault Refusal :=
  onUnit (okMem part ch && okBank bank) s

/-- PERIODIC_CALIBRATION (R266, R278): it changes nothing that the model holds. -/
def execPeriodicCalibration (part ch : Nat) (s : State) : Host.Outcome State Fault Refusal :=
  onUnit (okMem part ch) s

/-- PATROL_SCRUB (R279): a read of a block of a chunk in use that nobody receives. -/
def State.scrub (s : State) (p ch b : Nat) (r : BlockErrors) : State :=
  if s.fon MEM_SCRUB.ENABLE p && s.memServes p && s.working p ch && chunkUsed s.memory (chunkKey p ch (b / 2048)) then
    (s.readOutcome p ch b 0 r).2
  else s

def execPatrolScrub (part ch block : Nat) (errors : BlockErrors) (s : State) : Host.Outcome State Fault Refusal :=
  onUnit (okMem part ch && okBlock block && errors.ok) (s.scrub part ch block errors)

def execMemInjectCe (part ch : Nat) (s : State) : Host.Outcome State Fault Refusal :=
  onUnit (okMem part ch)
    (s.writeTo .MEM_INJECT part fun s => (s.fset MEM_INJECT.CHANNEL part ch).fset MEM_INJECT.CE part 1)

def execMemInjectUe (part ch : Nat) (s : State) : Host.Outcome State Fault Refusal :=
  onUnit (okMem part ch)
    (s.writeTo .MEM_INJECT part fun s => (s.fset MEM_INJECT.CHANNEL part ch).fset MEM_INJECT.UE part 1)

end Sys2Proof.Machine
end

