-- ==== Sys2Proof/Machine/MeshOps.lean ====
section
/-! DEFINITION. What the units of a cluster share to send: packets into the mesh, tokens, clearing contributions,
credits; and what the active folio of a context declares (07_mesh_and_clearing.md, 08_dataflow_and_folios.md). -/
namespace Sys2Proof.Machine

open Sys2Proof

/-! ### The active folio -/

def State.image (s : State) (c : Nat) : Option Image := (s.cx c).image

/-- The active folio of a context. -/
def State.activeFolio (s : State) (c : Nat) : Nat := s.fget FOL_CX_STATE.ACTIVE c

/-- The clearing group of the active folio with a TAG (R162). -/
def State.group (s : State) (c tag : Nat) : Option ClearingRec :=
  (s.image c).bind fun im => im.clearing.find? fun g => g.folio == s.activeFolio c && g.tag == tag

/-- An endpoint that the active folio declares for a cluster (R174). -/
def State.ep (s : State) (L q : Nat) : Option Endpoint := mget (fun _ => none) (s.cl L).eps q

def State.setEp (s : State) (L q : Nat) (e : Endpoint) : State :=
  s.updCl L fun c => { c with eps := mput (fun _ => none) c.eps q (some e) }

/-! ### The slots of an endpoint (R175, R186, R459) -/

/-- The address of slot `k` of those that lie in a list of 4 KiB units, 12 to a unit. -/
def slotIn (units : List Nat) (k : Nat) : Option Nat := (units[k / 12]?).map fun u => 4096 * u + 320 * (k % 12)

/-- The extension slots of a cluster's endpoints below endpoint `q`. -/
def Cluster.extBelow (k : Cluster) (q : Nat) : Nat :=
  (k.eps.map fun e => if e.1 < q then (e.2.map (·.ext)).getD 0 else 0).sum

/-- The free units of a vault above its extension slots. That those lie in the lowest free units, and delay parked there
in the next ones, is DESIGN CHOICE. -/
def State.unitsAbove (s : State) (L : Nat) : List Nat := (s.freeUnits L).drop (((s.cl L).extBelow 2048 + 11) / 12)

/-- The parked delay of an endpoint of the active folio (R186). -/
def State.parkOf (s : State) (L q : Nat) : Option DepthRec :=
  s.placer.depths.find? fun d =>
    s.owner L == some d.cx && d.folio == s.activeFolio d.cx && d.cluster == L && d.ep == q && d.parkSite.isSome

/-- Delay of a folio that is parked at a site before that of `d`. -/
def State.parkedBefore (s : State) (d : DepthRec) : Nat :=
  ((s.placer.depths.takeWhile (· != d)).map fun e =>
    if e.cx = d.cx ∧ e.folio = d.folio ∧ e.parkSite = d.parkSite then e.parked else 0).sum

/-- Where a slot lies: an address of a cluster's vault, or of the vault of a site without a cluster (R186). -/
inductive SlotPlace where
  | vault (cluster addr : Nat)
  | spare (site addr : Nat)
  deriving DecidableEq, Repr

/-- The address of parked slot `k` at a site: above the extension slots of the cluster there, from the lowest address of a
vault without a cluster, DESIGN CHOICE, log entry 68. -/
def State.parkedAt (s : State) (n k : Nat) : Option SlotPlace :=
  match (s.site n).holds.head? with
  | some M => (slotIn (s.unitsAbove M) k).map (.vault M)
  | none => (slotIn (List.range (Config.vaultBytes / 4096)) k).map (.spare n)

/-- Where slot `j` of an endpoint lies: none for a slot of the token store. -/
def State.slotAt (s : State) (L q : Nat) (e : Endpoint) (j : Nat) : Option SlotPlace :=
  let store := e.slots - e.ext - e.parked
  if j < store then none
  else if j < store + e.ext then
    (slotIn (s.freeUnits L) ((s.cl L).extBelow q + (j - store))).map (.vault L)
  else
    (s.parkOf L q).bind fun d => d.parkSite.bind fun n => s.parkedAt n (s.parkedBefore d + (j - store - e.ext))

/-- The free units of a vault in which configurations are staged (R193): those above extension slots and delay that the
active folios park on the site. -/
def State.stagingUnits (s : State) (L : Nat) : List Nat :=
  (s.unitsAbove L).drop ((((s.placer.depths.map fun d =>
    if d.parkSite.isSome ∧ d.parkSite = (s.cl L).site ∧ d.folio = s.activeFolio d.cx then d.parked else 0).sum) + 11) / 12)

/-- The slots of the tokens at places `i`, `i + 1`, … of an endpoint are written. -/
def State.slotsWritten (s : State) (L q : Nat) (e : Endpoint) (i n : Nat) : State :=
  s.forEach (List.range n) fun k s =>
    match s.slotAt L q e ((e.pos + i + k) % e.slots) with
    | some (.vault M a) => s.freshGroups M (groupsOf a 320)
    | some (.spare n a) => s.updSite n fun x => { x with
        bad := mputs (fun _ => false) x.bad ((groupsOf a 320).map fun g => (g, false)) }
    | none => s

/-- The slot of the oldest token of an endpoint is read (R459). -/
def State.slotRead (s : State) (L q : Nat) (e : Endpoint) : State :=
  match s.slotAt L q e (e.pos % e.slots) with
  | some (.vault M a) => (s.ownRead M (groupsOf a 320) .mesh true).2
  | some (.spare n a) => s.spareRead L n (groupsOf a 320) .mesh
  | none => s

/-- An endpoint without its oldest token. -/
def Endpoint.shift (e : Endpoint) : Endpoint := { e with held := e.held.drop 1, pos := (e.pos + 1) % e.slots }

/-- A token enters an endpoint. -/
def State.storeToken (s : State) (L q : Nat) (e : Endpoint) (x : Token × Producer) : State :=
  (s.setEp L q { e with held := e.held ++ [x] }).slotsWritten L q e e.held.length 1

/-- Every cluster of the context's active folio has finished its part of the segment (R106). -/
def State.folioClusters (s : State) (c : Nat) : List Nat :=
  match s.image c with
  | none => []
  | some im =>
    match im.folios[s.activeFolio c]? with
    | none => []
    | some f => ((im.folioClusters.drop f.first).take f.count).map (·.cluster)

/-- The teller of a cluster has finished. -/
def State.finished (s : State) (L : Nat) : Bool := (((s.cl L).cores.toArray.getD 0 Core.init).run) == .finished

/-- The context's segment has finished (R106): all its clusters have. -/
def State.segmentFinished (s : State) (c : Nat) : Bool :=
  (s.cx c).segment && (s.folioClusters c).all fun L => s.finished L

/-! ### Packets (R150, R151) -/

/-- The code of a packet TYPE. -/
def pktCode : PktType → Nat
  | .READ_REQ => 1 | .WRITE_REQ => 2 | .READ_RSP => 3 | .WRITE_ACK => 4 | .MCAST_RSP => 5 | .MSG => 6 | .TOKEN => 7
  | .CLEAR => 8 | .REG => 9 | .MOVE => 10

/-- The code of a unit at its router. -/
def unitCode : MeshUnit → Nat
  | .cluster _ u => u
  | _ => 7

/-- The routers of a packet's source and destination. -/
def State.ends (s : State) (p : Packet) : (Nat × Nat) × (Nat × Nat) :=
  let d := s.unitXY p.dst (s.unitXY p.src (0, 0))
  (s.unitXY p.src d, d)

/-- ROW, COUNT, SFMT, SCALE and RUN of a CLEAR packet; zeros of any other. -/
def clearFields : Payload → Nat × Nat × Bool × Nat × Nat
  | .clear row count run sm scale _ _ => (row, count, sm, scale, run)
  | _ => (0, 0, false, 0, 0)

/-- The eight words of a packet's header, with source and destination routers `a` and `d` (R150). -/
def headerOf (p : Packet) (a d : Nat × Nat) : List Word :=
  let (row, count, (sm : Bool), scale, run) := clearFields p.payload
  [pktCode p.type + 2 ^ 4 * p.len + 2 ^ 6 * d.1 + 2 ^ 12 * d.2 + 2 ^ 15 * unitCode p.dst + 2 ^ 18 * a.1 + 2 ^ 24 * a.2
      + 2 ^ 27 * unitCode p.src,
    p.injTime + 2 ^ 16 * p.aged.toNat + 2 ^ 17 * p.poison.toNat + 2 ^ 18 * p.detour.toNat + 2 ^ 19 * p.cx,
    p.addr % 2 ^ 32, p.addr / 2 ^ 32, p.reqId + 2 ^ 16 * row, p.status + count + 2 ^ 16 * sm.toNat,
    scale + 2 ^ 16 * run, 0].map (BitVec.ofNat 32)

/-- The sixteen words of a destination set, with the router of each entry (R151). -/
def State.destSet (s : State) (p : Packet) (d : List (MeshUnit × Nat)) : List Word :=
  let w := d.map fun e =>
    let q := s.unitXY e.1 (s.unitXY p.src (0, 0))
    BitVec.ofNat 32 (q.1 + 2 ^ 6 * q.2 + 2 ^ 9 * unitCode e.1 + 2 ^ 12 * e.2 + 2 ^ 31)
  (w ++ List.replicate 16 0).take 16

/-- The flits of a packet. -/
def flitsOf (p : Packet) : Nat := p.len + 1

/-- A packet with the header fields that most have 0. -/
def packet (t : PktType) (dst src : MeshUnit) (cx addr len reqId : Nat) (pl : Payload) : Packet :=
  { serial := 0, type := t, dst := dst, src := src, x := 0, y := 0, injTime := 0, aged := false, poison := false,
    detour := false, cx := cx, addr := addr, len := len, reqId := reqId, status := 0, payload := pl, ejected := 0,
    looked := false, block := none }

/-! ### Buffers (R148) -/

/-- The classes of packets, which hold separate channels: requests, responses, clearing (R169). That MSG, TOKEN, REG and
MOVE travel with the requests is DEDUCED. -/
def pktClass : PktType → Nat
  | .READ_RSP => 1 | .WRITE_ACK => 1 | .MCAST_RSP => 1
  | .CLEAR => 2
  | _ => 0

def portNum : Port → Nat
  | .north => 0 | .south => 1 | .east => 2 | .west => 3 | .here => 4

/-- The buffer of an input of a router for a class and channel. -/
def bufKey (q : Nat × Nat) (input cls : Nat) (detour : Bool) : Nat :=
  ((42 * q.2 + q.1) * 5 + input) * 6 + 2 * cls + detour.toNat

def State.buf (s : State) (k : Nat) : List BufEntry := mget (fun _ => []) s.mesh.buffers k

def State.setBuf (s : State) (k : Nat) (l : List BufEntry) : State :=
  { s with mesh := { s.mesh with buffers := mput (fun _ => []) s.mesh.buffers k l } }

/-- Flits of a packet that have left a buffer: those that every output has had. -/
def BufEntry.gone (e : BufEntry) : Nat :=
  match e.outs with
  | [] => 0
  | o :: t => t.foldl (fun n o => min n o.sent) o.sent

/-- Flits in a buffer. -/
def occupied (l : List BufEntry) : Nat := (l.map fun e => e.here - e.gone).sum

/-- The packets that a predicate holds of leave the mesh with their flits. -/
def Mesh.without (m : Mesh) (f : Packet → Bool) : Mesh :=
  let gone := (m.packets.filter f).map (·.serial)
  if gone.isEmpty then m
  else { m with
    packets := m.packets.filter fun p => !f p
    buffers := (m.buffers.map fun b => (b.1, b.2.filter fun e => !gone.contains e.pkt)).filter fun b => !b.2.isEmpty
    flits := m.flits.filter fun e => !gone.contains e.pkt }

/-- A packet gets a fresh number and an injection time, which is a free value, since the model keeps no core-cycle time
(R150). -/
def State.stamp (s : State) (p : Packet) (q : Nat × Nat) : Packet × State :=
  let (k, s) := s.take
  ({ p with serial := k, x := q.1, y := q.2, injTime := (Config.cycles k).toNat % 2 ^ 16 }, s)

/-- A packet enters the mesh at a router: its flits stand at the router's local input. That input's list is the queue of
the units there, of which the first 4 flits lie in its buffer. -/
def State.injectAt (s : State) (p : Packet) (q : Nat × Nat) : State :=
  let (p, s) := s.stamp p q
  let k := bufKey q (portNum .here) (pktClass p.type) false
  { s with mesh := { s.mesh with
      packets := s.mesh.packets ++ [p]
      buffers := mput (fun _ => []) s.mesh.buffers k (s.buf k ++ [⟨p.serial, flitsOf p, []⟩]) } }

/-- A packet enters the mesh at its source's router. -/
def State.inject (s : State) (p : Packet) : State := s.injectAt p (s.ends p).1

/-- A packet has come to the router that delivers or refuses it: its destination has taken every flit of it, or it cannot
get there (R24, R154). -/
def State.landed (s : State) (p : Packet) : Bool :=
  decide (flitsOf p ≤ p.ejected) || (s.transit (s.ends p).1 (s.ends p).2).isSome

def State.packetOf (s : State) (serial : Nat) : Option Packet := s.mesh.packets.find? fun p => p.serial == serial

def State.updPacket (s : State) (serial : Nat) (f : Packet → Packet) : State :=
  { s with mesh := { s.mesh with packets := s.mesh.packets.map fun p => if p.serial = serial then f p else p } }

/-- The packet is in the mesh and has not landed. -/
def State.flying (s : State) (p : Packet) : Bool := s.mesh.packets.contains p && !s.landed p

/-- A packet leaves the mesh. -/
def State.dropPacket (s : State) (i : Nat) : State :=
  match s.mesh.packets[i]? with
  | some p => { s with mesh := s.mesh.without fun x => x.serial == p.serial }
  | none => s

/-- A packet that an event is about leaves the mesh, where it was in flight. -/
def State.takePacket (s : State) (p : Packet) : State := { s with mesh := s.mesh.without fun x => x == p }

/-- The tag of a transaction whose DMA request was abandoned: no request has it. Its XID stays in use until it is
answered: DESIGN CHOICE. -/
def abandonedTag : Nat := 128

/-- What a context has in the mesh leaves it: packets with their flits, partial sums, credits to its clusters; its
transactions to other modules are abandoned. CLEAR packets of an abandoned segment go on to their root, which drops them (R166). -/
def State.sweepMesh (s : State) (c : Nat) (clears : Bool) : State :=
  let mine := s.clustersOf c
  let m := s.mesh.without fun p => p.cx == c && (clears || p.type != .CLEAR)
  { s with
    mesh := { m with
      credits := m.credits.filter fun e => !mine.contains e.1
      combine := (m.combine.map fun e => (e.1, e.2.filter fun b => b.cx != c)).filter fun e => !e.2.isEmpty }
    fabric := { s.fabric with
      tx := s.fabric.tx.map fun t => if mine.contains t.cluster then { t with tag := abandonedTag } else t } }

/-! ### Refusals -/

/-- The unit can take requests: its domain is in service and not fenced (R152). -/
def State.unitServes (s : State) (u : MeshUnit) : Bool :=
  match u with
  | .cluster L _ => s.reachable L
  | .channel p _ => s.memServes p
  | .port n => s.up (domFab (dieOfPort n))
  | .pcie => s.up domPcie

/-- The reset that a partition is in (R383). -/
def State.partReset (s : State) (p : Nat) : Option PartReset := mget (fun _ => none) s.recovery.parts p

/-- The partition of a unit of a partition: the sites' and the channels'. -/
def State.partOfUnit (s : State) (u : MeshUnit) : Option Nat :=
  match u with
  | .cluster L _ => some (s.hostPart L)
  | .channel p _ => some p
  | _ => none

/-- The packets that units of a partition hold: they have accepted them (R381). -/
def State.acceptedAt (s : State) (p : Nat) : List Nat :=
  (s.mesh.packets.filter fun k => s.partOfUnit k.dst == some p && decide (flitsOf k ≤ k.ejected)).map (·.serial)

/-- The partition whose units had accepted a packet before its fence was raised, while it drains (R381). -/
def State.drains (s : State) (p : Packet) : Option Nat :=
  (s.partOfUnit p.dst).filter fun m =>
    s.fenced m && s.fon FNC_PART_STATUS.DRAINING m && (s.partReset m).any fun r => r.accepted.contains p.serial

/-- What a partition that drains does for a request that it accepted before its fence (R381): as if it were not fenced. -/
def State.asAccepted {α : Type} (s : State) (m : Option Nat) (f : State → α × State) : α × State :=
  match m with
  | none => f s
  | some m =>
    let (x, t) := f (s.fset FNC_PART_STATUS.FENCED m 0)
    (x, t.fset FNC_PART_STATUS.FENCED m 1)

/-- Why a request is answered without delivery: STATUS 2 UNREACHABLE, 1 FENCED (R24, R152, R154). -/
def State.refusal (s : State) (p : Packet) : Option Nat :=
  match s.transit (s.ends p).1 (s.ends p).2 with
  | some st => some st
  | none => if s.unitServes p.dst || (s.drains p).isSome then none else some 1

/-- Why a request of one unit to another that the model does not hold as a packet is answered without delivery: that of
its path, or of its end. -/
def State.askRefusal (s : State) (u v : MeshUnit) : Option Nat :=
  let d := s.unitXY v (s.unitXY u (0, 0))
  match s.transit (s.unitXY u d) d with
  | some st => some st
  | none => if s.unitServes v then none else some 1

/-- The answer to a request of `u` to `v` cannot come back: its own path from `v` crosses a die in reset, or the mesh is
parted (R24, R154). -/
def State.answerCut (s : State) (u v : MeshUnit) : Bool :=
  let d := s.unitXY v (s.unitXY u (0, 0))
  (s.transit d (s.unitXY u d)).isSome

/-- A read of one unit by another brings no data: it does not get there, or its answer does not get back. -/
def State.readRefused (s : State) (u v : MeshUnit) : Bool := (s.askRefusal u v).isSome || s.answerCut u v

/-- Such a request is answered FENCED or UNREACHABLE, and counted at the router that refuses it, or its answer (R152,
R154). -/
def State.countRefused (s : State) (u v : MeshUnit) : State :=
  let d := s.unitXY v (s.unitXY u (0, 0))
  let a := s.unitXY u d
  s.finc MSH_FENCED.ANSWERED (partOfXY (if (s.askRefusal u v).isSome then s.refuser a d else s.refuser d a))

/-- The channel of a block of memory that a unit cannot read: refused on its way to the block's channel, there, or on the
answer's way back (R24, R461). -/
def State.memRefusal (s : State) (u : MeshUnit) (c a : Nat) : Option MeshUnit :=
  match s.place c a with
  | none => none
  | some (p, ch, _, _) => if s.readRefused u (.channel p ch) then some (.channel p ch) else none

/-- The channel of a block of memory that a unit cannot write: refused on its way or there. -/
def State.memWriteRefusal (s : State) (u : MeshUnit) (c a : Nat) : Option MeshUnit :=
  match s.place c a with
  | none => none
  | some (p, ch, _, _) => if (s.askRefusal u (.channel p ch)).isSome then some (.channel p ch) else none

/-- The channel whose acknowledgement of a write to a block does not come back. -/
def State.ackCut (s : State) (u : MeshUnit) (c a : Nat) : Option MeshUnit :=
  match s.place c a with
  | none => none
  | some (p, ch, _, _) => if s.answerCut u (.channel p ch) then some (.channel p ch) else none

/-- A read of logical memory by a unit of the mesh: blocks that it cannot reach, or whose answers cannot come back, are
answered FENCED, and bring zeros (R24, R152). -/
def State.memReadBy (s : State) (u : MeshUnit) (c a n : Nat) (raw : Bool) : MemRead × State :=
  (blockPieces a n).foldl (fun (acc : MemRead × State) pc =>
    match acc.2.memRefusal u c pc.1 with
    | some v => ({ acc.1 with bytes := acc.1.bytes ++ List.replicate pc.2 0, fenced := true }, acc.2.countRefused u v)
    | none =>
      let (r, s) := acc.2.memRead c pc.1 pc.2 raw
      ({ bytes := acc.1.bytes ++ r.bytes, poison := acc.1.poison || r.poison, fenced := acc.1.fenced || r.fenced }, s))
    (⟨[], false, false⟩, s)

/-- A block of a range of memory cannot be reached by a unit. -/
def State.rangeRefused (s : State) (u : MeshUnit) (c a n : Nat) : Bool :=
  (blockPieces a n).any fun pc => (s.memRefusal u c pc.1).isSome

/-- A response to a unit of a partition whose drain has ended comes too late (R381). -/
def State.lateAt (s : State) (p : Nat) : Bool := s.fenced p && !s.fon FNC_PART_STATUS.DRAINING p

/-- The router that refuses a packet. -/
def State.refuserOf (s : State) (p : Packet) : Nat × Nat := s.refuser (s.ends p).1 (s.ends p).2

/-- A posted packet that is refused: dropped and counted. -/
def State.dropPosted (s : State) (p : Packet) : State := s.finc MSH_FENCED.DROPPED (partOfXY (s.refuserOf p))

/-! ### Circuits (R156) -/

/-- The number by which a slot entry names a circuit or halo. -/
def Circuit.number (r : Circuit) : Nat := (if r.halo then 2 ^ 20 else 0) + r.id

/-- The circuit that carries a SEND endpoint or a halo of the active folio, where it has slots (R240). -/
def State.circuitFor (s : State) (c : Nat) (halo : Bool) (id : Nat) : Option Circuit :=
  s.placer.circuits.find? fun r => r.cx == c && r.folio == s.activeFolio c && r.halo == halo && r.id == id && !r.slots.isEmpty

/-- A packet that travels as flits of a circuit, which wait at the local input of its first router. -/
def State.sendFlits (s : State) (r : Circuit) (p : Packet) : State :=
  let k := ((r.outputs.map (·.1)).headD 0)
  let (p, s) := s.stamp p (k % 42, k / 42)
  { s with mesh := { s.mesh with
      packets := s.mesh.packets ++ [p]
      flits := s.mesh.flits ++ List.replicate (flitsOf p) ⟨r.cx, r.number, k, portNum .here, p.serial⟩ } }

/-! ### Tokens and credits -/

/-- A token leaves a cluster for a RECV endpoint (R178, R180): it carries the epoch its context has now. -/
def State.token (s : State) (L c : Nat) (kind : TokenKind) (ep srcEp id : Nat) (mask : DWord)
    (scales lanes : List Word) (poison : Bool) : Token :=
  { endpoint := ep, epoch := s.fget FOL_CX_STATE.EPOCH c, kind := kind, poison := poison, cx := c, source := L,
    sourceEp := srcEp, mask := mask, scales := scales, id := id, lanes := lanes }

def State.binding (s : State) (k : Nat) : Binding := mget (fun _ => Binding.init) s.fabric.binds k

def State.setBinding (s : State) (k : Nat) (b : Binding) : State :=
  { s with fabric := { s.fabric with binds := mput (fun _ => Binding.init) s.fabric.binds k b } }

/-- Send a token to a SEND TOKEN endpoint that holds a credit (R176): on its circuit (R178), as a packet, or into the free
half of the outbound log that the endpoint is bound to (R312). `unit` is the sending unit, `srcEp` the SOURCE_EP it
shows; POISON marks lanes that were built from poisoned data. -/
def State.sendToken (s : State) (L q unit srcEp : Nat) (e : Endpoint) (mask : DWord) (scales lanes : List Word)
    (poison : Bool) : State :=
  match s.owner L with
  | none => s
  | some c =>
    let t := s.token L c .data e.peerEp srcEp 0 mask scales lanes poison
    let s := s.setEp L q { e with credits := e.credits - 1 }
    let s :=
      if e.fabric then
        let b := s.binding e.peer
        s.setBinding e.peer { b with open_ := b.open_.map (· ++ [t]) }
      else
        let p := { packet .TOKEN (.cluster e.peer 4) (.cluster L unit) c 0 2 0 (.token t (.endpoint L q)) with
          poison := poison }
        match s.circuitFor c false (L * 2048 + q) with
        | some r => s.sendFlits r p
        | none => s.inject p
    s.progress L

/-- A clearing contribution of a cluster to a group (R163). -/
def State.sendClear (s : State) (L tag row unit : Nat) (sm16 : Bool) (scale : Nat) (lanes : List Word) (poison : Bool) :
    State :=
  match s.owner L with
  | none => s
  | some c =>
    match s.group c tag with
    | none => s
    | some g =>
      (s.inject { packet .CLEAR (.cluster g.root 0) (.cluster L unit) c 0 2 tag
        (.clear row 1 ((s.cx c).runNumber % 2 ^ 16) sm16 scale lanes [L]) with poison := poison }).progress L

/-- Tokens of an inbound half go on to the endpoint while the port holds credits of it; the port acts as the producer,
so the token shows the endpoint, context and epoch of this package (R314). -/
def passInto (c epoch q : Nat) (p : Producer) : List (Nat × Token) → List Nat → Endpoint → List Nat × Endpoint
  | [], done, e => (done, e)
  | (i, t) :: rest, done, e =>
    if i ∈ done then passInto c epoch q p rest done e
    else if e.credits = 0 then (done, e)
    else passInto c epoch q p rest (i :: done)
      { e with credits := e.credits - 1,
               held := e.held ++ [({ t with endpoint := q, epoch := epoch, cx := c }, p)] }

/-- A binding passes what it may of the half that the running segment consumes (R314). -/
def State.passTokens (s : State) (k : Nat) : State :=
  let b := s.binding k
  match b.target with
  | none => s
  | some (L, q) =>
    match s.owner L, s.ep L q, b.halves.find? (fun h => h.sseq == b.consume) with
    | some c, some e, some h =>
      let (done, e') := passInto c (s.fget FOL_CX_STATE.EPOCH c) q (.fabric (k / 256) (k % 256)) h.tokens h.passed e
      ((s.setEp L q e').slotsWritten L q e e.held.length (e'.held.length - e.held.length)).setBinding k { b with
        halves := b.halves.map fun x => if x.sseq = h.sseq then { x with passed := done } else x }
    | _, _, _ => s

/-- A credit on its way back to the producer whose token was removed (R176). A fabric port takes its credit at once; while
its context drains, it gets none back (R188). -/
def State.giveBack (s : State) (L q : Nat) (p : Producer) : State :=
  match p with
  | .endpoint M r => { s with mesh := { s.mesh with credits := s.mesh.credits ++ [(M, r)] } }
  | .fabric _ _ =>
    match s.owner L, s.ep L q with
    | some c, some e => if (s.cx c).withheld then s else s.setEp L q { e with credits := e.credits + 1 }
    | _, _ => s
  | .none => s

/-- The credit of a token that the segment consumed; a fabric port passes its next token (R314). -/
def State.returnCredit (s : State) (L q : Nat) (p : Producer) : State :=
  let s := s.giveBack L q p
  match p with
  | .fabric n b => s.passTokens (n * 256 + b)
  | _ => s

/-- The element of a list at a place, and the list without it. -/
def takeAt {α : Type} (l : List α) (i : Nat) : Option (α × List α) := (l[i]?).map fun x => (x, l.eraseIdx i)

end Sys2Proof.Machine
end

