-- ==== Sys2Proof/Machine/Mesh.lean ====
section
/-! DEFINITION. The mesh (07_mesh_and_clearing.md): requests and responses at their units, routing around fault regions,
arbitration, clearing, and tokens and credits that arrive (08_dataflow_and_folios.md, R176 to R181). -/
namespace Sys2Proof.Machine

open Sys2Proof

/-! ### Requests and responses -/

/-- The answer to a request, which goes back to its source (R150). -/
def responseTo (p : Packet) (t : PktType) (status : Nat) (poison : Bool) (b : List Byte) : Packet :=
  { packet t p.src p.dst p.cx p.addr ((b.length + 31) / 128) p.reqId (.bytes b) with status := status, poison := poison }

/-- The answer starts at the unit that gives it. -/
def State.respond (s : State) (p : Packet) (t : PktType) (status : Nat) (poison : Bool) (b : List Byte) : State :=
  s.inject (responseTo p t status poison b)

/-- A request that is refused: answered by the router that refuses it, and counted there. -/
def State.refuseRequest (s : State) (p : Packet) (t : PktType) (status : Nat) : State :=
  (s.finc MSH_FENCED.ANSWERED (partOfXY (s.refuserOf p))).injectAt (responseTo p t status false []) (s.refuserOf p)

/-- The vault word or memory block that a READ_REQ asks for (R138, R276). -/
def readPlace (p : Packet) : Nat :=
  match p.dst with
  | .channel _ _ => p.addr / 64
  | _ => p.addr / 32

/-- The packets of a list up to one that has reached a unit and writes a place of it. -/
def State.beforeWrite (s : State) (place : Nat) (dst : MeshUnit) : List Packet → List Packet
  | [] => []
  | q :: t =>
    if q.type = .WRITE_REQ ∧ q.dst = dst ∧ readPlace q = place ∧ s.landed q = true then []
    else q :: s.beforeWrite place dst t

/-- A read or write waits behind one of the same place that reached the unit earlier: they are served in the order in
which they came, reads beside reads (R138, R276). -/
def State.behind (s : State) (p : Packet) : Bool :=
  (s.mesh.packets.takeWhile (· != p)).any fun q =>
    q.dst == p.dst && readPlace q == readPlace p && s.landed q
      && (q.type == .WRITE_REQ || (q.type == .READ_REQ && p.type == .WRITE_REQ))

/-- The reads of the same place of the same unit that wait there with a read and no write between: at most 15 more
(R138, R276). -/
def State.merged (s : State) (p : Packet) : List Packet :=
  let near := s.beforeWrite (readPlace p) p.dst
  let l := s.mesh.packets
  ((near (l.takeWhile (· != p)).reverse ++ near ((l.dropWhile (· != p)).drop 1)).filter fun q =>
    q.type == .READ_REQ && q.dst == p.dst && q.cx == p.cx && readPlace q == readPlace p && q.block == p.block && q != p && s.landed q
      && (s.refusal q).isNone).take 15

/-- The answer to a read and to those merged with it: a READ_RSP, or one MCAST_RSP with a destination set (R151). -/
def State.answerReads (s : State) (p : Packet) (others : List Packet) (bad : Bool) (b : List Byte) : State :=
  match others with
  | [] => s.respond p .READ_RSP 0 bad b
  | _ =>
    let d := (p :: others).map fun q => (q.src, q.reqId)
    s.inject { packet .MCAST_RSP p.src p.dst p.cx p.addr ((b.length + 95) / 128) p.reqId (.dests d b) with poison := bad }

/-- The remote reads that one access answers with a read: those that stand in the mesh at its unit, and those that the event
names as waiting there; at most 15 more (R138, R276). Which reads wait together the model, which keeps no core-cycle time,
takes from the event: DESIGN CHOICE, log entry 17. -/
def State.mergedWith (s : State) (r : ReadService) : List Packet :=
  (s.merged r.pkt ++ (r.waiting.map fun w => { r.pkt with src := w.1, reqId := w.2 }).filter fun q =>
    (s.refusal q).isNone).take 15

/-- The block of memory that a request to a channel goes to: that of the frame under which it was translated, where its page
has another one since (R275). -/
def State.requestRead (s : State) (p : Packet) (m ch : Nat) : MemRead × State :=
  match p.block with
  | none => s.memRead p.cx (p.addr / 64 * 64) 64 true
  | some b =>
    match s.blockRead m ch b p.cx .none with
    | (none, s) => (⟨List.replicate 64 0, false, true⟩, s)
    | (some (d, bad), s) => (⟨d, bad, false⟩, s)

/-- The same for a write: whether it was answered FENCED. -/
def State.requestWrite (s : State) (p : Packet) (m ch : Nat) (data : List Byte) : Bool × State :=
  match p.block with
  | none => s.memWrite p.cx p.addr data p.poison
  | some b => s.blockWrite m ch b p.cx (p.addr % 64) (data.take (64 - p.addr % 64)) p.poison

/-- READ_REQ (R150, R152): a 32-byte vault word, or a 64-byte block of memory, read once for every request that waits for
it; each merge is counted, those of the cluster's own ports as well (R138, R276). -/
def State.readReq (s : State) (r : ReadService) : State :=
  let p := r.pkt
  if s.flying p || s.behind p then s
  else
    let others := s.mergedWith r
    let s := s.takePacket p
    match s.refusal p with
    | some st => s.refuseRequest p .READ_RSP st
    | none =>
      let taken := s.forEach others fun q s => s.takePacket q
      match p.dst with
      | .cluster L _ =>
        let (b, bad, s) := taken.vload L (p.addr / 32 * 32) 32 .mesh
        (s.fadd VLT_MERGE.COUNT L (others.length + r.ports)).answerReads p others bad b
      | .channel m ch =>
        let (r, s) := taken.asAccepted (s.drains p) fun s => s.requestRead p m ch
        if r.fenced then (s.forEach (p :: others) fun q s => s.refuseRequest q .READ_RSP 1)
        else (s.fadd MEM_MERGE.COUNT m others.length).answerReads p others r.poison r.bytes
      | _ => s

/-- The bytes of a packet's payload. -/
def packetBytes (p : Packet) : List Byte :=
  match p.payload with
  | .bytes b => b
  | .dests _ b => b
  | _ => []

/-! ### The DMA engine's side -/

def DmaReq.word (q : DmaReq) (i : Nat) : Nat := (q.desc.getD i 0).toNat

/-- OP of a DMA descriptor (R261). -/
def DmaReq.op (q : DmaReq) : Nat := bitsOf (q.word 0) 3 0
def DmaReq.length (q : DmaReq) : Nat := q.word 1
def DmaReq.src (q : DmaReq) : Nat := q.word 2 + 2 ^ 32 * q.word 3
def DmaReq.peer (q : DmaReq) : Nat := bitsOf (q.word 6) 15 0
def DmaReq.dst (q : DmaReq) : Nat := q.word 4 + 2 ^ 32 * q.word 5

def State.dmaReq (s : State) (L tag : Nat) : Option DmaReq := (s.cl L).dma.reqs.find? fun q => q.tag == tag

/-- The halo of the active folio that a cluster is the source of (R146, R205). -/
def State.halo (s : State) (c L h : Nat) : Option HaloRec :=
  (s.image c).bind fun im =>
    im.halos.find? fun x => x.folio == s.activeFolio c && x.halo == h && x.src == L

/-- The halo of a HALO request (R261). -/
def State.haloOf (s : State) (c L tag : Nat) : Option HaloRec :=
  (s.dmaReq L tag).bind fun q => if q.op = 8 then s.halo c L q.peer else none

/-- The packet carries data of a halo (R240). -/
def State.carriesHalo (s : State) (p : Packet) : Bool :=
  match p.src with
  | .cluster L 2 => (s.haloOf p.cx L p.reqId).isSome
  | _ => false

def State.updReq (s : State) (L tag : Nat) (f : DmaReq → DmaReq) : State :=
  s.updCl L fun c => { c with dma := { c.dma with reqs := c.dma.reqs.map fun q => if q.tag = tag then f q else q } }

/-- Data that answers a DMA READ is put in its place in the vault. -/
def State.placeRead (s : State) (L : Nat) (q : DmaReq) (addr : Nat) (b : List Byte) : State :=
  if q.op = 1 ∧ q.src ≤ addr ∧ addr + b.length ≤ q.src + q.length then s.vstore L (q.dst + (addr - q.src)) b .dma
  else s

/-- A response reaches the DMA engine of a cluster: data in its place, the outcome noted (R263). -/
def State.dmaResponse (s : State) (L tag status addr : Nat) (poison : Bool) (b : List Byte) : State :=
  match s.dmaReq L tag with
  | none => s
  | some q =>
    let s := s.updReq L tag fun q => { q with
      fenced := q.fenced || status != 0, poison := q.poison || poison, waiting := q.waiting - 1 }
    if status ≠ 0 ∨ b.isEmpty then s
    else s.placeRead L q addr (if poison then List.replicate b.length 0 else b)

/-- The STATUS with which a response from `p`'s source reaches a unit: its own, or that of the refusal where its path crosses
a die in reset or a parted mesh (R24, R154). -/
def State.responseStatus (s : State) (p : Packet) (u : MeshUnit) : Nat :=
  let d := s.unitXY u (s.unitXY p.src (0, 0))
  (s.transit (s.unitXY p.src d) d).getD p.status

/-- A response at its unit. At a fenced partition that no longer drains it is dropped at the edge and counted in LATE
(R381). A core's load or
store took its effect when it issued (R114), so only the DMA engine acts on one. -/
def State.response (s : State) (u : MeshUnit) (reqId status addr : Nat) (poison : Bool) (b : List Byte) : State :=
  match u with
  | .cluster L unit =>
    if s.lateAt (s.hostPart L) then s.finc FNC_PART_STATUS.LATE (s.hostPart L)
    else if unit = 2 then s.dmaResponse L reqId status addr poison b
    else s
  | _ => s

def State.readRsp (s : State) (p : Packet) : State :=
  if s.flying p then s else (s.takePacket p).response p.dst p.reqId (s.responseStatus p p.dst) p.addr p.poison (packetBytes p)

def State.writeAck (s : State) (p : Packet) : State :=
  if s.flying p then s else (s.takePacket p).response p.dst p.reqId (s.responseStatus p p.dst) p.addr false []

/-- MCAST_RSP (R151): each entry of the destination set that has come to its router is delivered to its unit. -/
def State.mcastRsp (s : State) (p : Packet) : State :=
  if s.flying p then s
  else
    match p.payload with
    | .dests d b => (s.takePacket p).forEach d fun e s =>
      s.response e.1 e.2 (s.responseStatus p e.1) p.addr p.poison b
    | _ => s.takePacket p

def execReadReq (service : ReadService) (s : State) : Host.Outcome State Fault Refusal :=
  onUnit service.ok (s.readReq service)

def execReadRsp (pkt : Packet) (s : State) : Host.Outcome State Fault Refusal := onUnit pkt.ok (s.readRsp pkt)

def execWriteAck (pkt : Packet) (s : State) : Host.Outcome State Fault Refusal := onUnit pkt.ok (s.writeAck pkt)

def execMcastRsp (pkt : Packet) (s : State) : Host.Outcome State Fault Refusal := onUnit pkt.ok (s.mcastRsp pkt)

/-! ### Routing -/

/-- The dimension-order path enters a region. -/
def enters (r : Nat × Nat × Nat × Nat) (q d : Nat × Nat) : Bool := (orderPath d 50 q).any (regionHas r)

/-- A router borders a region, corners included (R153). -/
def onRing (r : Nat × Nat × Nat × Nat) (q : Nat × Nat) : Bool :=
  !regionHas r q && decide (r.1 ≤ q.1 + 1) && decide (q.1 ≤ r.2.2.1 + 1) && decide (r.2.1 ≤ q.2 + 1)
    && decide (q.2 ≤ r.2.2.2 + 1)

/-- A step between routers; none beyond the edge of the mesh, where a ring is open. -/
def stepXY (q : Nat × Nat) (p : Port) : Option (Nat × Nat) :=
  match p with
  | .north => if q.2 = 0 then none else some (q.1, q.2 - 1)
  | .south => if q.2 ≥ 7 then none else some (q.1, q.2 + 1)
  | .west => if q.1 = 0 then none else some (q.1 - 1, q.2)
  | .east => if q.1 ≥ 41 then none else some (q.1 + 1, q.2)
  | .here => none

/-- The next step around a ring, clockwise or not. -/
def ringStep (r : Nat × Nat × Nat × Nat) (cw : Bool) (q : Nat × Nat) : Port :=
  let top := decide (q.2 < r.2.1)
  let bottom := decide (r.2.2.2 < q.2)
  let left := decide (q.1 < r.1)
  let right := decide (r.2.2.1 < q.1)
  if cw then
    if top && !right then .east else if right && !bottom then .south else if bottom && !left then .west else .north
  else
    if top && !left then .west else if left && !bottom then .south else if bottom && !right then .east else .north

/-- How many hops a walk around the ring takes until dimension order no longer enters the region, and on to the
destination; none where the ring is open in that direction. -/
def ringLength (r : Nat × Nat × Nat × Nat) (cw : Bool) (d : Nat × Nat) : Nat → Nat × Nat → Option Nat
  | 0, _ => none
  | n + 1, q =>
    if !enters r q d then some ((orderPath d 50 q).length)
    else
      match stepXY q (ringStep r cw q) with
      | none => none
      | some q' => (ringLength r cw d n q').map (· + 1)

/-- The port by which a packet leaves a router, and whether it is then circling a region (R153). -/
def State.route (s : State) (q d : Nat × Nat) (detour : Bool) : Port × Bool :=
  if q = d then (.here, false)
  else
    let n := orderNext q d
    let plain : Port :=
      if n.1 > q.1 then .east else if n.1 < q.1 then .west else if n.2 > q.2 then .south else .north
    match s.placer.regions.find? fun r => regionHas r n || (detour && onRing r q && enters r q d) with
    | none => (plain, false)
    | some r =>
      match ringLength r true d 100 q, ringLength r false d 100 q with
      | some a, some b => (ringStep r (decide (a ≤ b)) q, true)
      | some _, none => (ringStep r true q, true)
      | none, some _ => (ringStep r false q, true)
      | none, none => (plain, detour)

/-- The port by which a packet leaves a router, and whether it is then circling a region. -/
def State.routeOf (s : State) (p : Packet) (q : Nat × Nat) : Port × Bool := s.route q (s.ends p).2 p.detour

/-- Where an entry of a destination set leaves a router (R151). -/
def State.entryRoute (s : State) (p : Packet) (q : Nat × Nat) (u : MeshUnit) : Port × Bool :=
  s.route q (s.unitXY u (s.unitXY p.src (0, 0))) p.detour

/-- The outputs that a packet needs at a router: one, or for a MCAST_RSP every one that an entry needs (R151). -/
def State.outsFor (s : State) (p : Packet) (q : Nat × Nat) : List (Port × Bool) :=
  match p.payload with
  | .dests d _ => (d.map fun e => s.entryRoute p q e.1).dedup
  | _ => [s.routeOf p q]

/-- The copy of a packet for an output carries only the entries of its direction (R151). -/
def State.entriesFor (s : State) (p : Packet) (q : Nat × Nat) (o : Port × Bool) : Payload :=
  match p.payload with
  | .dests d b => .dests (d.filter fun e => decide (s.entryRoute p q e.1 = o)) b
  | x => x

/-- An injection time is older than another, as serial numbers modulo 2^16 (R155). -/
def older (a b : Nat) : Bool := let d := (b + 2 ^ 16 - a % 2 ^ 16) % 2 ^ 16; d != 0 && decide (d < 2 ^ 15)

/-- One packet is granted before another by rules 2 and 3 of R155. -/
def beats (a b : Packet) : Bool :=
  if a.aged || b.aged then a.aged && !b.aged else older a.injTime b.injTime

/-- AGED (R155): more than 2^15 units have passed since the packet's injection time. -/
def State.age (s : State) (i now : Nat) : State :=
  match s.mesh.packets[i]? with
  | none => s
  | some p =>
    if !p.aged && decide ((now % 2 ^ 16 + 2 ^ 16 - p.injTime % 2 ^ 16) % 2 ^ 16 > 2 ^ 15) then
      ({ s with mesh := { s.mesh with packets := s.mesh.packets.set i { p with aged := true } } }).finc
        MSH_AGED.COUNT (partOfXY (p.x, p.y))
    else s

def execAged (index now : Nat) (s : State) : Host.Outcome State Fault Refusal := onUnit true (s.age index now)

/-! ### Clearing in the tree -/

/-- The scale of a clearing contribution. -/
def clearScaleOf (sm16 : Bool) (scale : Nat) : Scale := Scale.decode (if sm16 then .SM16 else .SE8) scale

def sameClearScale (a : Bool) (sa : Nat) (b : Bool) (sb : Nat) : Bool :=
  (clearScaleOf a sa).sameValue (clearScaleOf b sb)

/-- Lanes added with 32-bit wrapping addition. -/
def addLanes (a b : List Word) : List Word := (List.range 64).map fun i => a.getD i 0 + b.getD i 0

/-- The contributions of a cluster to a row: one each where the image gives as many contributions as contributors. How
other numbers divide over the clusters the spec does not say: a free value. -/
def ClearingRec.share (g : ClearingRec) (L : Nat) : Nat :=
  if g.contributions = g.contributors.length then 1 else (Config.clearShare g.tag L).toNat

/-- The contributions of a group whose tree path passes a router: the subtree of the router (R162, R164). -/
def State.subtree (s : State) (g : ClearingRec) (q : Nat × Nat) : Nat :=
  let inside := g.contributors.filter fun L =>
    let a := s.clusterXY L
    decide (a = q) || (orderPath (s.clusterXY g.root) 50 a).contains q
  if inside.length = g.contributors.length then g.contributions else (inside.map g.share).sum

/-- A router belongs to the tree of a group of the active folio (R162, R240). -/
def State.inTree (s : State) (c tag key : Nat) : Bool :=
  s.placer.trees.any fun t => t.cx == c && t.folio == s.activeFolio c && t.tag == tag && t.routers.contains key

def State.combines (s : State) (k : Nat) : List Combine := mget (fun _ => []) s.mesh.combine k

def State.setCombines (s : State) (k : Nat) (l : List Combine) : State :=
  { s with mesh := { s.mesh with combine := mput (fun _ => []) s.mesh.combine k l } }

/-- The packet of a combining buffer on its way to the root. -/
def State.sendCombined (s : State) (q : Nat × Nat) (b : Combine) : State :=
  match s.group b.cx b.tag with
  | none => s
  | some g =>
    let src := MeshUnit.cluster (b.from_.headD g.root) 0
    s.injectAt { packet .CLEAR (.cluster g.root 0) src b.cx 0 2 b.tag
      (.clear b.row b.count b.run b.sfmt16 b.scale b.lanes b.from_) with poison := b.poison, looked := true } q

/-- A clearing condition (R168): one record per condition, group and tally. -/
def State.clearCondition (s : State) (c tag code L : Nat) : State :=
  if (s.cx c).clearRecorded.contains (tag * 8 + code) then s
  else (s.updCx c fun x => { x with clearRecorded := (tag * 8 + code) :: x.clearRecorded }).report sevWarning blkMSH code L
    (some c) [BitVec.ofNat 32 tag]

/-- The inputs of a router with the classes and channels of each. -/
def channelsAt : List (Nat × Nat × Bool) :=
  (List.range 5).flatMap fun i => (List.range 3).flatMap fun c => [(i, c, false), (i, c, true)]

/-- A CLEAR packet waits for the tree router that it stands at to look at it (R164). -/
def State.awaitsLook (s : State) (p : Packet) (q : Nat × Nat) : Bool :=
  p.type == .CLEAR && !p.looked && s.inTree p.cx p.reqId (42 * q.2 + q.1)

/-- All flits of a packet stand in a buffer of a router, and none has gone on. -/
def State.wholeAt (s : State) (q : Nat × Nat) (p : Packet) : Bool :=
  channelsAt.any fun l => (s.buf (bufKey q l.1 l.2.1 l.2.2)).any fun e =>
    e.pkt == p.serial && decide (flitsOf p ≤ e.here) && e.outs.isEmpty

/-- The look of a tree router at a CLEAR packet `p` (R164): added to the buffer of its row, or waiting in a free one, or
left to go on. Differing scales are counted where they meet (R168). -/
def State.combineAt (s : State) (q : Nat × Nat) (i : Nat) (p : Packet) (g : ClearingRec) (row count run : Nat) (sm : Bool)
    (scale : Nat) (lanes : List Word) (src : List Nat) : State :=
  let key := 42 * q.2 + q.1
  let l := s.combines key
  let on := s.updPacket p.serial fun p => { p with looked := true }
  match l.findIdx? fun b => b.cx == p.cx && b.tag == p.reqId && b.row == row && b.run == run with
  | some j =>
    match l[j]? with
    | none => s
    | some b =>
      if sameClearScale sm scale b.sfmt16 b.scale then
        let b := { b with lanes := addLanes b.lanes lanes, count := b.count + count, from_ := b.from_ ++ src
                          poison := b.poison || p.poison }
        let s := (s.dropPacket i).finc MSH_CLR_COMBINE.COUNT (partOfXY q)
        if s.subtree g q ≤ b.count then (s.setCombines key (l.eraseIdx j)).sendCombined q b
        else s.setCombines key (l.set j b)
      else if clearScaleOf sm scale = .invalid ∨ clearScaleOf b.sfmt16 b.scale = .invalid then on
      else (on.finc MSH_CLR_ERROR.MISMATCH (partOfXY q)).clearCondition p.cx p.reqId 1 g.root
  | none =>
    if l.length < 4 && decide (count < s.subtree g q) && s.fget MSH_CLR_HOLD.HOLD (partOfXY q) != 0 then
      (s.dropPacket i).setCombines key (l ++ [⟨p.cx, p.reqId, row, run, sm, scale, count, lanes, src, p.poison⟩])
    else on

/-- CLEAR_COMBINE: a CLEAR packet at a router of its group's tree. -/
def State.combine (s : State) (q : Nat × Nat) (i : Nat) : State :=
  match s.mesh.packets[i]? with
  | none => s
  | some p =>
    match p.payload, s.group p.cx p.reqId with
    | .clear row count run sm scale lanes src, some g =>
      if s.awaitsLook p q && s.wholeAt q p then s.combineAt q i p g row count run sm scale lanes src else s
    | _, _ => s

def execClearCombine (x y index : Nat) (s : State) : Host.Outcome State Fault Refusal :=
  onUnit (okRouter x y) (s.combine (x, y) index)

/-- COMBINE_HOLD_EXPIRE (R164): the partial sum has waited HOLD cc and goes on. -/
def State.holdExpire (s : State) (q : Nat × Nat) (slot : Nat) : State :=
  let key := 42 * q.2 + q.1
  match takeAt (s.combines key) slot with
  | none => s
  | some (b, rest) => (s.setCombines key rest).sendCombined q b

def execCombineHoldExpire (x y slot : Nat) (s : State) : Host.Outcome State Fault Refusal :=
  onUnit (okRouter x y) (s.holdExpire (x, y) slot)

/-! ### Tokens at their endpoints -/

/-- A folio condition: the most recent one of the context (FOL_CX_ERROR). -/
def State.folioCondition (s : State) (c code : Nat) : State := s.fset FOL_CX_ERROR.LAST c code

/-- A stale token (R180): counted and reported. -/
def State.staleToken (s : State) (c L q epoch : Nat) : State :=
  let s := s.finc FOL_CX_STALE.COUNT c
  let s := ((s.fset FOL_CX_STALE_LAST.EPOCH c epoch).fset FOL_CX_STALE_LAST.ENDPOINT c q).fset
    FOL_CX_STALE_LAST.CLUSTER c L
  (s.folioCondition c 1).report sevWarning blkFOL 1 L (some c)
    [BitVec.ofNat 32 (epoch * 2 ^ 20 + q * 2 ^ 9 + L)]

/-- Leftovers are counted, and reported once per context and tally (R181). -/
def State.leftover (s : State) (c n : Nat) : State :=
  if n = 0 then s
  else
    let s := (s.fadd FOL_CX_LEFTOVER.COUNT c n).folioCondition c 2
    if (s.cx c).leftoverRecorded then s
    else (s.updCx c fun x => { x with leftoverRecorded := true }).report sevWarning blkFOL 2 0xFFFF (some c) []

/-- States of FOL_CX_STATE.STATE. -/
def State.draining (s : State) (c : Nat) : Bool := (s.cx c).lastSegment

/-- A token reaches a RECV endpoint (R180, R181): stored, discarded as stale, or, once the context of a draining folio
has finished, discarded as a leftover whose credit goes back. -/
def State.deliver (s : State) (c L q : Nat) (t : Token) (p : Producer) : State :=
  match s.ep L q with
  | some e =>
    if e.send || t.epoch != s.fget FOL_CX_STATE.EPOCH c then s.staleToken c L q t.epoch
    else if s.draining c && s.segmentFinished c then (s.leftover c 1).returnCredit L q p
    else s.storeToken L q e (t, p)
  | none => s.staleToken c L q t.epoch

/-- A completion token: the message unit of the destination makes it (R147, R166). -/
def State.completionToken (s : State) (c L q source : Nat) (kind : TokenKind) (id : Nat) : State :=
  s.deliver c L q (s.token source c kind q 0 id 0 [] [] false) .none

/-- A token of the same SEND endpoint to the same cluster that was sent earlier is still in the mesh (R177). -/
def State.overtakes (s : State) (i : Nat) (p : Packet) (src : Producer) : Bool :=
  (s.mesh.packets.take i).any fun q =>
    match q.payload with
    | .token _ x => x == src && q.dst == p.dst
    | _ => false

/-- TOKEN_ARRIVAL: a TOKEN packet, or the last flit of a token on a circuit, has reached its cluster, and no earlier token
of its edge is to come. -/
def State.tokenArrival (s : State) (i : Nat) : State :=
  match s.mesh.packets[i]? with
  | none => s
  | some p =>
    match p.dst, p.payload with
    | .cluster L _, .token t src =>
      if !s.landed p || s.overtakes i p src then s
      else
        let s := s.dropPacket i
        if (s.refusal p).isSome then s.dropPosted p else s.deliver p.cx L t.endpoint t src
    | _, _ => s

def execTokenArrival (index : Nat) (s : State) : Host.Outcome State Fault Refusal := onUnit true (s.tokenArrival index)

/-- CREDIT_RETURN (R176): a credit reaches the SEND endpoint it belongs to. -/
def State.creditArrives (s : State) (i : Nat) : State :=
  match takeAt s.mesh.credits i with
  | none => s
  | some ((L, q), rest) =>
    let s := { s with mesh := { s.mesh with credits := rest } }
    match s.ep L q with
    | some e => if e.send then s.setEp L q { e with credits := e.credits + 1 } else s
    | none => s

def execCreditReturn (index : Nat) (s : State) : Host.Outcome State Fault Refusal :=
  onUnit true (s.creditArrives index)

/-! ### Arbitration (R148, R155) -/

/-- A packet at the head of an input's buffer that wants an output: the buffer's number, the input, the buffer's entry
with its outputs allotted, the packet, and which of the outputs it is. -/
structure Bid where
  key : Nat
  input : Nat
  entry : BufEntry
  pkt : Packet
  place : Nat
  deriving DecidableEq, Repr

/-- The bid of the head of a buffer for an output: it has a flit there that this output has not had. -/
def State.bidOf (s : State) (q : Nat × Nat) (out : Port) (l : Nat × Nat × Bool) : Option Bid :=
  let k := bufKey q l.1 l.2.1 l.2.2
  match (s.buf k).head? with
  | none => none
  | some e =>
    match s.packetOf e.pkt with
    | none => none
    | some p =>
      let outs := if e.outs.isEmpty then (s.outsFor p q).map fun o => ⟨o.1, o.2, 0, p.serial⟩ else e.outs
      match outs.findIdx? fun o => decide (o.out = out) && decide (o.sent < e.here) with
      | some j => if s.awaitsLook p q then none else some ⟨k, l.1, { e with outs := outs }, p, j⟩
      | none => none

def State.bids (s : State) (q : Nat × Nat) (out : Port) : List Bid := channelsAt.filterMap (s.bidOf q out)

def Bid.out (b : Bid) : BufOut := b.entry.outs.getD b.place ⟨.here, false, 0, 0⟩

/-- The input of the next router that a port leads to. -/
def facing : Port → Nat
  | .north => 1 | .south => 0 | .east => 3 | .west => 2 | .here => 4

/-- The buffer that a bid's flits go to. -/
def Bid.target (b : Bid) (q' : Nat × Nat) : Nat := bufKey q' (facing b.out.out) (pktClass b.pkt.type) b.out.detour

/-- A flit is sent only against a credit (R148): the next buffer has room, and takes a new packet only when it has all
flits of the one before. -/
def State.credited (s : State) (b : Bid) (q : Nat × Nat) : Bool :=
  match stepXY q b.out.out with
  | none => true
  | some q' =>
    let l := s.buf (b.target q')
    decide (occupied l < 4)
      && (b.out.sent != 0 || match l.getLast? with
        | none => true
        | some e => match s.packetOf e.pkt with
          | some p => decide (flitsOf p ≤ e.here)
          | none => true)

/-- The bids that no other beats. -/
def leaders (l : List Bid) : List Bid := l.filter fun e => !(l.any fun f => beats f.pkt e.pkt)

/-- The first in the order of inputs after the rotating pointer. -/
def nearestInput (ptr : Nat) : List Bid → Option Bid
  | [] => none
  | e :: t =>
    match nearestInput ptr t with
    | none => some e
    | some g => if (g.input + 5 - ptr) % 5 < (e.input + 5 - ptr) % 5 then some g else some e

/-- The outputs of an entry once one of them has had a flit. -/
def sentOne (l : List BufOut) (j : Nat) : List BufOut := l.modify j fun o => { o with sent := o.sent + 1 }

/-- The first flit of a packet is granted at a router: a MCAST_RSP gets a copy for every output it needs, once (R151). -/
def State.openBid (s : State) (b : Bid) (q : Nat × Nat) : Bid × State :=
  match b.pkt.payload with
  | .dests _ _ =>
    let r := b.entry.outs.foldl (fun (acc : List BufOut × State) o =>
      let (k, s) := acc.2.take
      let p := { b.pkt with serial := k, payload := s.entriesFor b.pkt q (o.out, o.detour) }
      (acc.1 ++ [{ o with copy := k }], { s with mesh := { s.mesh with packets := s.mesh.packets ++ [p] } })) ([], s)
    ({ b with entry := { b.entry with outs := r.1 } }, r.2)
  | _ => (b, s)

/-- The destination takes a flit of a packet. A packet that it has whole goes behind those that came before it. -/
def State.eject (s : State) (serial : Nat) : State :=
  match s.packetOf serial with
  | none => s
  | some p =>
    let p := { p with ejected := p.ejected + 1 }
    if flitsOf p ≤ p.ejected then
      { s with mesh := { s.mesh with packets := (s.mesh.packets.filter fun x => x.serial != serial) ++ [p] } }
    else s.updPacket serial fun _ => p

/-- A flit comes to the next router, or to the unit. -/
def State.flitTo (s : State) (b : Bid) (q : Nat × Nat) : State :=
  let o := b.out
  match stepXY q o.out with
  | none => s.eject o.copy
  | some q' =>
    let k := b.target q'
    if o.sent = 0 then
      let s := if o.detour && !b.pkt.detour then s.finc MSH_DETOUR.COUNT (partOfXY q) else s
      (s.updPacket o.copy fun p => { p with x := q'.1, y := q'.2, detour := o.detour, looked := false }).setBuf k
        (s.buf k ++ [⟨o.copy, 1, []⟩])
    else s.setBuf k ((s.buf k).map fun e => if e.pkt = o.copy then { e with here := e.here + 1 } else e)

/-- The entry of a bid after its flit; a packet all of whose flits have left is no more in the buffer, and the original of
a copied MCAST_RSP is no more. -/
def State.leaveBuf (s : State) (b : Bid) : State :=
  let e := { b.entry with outs := sentOne b.entry.outs b.place }
  let rest := (s.buf b.key).drop 1
  if flitsOf b.pkt ≤ e.gone then
    let s := s.setBuf b.key rest
    if b.out.copy = b.pkt.serial then s
    else { s with mesh := { s.mesh with packets := s.mesh.packets.filter fun p => p.serial != b.pkt.serial } }
  else s.setBuf b.key (e :: rest)

/-- A bid is granted: its next flit moves on. -/
def State.grant (s : State) (b : Bid) (q : Nat × Nat) : State :=
  let r := if b.entry.outs.all (fun o => o.sent == 0) then s.openBid b q else (b, s)
  (r.2.flitTo r.1 q).leaveBuf r.1

/-- A packet flit is granted by rules 2 and 3 of R155; a tie advances the rotating pointer. Every cc in which a flit waits
at the output is counted (MSH_STALL). -/
def State.grantPacket (s : State) (q : Nat × Nat) (out : Port) : State :=
  let all := s.bids q out
  let l := leaders (all.filter fun b => s.credited b q)
  let key := (42 * q.2 + q.1) * 5 + portNum out
  let s := if all.length > (min l.length 1) then s.finc MSH_STALL.CYCLES (partOfXY q) else s
  match nearestInput (mget (fun _ => 0) s.mesh.pointers key) l with
  | none => s
  | some b =>
    let s := if l.length > 1 then { s with mesh := { s.mesh with
        pointers := mput (fun _ => 0) s.mesh.pointers key ((b.input + 1) % 5) } } else s
    s.grant b q

/-! ### Circuit flits (R155 rule 1, R156) -/

/-- The circuit flit whose slot a cc is at an output: the first of the circuit at the input that owns the slot (R157). -/
def State.slotFlit (s : State) (q : Nat × Nat) (out : Port) (cc : Nat) : Option Nat :=
  match mget (fun _ => none) s.mesh.slots (((42 * q.2 + q.1) * 5 + portNum out) * 64 + cc % 64) with
  | none => none
  | some (input, id, cx) =>
    s.mesh.flits.findIdx? fun f => f.cx == cx && f.id == id && f.router == 42 * q.2 + q.1 && f.input == input

/-- The last flits of a halo's data come to the destination's vault through its mesh port (R146, R147): poison reaches it
as zeros. When the last word has been written, the message unit delivers one token. -/
def State.haloWrite (s : State) (p : Packet) : State :=
  match p.dst, p.src with
  | .cluster M _, .cluster L _ =>
    let n := (packetBytes p).length
    let ok := s.reachable M
    let s := if ok then s.vstore M p.addr (if p.poison then List.replicate n 0 else packetBytes p) .mesh else s
    let s := s.updReq L p.reqId fun q => { q with
      moved := if ok then q.moved + n else q.moved, fenced := q.fenced || !ok, poison := q.poison || p.poison }
    match s.dmaReq L p.reqId, s.haloOf p.cx L p.reqId with
    | some q, some h =>
      if ok && q.moved == h.length then s.completionToken p.cx h.dst h.dstEp L .haloDone h.halo else s
    | _, _ => s
  | _, _ => s

/-- WRITE_REQ (R150, R152, R134): poisoned data reaches a vault as zeros, and memory with POISON set (R263). The data of a
halo that packets carry counts towards its token (R147, R240). -/
def State.writeReq (s : State) (p : Packet) : State :=
  if s.flying p || s.behind p then s
  else
    let s := s.takePacket p
    match s.refusal p with
    | some st => s.refuseRequest p .WRITE_ACK st
    | none =>
      match p.dst with
      | .cluster L _ =>
        let s := if s.carriesHalo p then s.haloWrite p
          else s.vstore L p.addr (if p.poison then List.replicate (packetBytes p).length 0 else packetBytes p) .mesh
        s.respond p .WRITE_ACK 0 false []
      | .channel m ch =>
        match s.asAccepted (s.drains p) fun s => s.requestWrite p m ch (packetBytes p) with
        | (true, s) => s.refuseRequest p .WRITE_ACK 1
        | (false, s) => s.respond p .WRITE_ACK 0 false []
      | _ => s

def execWriteReq (pkt : Packet) (s : State) : Host.Outcome State Fault Refusal := onUnit pkt.ok (s.writeReq pkt)

/-- The destination takes a circuit flit: a halo's data is written at once, and its acknowledgement goes back; a token
waits for its third flit. -/
def State.takeFlit (s : State) (pkt : Nat) : State :=
  match s.packetOf pkt with
  | none => s
  | some p =>
    match p.type, p.src with
    | .WRITE_REQ, .cluster L _ =>
      ((s.takePacket p).haloWrite p).updReq L p.reqId fun q => { q with waiting := q.waiting - 1 }
    | _, _ => s.eject pkt

/-- A circuit flit moves on in its slot. -/
def State.moveFlit (s : State) (q : Nat × Nat) (out : Port) (i : Nat) : State :=
  match s.mesh.flits[i]? with
  | none => s
  | some f =>
    match stepXY q out with
    | some q' => { s with mesh := { s.mesh with
        flits := s.mesh.flits.set i { f with router := 42 * q'.2 + q'.1, input := facing out } } }
    | none => ({ s with mesh := { s.mesh with flits := s.mesh.flits.eraseIdx i } }).takeFlit f.pkt

/-- The slot entry of an output in a cc was read with a single-bit error: corrected, and noted for its row (R144, R145, R157).
R144 leaves a double-bit error of a slot table to chapter 07, which says nothing of it: the model has no such event,
DESIGN CHOICE, log entry 66. -/
def State.slotCorrected (s : State) (q : Nat × Nat) (out : Port) (cc : Nat) (error : Bool) : State :=
  if error then s.noteRow (slotArray (42 * q.2 + q.1)) (64 * portNum out + cc % 64) else s

/-- ROUTER_FORWARD (R153, R155): in cc `cc` of the tally an output grants one flit: that of a circuit whose slot this is,
else a packet's. A router inside a fault region forwards nothing. -/
def State.forward (s : State) (q : Nat × Nat) (out : Port) (cc : Nat) : State :=
  let q' := (stepXY q out).getD q
  if s.placer.regions.any (fun r => regionHas r q) || !s.up (domPlat (dieOfPart (partOfXY q)))
      || !s.up (domPlat (dieOfPart (partOfXY q'))) || (out != .here && (stepXY q out).isNone) then s
  else
    match s.slotFlit q out cc with
    | some i =>
      let s := if (s.bids q out).isEmpty then s else s.finc MSH_STALL.CYCLES (partOfXY q)
      s.moveFlit q out i
    | none => s.grantPacket q out

def execRouterForward (x y : Nat) (cycle : OutputCycle) (s : State) : Host.Outcome State Fault Refusal :=
  onUnit (okRouter x y)
    ((s.slotCorrected (x, y) cycle.out cycle.cc cycle.slotError).forward (x, y) cycle.out cycle.cc)

/-- The packet is a token on a circuit. -/
def State.onCircuit (s : State) (p : Packet) : Bool :=
  match p.payload with
  | .token _ (.endpoint L q) => (s.circuitFor p.cx false (L * 2048 + q)).isSome
  | _ => false

/-- Circuit flits that were sent before an edge complete their paths within the boundary window, and their endpoints have
their tokens before step 3 (R157). Flits that have not been sent wait for the window's end. -/
def State.landFlits (s : State) : State :=
  let sent := s.mesh.flits.filter fun f => f.input != portNum .here
  let s := { s with mesh := { s.mesh with flits := s.mesh.flits.filter fun f => f.input == portNum .here } }
  let s := s.forEach sent fun f s => s.takeFlit f.pkt
  s.forEach ((s.mesh.packets.filter s.onCircuit).map (·.serial)) fun k s =>
    match s.mesh.packets.findIdx? fun p => p.serial == k with
    | some i => s.tokenArrival i
    | none => s

/-! ### Root accumulation -/

/-- The record of a row slot (R165): RUN_FULL, COUNT, SCALE, SFMT, BAD. -/
structure RowSlot where
  run : Nat
  count : Nat
  scale : Nat
  sm16 : Bool
  bad : Bool

def RowSlot.ofBytes (b : List Byte) : RowSlot :=
  let n := leNat (b.take 8)
  { run := leNat ((b.drop 8).take 8), count := bitsOf n 31 16, scale := bitsOf n 47 32, sm16 := bitsOf n 48 48 == 1,
    bad := bitsOf n 49 49 == 1 }

def RowSlot.toBytes (r : RowSlot) : List Byte :=
  leBytes 8 (r.run % 2 ^ 16 + 2 ^ 16 * (r.count % 2 ^ 16) + 2 ^ 32 * (r.scale % 2 ^ 16) + 2 ^ 48 * r.sm16.toNat
    + 2 ^ 49 * r.bad.toNat) ++ leBytes 8 r.run ++ List.replicate 16 0

/-- Lanes of an accumulation slot. -/
def laneBytes (l : List Word) : List Byte := (List.range 64).flatMap fun i => leBytes 4 (l.getD i 0).toNat

/-- The records of a group's slots, read with their parity checked (R140). -/
def State.readSlots (s : State) (g : ClearingRec) : List RowSlot × State :=
  (List.range g.rows).foldl (fun acc r =>
    let (b, _, s) := acc.2.vload g.root (g.base + 288 * r) 32 .mesh
    (acc.1 ++ [RowSlot.ofBytes b], s)) ([], s)

/-- A slot is complete in the segment with a run number. -/
def RowSlot.complete (x : RowSlot) (run n : Nat) : Bool := x.run == run && x.count == n

/-- The token of a group whose slots are all complete (R166). -/
def State.clearDone (s : State) (c : Nat) (g : ClearingRec) : State :=
  let (l, s) := s.readSlots g
  if l.all (fun x => x.complete (s.cx c).runNumber g.contributions) && !s.mesh.doneGroups.contains (c, g.tag) then
    let s := { s with mesh := { s.mesh with doneGroups := (c, g.tag) :: s.mesh.doneGroups } }
    if g.rootEp = 0xFFFF then s else s.completionToken c g.root g.rootEp g.root .clearDone g.tag
  else s

/-- What an absorption writes into a slot: the record, the lanes, and the condition met (R166, R168). -/
def absorbInto (r : RowSlot) (old : List Word) (run n count : Nat) (sm : Bool) (scale : Nat) (lanes : List Word) :
    RowSlot × List Word × Nat :=
  let valid := !decide (clearScaleOf sm scale = .invalid)
  let res : RowSlot × List Word × Nat :=
    if r.run ≠ run then
      if count > n then (⟨run, 0, scale, sm, true⟩, lanes, 3)
      else (⟨run, count, scale, sm, !valid⟩, lanes, if valid then 0 else 2)
    else if r.count + count > n then ({ r with bad := true }, old, 3)
    else if !valid then ({ r with bad := true }, old, 2)
    else if sameClearScale sm scale r.sm16 r.scale then ({ r with count := r.count + count }, addLanes old lanes, 0)
    else ({ r with bad := true }, old, 1)
  if res.1.count = n ∧ res.1.bad then
    ({ res.1 with scale := if res.1.sm16 then 0xFF00 else 0xFF }, List.replicate 64 0, res.2.2)
  else res

/-- A row that the root takes into its slot (R166, R168). -/
def State.absorbRow (s : State) (c : Nat) (g : ClearingRec) (row count : Nat) (sm : Bool) (scale : Nat) (lanes : List Word) :
    State :=
  let part := partOfXY (s.clusterXY g.root)
  let a := g.base + 288 * row
  let (b, _, s) := s.vload g.root a 288 .mesh
  let (r, ls, code) := absorbInto (RowSlot.ofBytes (b.take 32)) (wordsOf (b.drop 32) 64) (s.cx c).runNumber
    g.contributions count sm scale lanes
  let s := s.vstore g.root a (r.toBytes ++ laneBytes ls) .mesh
  let s := if code = 3 then s.finc MSH_CLR_ERROR.EXCESS part
    else if code ≠ 0 then s.finc MSH_CLR_ERROR.MISMATCH part else s
  let s := if code ≠ 0 then s.clearCondition c g.tag code g.root else s
  if r.complete (s.cx c).runNumber g.contributions then s.clearDone c g else s

/-- The root absorbs a CLEAR packet through the mesh port of its vault (R166): RUN is compared first. -/
def State.absorb (s : State) (i : Nat) : State :=
  match s.mesh.packets[i]? with
  | none => s
  | some p =>
    match p.dst, p.payload with
    | .cluster L _, .clear row count run sm scale lanes _ =>
      if !s.landed p then s
      else
        let s := s.dropPacket i
        let part := partOfXY (s.refuserOf p)
        if (s.refusal p).isSome then s.dropPosted p
        else if run ≠ (s.cx p.cx).runNumber % 2 ^ 16 then
          (s.finc MSH_CLR_ERROR.ROW_RANGE part).clearCondition p.cx p.reqId 6 L
        else
          match s.group p.cx p.reqId with
          | none => s
          | some g =>
            if row ≥ g.rows then (s.finc MSH_CLR_ERROR.ROW_RANGE part).clearCondition p.cx p.reqId 4 L
            else s.absorbRow p.cx g row count sm scale lanes
    | _, _ => s

def execClearRootAbsorb (index : Nat) (s : State) : Host.Outcome State Fault Refusal := onUnit true (s.absorb index)

end Sys2Proof.Machine
end

