-- ==== Sys2Proof/Machine/Dma.lean ====
section
/-! DEFINITION. The DMA engine (11_messages_and_dma.md, R260 to R263; 06_vaults.md, R139, R146, R147; 12_memory_subsystem.md,
R277): acceptance, the operations within the package, completion. -/
namespace Sys2Proof.Machine

open Sys2Proof

/-! ### Descriptor fields and checks -/

def DmaReq.order (q : DmaReq) : Bool := bitsOf (q.word 0) 4 4 == 1
def DmaReq.lvault (q : DmaReq) : Bool := bitsOf (q.word 0) 5 5 == 1
def DmaReq.rcx (q : DmaReq) : Nat := bitsOf (q.word 6) 19 16
def DmaReq.module (q : DmaReq) : Nat := bitsOf (q.word 7) 15 0
def DmaReq.pattern (q : DmaReq) : Nat := q.word 8
def DmaReq.key (q : DmaReq) : Nat := q.word 9

/-- One side of a transfer: a vault, memory, a pattern, a remote window, or nothing that the descriptor names. -/
inductive Side where
  | vault | memory | pattern | window | none
  deriving DecidableEq, Repr

def DmaReq.sides (q : DmaReq) : Side × Side :=
  let here := if q.lvault then Side.vault else Side.memory
  match q.op with
  | 1 => (.memory, .vault) | 2 => (.vault, .memory) | 3 => (.vault, .vault) | 4 => (.pattern, .vault)
  | 5 => (.memory, .memory) | 6 => (.pattern, .memory) | 7 => (.vault, .vault) | 9 => (.window, here)
  | 10 => (here, .window) | _ => (.none, .none)

/-- OP, a reserved field, or a field that the operation does not use is not as R261 requires (DMA_OP). -/
def DmaReq.badOp (q : DmaReq) : Bool :=
  let remote := q.op == 9 || q.op == 10
  let fill := q.op == 4 || q.op == 6
  let halo := q.op == 8
  q.op == 0 || decide (q.op > 10) || bitsOf (q.word 0) 31 6 != 0 || bitsOf (q.word 6) 31 20 != 0
    || bitsOf (q.word 7) 31 14 != 0 || ([10, 11, 12, 13, 14, 15].any fun i => q.word i != 0)
    || (!remote && (q.lvault || q.rcx != 0 || q.module != 0 || q.key != 0))
    || (remote && bitsOf q.peer 15 8 != 0)
    || (!remote && !halo && q.op != 7 && q.peer != 0)
    || (!fill && q.pattern != 0)
    || ((fill || halo) && q.src != 0)
    || (halo && (q.dst != 0 || q.length != 0))

def sideAlign : Side → Nat
  | .vault => 32 | .memory => 64 | .window => 64 | _ => 1

/-- LENGTH is a multiple of 32 when both sides are vaults, and of 64 otherwise. -/
def lengthAlign : Side × Side → Nat
  | (.vault, .vault) => 32
  | _ => 64

/-- An address, length or alignment breaks R261 (DMA_ALIGN). -/
def DmaReq.badAlign (q : DmaReq) : Bool :=
  let (a, b) := q.sides
  q.op != 8 && (decide (q.length < 32) || q.src % sideAlign a != 0 || q.dst % sideAlign b != 0
    || q.length % lengthAlign (a, b) != 0)

/-- The ranges of one kind of side: (address, whether it is written). -/
def DmaReq.ranges (q : DmaReq) (k : Side) : List (Nat × Bool) :=
  let (a, b) := q.sides
  (if a = k then [(q.src, false)] else []) ++ (if b = k then [(q.dst, true)] else [])

/-- The memory object of a context's image that holds a whole range; object 0 is none (R210, R262). -/
def State.objectOf (s : State) (c a n : Nat) : Option ObjectRec :=
  (s.image c).bind fun im => im.objects.find? fun o =>
    o.object != 0 && decide (o.base ≤ a) && decide (a + n ≤ o.base + o.pages * Config.pageBytes)

/-- How the active folio uses an object (R211): 1 INPUT, 2 OUTPUT, 3 SCRATCH. -/
def State.useOf (s : State) (c object : Nat) : Option Nat :=
  (s.image c).bind fun im =>
    (im.uses.find? fun u => u.folio == s.activeFolio c && u.object == object).map (·.use)

/-- A memory range may be used by the active folio: 0 no, otherwise its USE. -/
def State.rangeUse (s : State) (c a n : Nat) : Nat :=
  match s.objectOf c a n with
  | none => 0
  | some o => (s.useOf c o.object).getD 0

/-- The refusal code of a descriptor, in ascending order (R262). -/
def State.dmaRefusal (s : State) (L c : Nat) (q : DmaReq) : Option Nat :=
  let mem := q.ranges .memory
  if q.badOp then some 1
  else if q.badAlign then some 2
  else if (q.ranges .vault).any fun r => decide (r.1 + q.length > Config.vaultBytes) then some 3
  else if mem.any fun r => s.rangeUse c r.1 q.length == 0 then some 4
  else if mem.any fun r => r.2 && s.rangeUse c r.1 q.length == 1 then some 5
  else if (q.op == 7 && !(s.clustersOf c).contains q.peer) || (q.op == 8 && (s.halo c L q.peer).isNone) then some 6
  else none

/-! ### Acceptance and completion -/

def State.updDma (s : State) (L : Nat) (f : Dma → Dma) : State := s.updCl L fun c => { c with dma := f c.dma }

/-- The tags outstanding, from acceptance until the completion is popped (R260). -/
def Dma.tags (d : Dma) : List Nat := d.reqs.map (·.tag) ++ d.done.map fun w => bitsOf w.toNat 7 0

def Dma.room (d : Dma) : Bool := decide (d.tags.length < 128)

def Dma.freeTag (d : Dma) : Nat := ((List.range 128).find? fun t => !d.tags.contains t).getD 0

/-- The engine takes or refuses the descriptor at a good address: issue status, and the value for gB (R260, R262). -/
def State.acceptDma (s : State) (L a : Nat) : Nat × Word × State :=
  let (b, poison, s) := s.vload L a 64 .dma
  let q : DmaReq :=
    { tag := (s.cl L).dma.freeTag, desc := wordsOf b 16, started := false, moved := 0, poison := false, fenced := false,
      waiting := 0, issued := false, xid := 0, status := 0 }
  let code := if poison then some 7 else s.dmaRefusal L ((s.owner L).getD 0) q
  match code with
  | some k => (4, BitVec.allOnes 32, (s.finc DMA_ERROR.COUNT L).fset DMA_ERROR.LAST L k)
  | none => (0, BitVec.ofNat 32 q.tag, s.updDma L fun d => { d with reqs := d.reqs ++ [q] })

/-- The status of a request whose parts are all answered (R263). -/
def DmaReq.outcome (q : DmaReq) : Nat :=
  if q.status ≠ 0 then q.status else if q.fenced then 0x12 else if q.poison then 0x11 else 0

/-- The completion word (R263). -/
def DmaReq.completion (q : DmaReq) : Word :=
  BitVec.ofNat 32 (q.tag + 2 ^ 8 * q.outcome + 2 ^ 16 * q.poison.toNat)

/-- A context met a fence or an unreachable unit (R382). -/
def State.metFence (s : State) (L : Nat) : State :=
  match s.owner L with
  | some c => s.updCx c fun x => { x with metFence := true }
  | none => s

/-- DMA_COMPLETION: every part of the request has been answered, and its completion is posted. -/
def State.dmaComplete (s : State) (L tag : Nat) : State :=
  match s.dmaReq L tag with
  | none => s
  | some q =>
    if q.started && q.issued && q.waiting == 0 then
      let s := if q.fenced then s.metFence L else s
      (s.updDma L fun d =>
        { reqs := d.reqs.filter fun r => r.tag != tag, done := d.done ++ [q.completion] }).progress L
    else s

/-- A request may start: all earlier ones have started, and have completed if it has ORDER 1 (R260). -/
def Dma.mayStart (d : Dma) (q : DmaReq) : Bool :=
  let earlier := d.reqs.takeWhile fun r => r.tag != q.tag
  !q.started && (if q.order then earlier.isEmpty else earlier.all fun r => r.started)

/-- The request that starts by an event of its operation. -/
def State.starting (s : State) (L tag op : Nat) : Option (Nat × DmaReq) :=
  match s.owner L, s.dmaReq L tag with
  | some c, some q => if s.reachable L && q.op == op && (s.cl L).dma.mayStart q then some (c, q) else none
  | _, _ => none

/-! ### Moving data -/

/-- A place that data comes from or goes to. -/
inductive Place where
  | vault (L : Nat) (port : VPort)
  | memory (c : Nat)
  | pattern (p : Nat)
  deriving DecidableEq, Repr

/-- What has become of a request so far: poison met, a part answered FENCED. -/
structure Moved where
  poison : Bool
  fenced : Bool

/-- The unit that an engine cannot read: a vault or channel that is fenced, off, beyond a die in reset or in the other part
of a partitioned mesh, or whose answer could not come back (R24, R152, R154). The engine's own vault needs no mesh. -/
def State.cutOff (s : State) (E : Nat) (x : Place) (a : Nat) : Option MeshUnit :=
  match x with
  | .vault L _ =>
    if L = E then (if s.reachable L then none else some (.cluster L 0))
    else if s.readRefused (.cluster E 2) (.cluster L 0) then some (.cluster L 0) else none
  | .memory c => s.memRefusal (.cluster E 2) c a
  | .pattern _ => none

/-- The unit that it cannot write. -/
def State.writeCut (s : State) (E : Nat) (x : Place) (a : Nat) : Option MeshUnit :=
  match x with
  | .vault L _ =>
    if L = E then (if s.reachable L then none else some (.cluster L 0))
    else if (s.askRefusal (.cluster E 2) (.cluster L 0)).isSome then some (.cluster L 0) else none
  | .memory c => s.memWriteRefusal (.cluster E 2) c a
  | .pattern _ => none

/-- The unit whose acknowledgement of a write does not come back, though the write is done. -/
def State.ackLost (s : State) (E : Nat) (x : Place) (a : Nat) : Option MeshUnit :=
  match x with
  | .vault L _ => if L ≠ E && s.answerCut (.cluster E 2) (.cluster L 0) then some (.cluster L 0) else none
  | .memory c => s.ackCut (.cluster E 2) c a
  | .pattern _ => none

/-- The channel that a copy between two partitions cannot reach from its source's channel: the data of such a copy crosses
the mesh from one attachment to the other (R277). -/
def State.copyCut (s : State) (from_ to_ : Place) (src dst : Nat) : Option (MeshUnit × MeshUnit) :=
  match from_, to_ with
  | .memory c, .memory c' =>
    match s.place c src, s.place c' dst with
    | some (p, ch, _, _), some (p', ch', _, _) =>
      if p ≠ p' && (s.askRefusal (.channel p ch) (.channel p' ch')).isSome then some (.channel p ch, .channel p' ch') else none
    | _, _ => none
  | _, _ => none

/-- The data of one part, whether it is poisoned, and the state. -/
def State.partData (s : State) (x : Place) (src n : Nat) : List Byte × Bool × State :=
  match x with
  | .vault L port => s.vload L src n port
  | .memory c => let (r, s) := s.memRead c src n true; (r.bytes, r.poison, s)
  | .pattern p => ((List.range (n / 4)).flatMap fun _ => leBytes 4 p, false, s)

/-- One part of a transfer of the engine of cluster `E` (R263): a part that is answered FENCED or UNREACHABLE is not
written; poison reaches memory as POISON and a vault as zeros. -/
def State.movePart (s : State) (E : Nat) (from_ to_ : Place) (src dst n : Nat) : Moved × State :=
  match s.cutOff E from_ src with
  | some u => (⟨false, true⟩, s.countRefused (.cluster E 2) u)
  | none =>
    let (b, bad, s) := s.partData from_ src n
    match s.writeCut E to_ dst, s.copyCut from_ to_ src dst with
    | some u, _ => (⟨bad, true⟩, s.countRefused (.cluster E 2) u)
    | none, some (u, v) => (⟨bad, true⟩, s.countRefused u v)
    | none, none =>
      let (f, s) := match to_ with
        | .vault L port => (false, s.vstore L dst (if bad then List.replicate n 0 else b) port)
        | .memory c => s.memWrite c dst b bad
        | .pattern _ => (false, s)
      match s.ackLost E to_ dst with
      | some u => (⟨bad, true⟩, s.countRefused (.cluster E 2) u)
      | none => (⟨bad, f⟩, s)

/-- A whole transfer, part by part in address order. -/
def State.move (s : State) (E : Nat) (from_ to_ : Place) (src dst len part : Nat) : Moved × State :=
  (List.range (len / part)).foldl (fun (acc : Moved × State) i =>
    let (m, s) := acc.2.movePart E from_ to_ (src + i * part) (dst + i * part) part
    (⟨acc.1.poison || m.poison, acc.1.fenced || m.fenced⟩, s)) (⟨false, false⟩, s)

/-- The request has started and all its parts are answered. -/
def State.moved (s : State) (L tag status : Nat) (m : Moved) : State :=
  s.updReq L tag fun q => { q with started := true, issued := true, status := status, poison := m.poison,
                                   fenced := m.fenced }

/-- A request that ends with nothing written. -/
def State.movedNone (s : State) (L tag status : Nat) : State := s.moved L tag status ⟨false, false⟩

/-- A transfer whose vault ranges are checked whole before any word is written (R139). -/
def State.transfer (s : State) (L : Nat) (q : DmaReq) (from_ to_ : Place) (part : Nat) : State :=
  let badFrom := match from_ with
    | .vault M _ => if s.readOk M q.src q.length then none else some (M, q.src)
    | _ => none
  let badTo := match to_ with
    | .vault M port => if s.reachable M && !s.writeOk M q.dst q.length port then some (M, q.dst) else none
    | _ => none
  match badFrom, badTo with
  | some (M, a), _ => (s.violate M a).movedNone L q.tag 0x14
  | none, some (M, a) => (s.violate M a).movedNone L q.tag 0x14
  | none, none =>
    let (m, s) := s.move L from_ to_ q.src q.dst q.length part
    s.moved L q.tag 0 m

def overlap (a b n : Nat) : Bool := decide (a < b + n) && decide (b < a + n)

def State.dmaRead (s : State) (L tag : Nat) : State :=
  match s.starting L tag 1 with
  | some (c, q) => s.transfer L q (.memory c) (.vault L .dma) 64
  | none => s

def State.dmaWrite (s : State) (L tag : Nat) : State :=
  match s.starting L tag 2 with
  | some (c, q) => s.transfer L q (.vault L .dma) (.memory c) 64
  | none => s

/-- A vault-local copy; one that overlaps is refused with VLT_OVERLAP (R139). -/
def State.vcopy (s : State) (L tag : Nat) : State :=
  match s.starting L tag 3 with
  | some (_, q) =>
    if overlap q.src q.dst q.length then s.movedNone L tag 0x10
    else s.transfer L q (.vault L .fill) (.vault L .fill) 32
  | none => s

def State.vfill (s : State) (L tag : Nat) : State :=
  match s.starting L tag 4 with
  | some (_, q) => s.transfer L q (.pattern q.pattern) (.vault L .fill) 32
  | none => s

/-- A copy by the memory controllers; one that overlaps is refused with DMA_OVERLAP (R277). -/
def State.mcopy (s : State) (L tag : Nat) : State :=
  match s.starting L tag 5 with
  | some (c, q) =>
    if overlap q.src q.dst q.length then s.movedNone L tag 0x13
    else s.transfer L q (.memory c) (.memory c) 64
  | none => s

def State.mfill (s : State) (L tag : Nat) : State :=
  match s.starting L tag 6 with
  | some (c, q) => s.transfer L q (.pattern q.pattern) (.memory c) 64
  | none => s

/-- XCOPY: written through the peer's mesh port (R462). -/
def State.xcopy (s : State) (L tag : Nat) : State :=
  match s.starting L tag 7 with
  | some (_, q) => s.transfer L q (.vault L .dma) (.vault q.peer .mesh) 32
  | none => s

/-- The destination of a halo lies in a scratch region or a next half (R147). -/
def State.haloOk (s : State) (L a n : Nat) : Bool :=
  (unitsOf a n).all fun u =>
    match s.regionAt L u with
    | some (_, r) => r.kind == 1 || (r.kind == 2 && !r.inCurrent u)
    | none => false

/-- The data of a halo in pieces of one link cycle of 128 B (R146): offset and length. -/
def haloPieces (n : Nat) : List (Nat × Nat) := (List.range ((n + 127) / 128)).map fun i => (128 * i, min 128 (n - 128 * i))

/-- One piece of a halo, read through the DMA port, leaves as a flit of the halo's circuit, or where it has no slots as a
DMA write packet (R146, R240). -/
def State.sendPiece (s : State) (c L tag : Nat) (h : HaloRec) (pc : Nat × Nat) : State :=
  let (b, bad, s) := s.vload L (h.srcAddr + pc.1) pc.2 .dma
  let p := { packet .WRITE_REQ (.cluster h.dst 0) (.cluster L 2) c (h.dstAddr + pc.1) 0 tag (.bytes b) with poison := bad }
  match s.circuitFor c true h.halo with
  | some r => s.sendFlits r p
  | none => s.inject { p with len := (pc.2 + 31) / 128 }

/-- HALO: the transfer starts on its circuit, piece by piece (R146, R147). -/
def State.haloStart (s : State) (L tag : Nat) : State :=
  match s.starting L tag 8 with
  | some (c, q) =>
    match s.halo c L q.peer with
    | none => s
    | some h =>
      if !s.readOk L h.srcAddr h.length then (s.violate L h.srcAddr).movedNone L tag 0x14
      else if (s.askRefusal (.cluster L 2) (.cluster h.dst 0)).isSome then
        (s.countRefused (.cluster L 2) (.cluster h.dst 0)).moved L tag 0 ⟨false, true⟩
      else if !s.haloOk h.dst h.dstAddr h.length then (s.violate h.dst h.dstAddr).movedNone L tag 0x14
      else
        let l := haloPieces h.length
        (s.forEach l fun pc s => s.sendPiece c L tag h pc).updReq L tag fun q => { q with
          started := true, issued := true, waiting := l.length }
  | none => s

def execDmaRead (cluster tag : Nat) (s : State) : Host.Outcome State Fault Refusal :=
  onUnit (okCluster cluster && okTag tag) (s.dmaRead cluster tag)

def execDmaWrite (cluster tag : Nat) (s : State) : Host.Outcome State Fault Refusal :=
  onUnit (okCluster cluster && okTag tag) (s.dmaWrite cluster tag)

def execVcopy (cluster tag : Nat) (s : State) : Host.Outcome State Fault Refusal :=
  onUnit (okCluster cluster && okTag tag) (s.vcopy cluster tag)

def execVfill (cluster tag : Nat) (s : State) : Host.Outcome State Fault Refusal :=
  onUnit (okCluster cluster && okTag tag) (s.vfill cluster tag)

def execMcopy (cluster tag : Nat) (s : State) : Host.Outcome State Fault Refusal :=
  onUnit (okCluster cluster && okTag tag) (s.mcopy cluster tag)

def execMfill (cluster tag : Nat) (s : State) : Host.Outcome State Fault Refusal :=
  onUnit (okCluster cluster && okTag tag) (s.mfill cluster tag)

def execXcopy (cluster tag : Nat) (s : State) : Host.Outcome State Fault Refusal :=
  onUnit (okCluster cluster && okTag tag) (s.xcopy cluster tag)

def execHalo (cluster tag : Nat) (s : State) : Host.Outcome State Fault Refusal :=
  onUnit (okCluster cluster && okTag tag) (s.haloStart cluster tag)

def execDmaCompletion (cluster tag : Nat) (s : State) : Host.Outcome State Fault Refusal :=
  onUnit (okCluster cluster && okTag tag) (s.dmaComplete cluster tag)

/-- DMA_REMOTE_TIMEOUT (R264): no answer came within DMA_TIMEOUT.REMOTE µs; its transactions are given up, and those that
the cluster abandoned before: DESIGN CHOICE. -/
def State.remoteTimeout (s : State) (L tag : Nat) : State :=
  match s.dmaReq L tag with
  | none => s
  | some q =>
    if (q.op == 9 || q.op == 10) && q.started && s.fget DMA_TIMEOUT.REMOTE 0 != 0
        && (s.fabric.tx.any fun t => t.cluster == L && t.tag == tag) then
      let s := { s with fabric := { s.fabric with
        tx := s.fabric.tx.filter fun t => !(t.cluster == L && (t.tag == tag || t.tag == abandonedTag)) } }
      (s.updReq L tag fun q => { q with
        issued := true, waiting := 0, status := if q.status = 0 then 0x25 else q.status }).dmaComplete L tag
    else s

def execDmaRemoteTimeout (cluster tag : Nat) (s : State) : Host.Outcome State Fault Refusal :=
  onUnit (okCluster cluster && okTag tag) (s.remoteTimeout cluster tag)

end Sys2Proof.Machine
end

