-- ==== Sys2Proof/Machine/FabricOps.lean ====
section
/-! DEFINITION. What the fabric's rows share (13_cikel_fabric.md): ports and their states, discards, routes, cells that
start here, tokens as circuit cells, bindings and windows. -/
namespace Sys2Proof.Machine

open Sys2Proof

/-! ### Ports -/

/-- The active licence enables a port (R1, R2, R408). VARIANT 1 is EV4-T, 2 is EV4-S. -/
def State.portLicensed (s : State) (n : Nat) : Bool :=
  s.fget LCS_STATE.STATE 0 != 4
    && (s.fget LIC_STATE.VARIANT 0 == 1 || (s.fget LIC_STATE.VARIANT 0 == 2 && decide (n % 6 < 2)))

/-- The active licence enables fabric clearing (R1). -/
def State.clearingLicensed (s : State) : Bool := s.fget LCS_STATE.STATE 0 != 4 && s.fget LIC_STATE.VARIANT 0 == 1

/-- A circuit cell may leave by a port (R321, R324). -/
def State.circuitOpen (s : State) (n : Nat) : Bool := s.linkOpen n && !s.fon TLY_STATUS.LOST 0

/-- The logs and pass buffers of a port's partition can be reached (R325). -/
def State.logsReached (s : State) (n : Nat) : Bool := s.memServes (n / 2)

/-! ### Packet cells -/

/-- The VC of a kind (R296); none of a reserved one. -/
def kindVc (k : Nat) : Option Nat :=
  if k ≤ 2 then some 0 else if k ≤ 5 then some 1 else if k ≤ 7 then some 2 else none

/-- The entry of the route table for a module: its fields, if VALID (R298). -/
def State.routeFor (s : State) (m : Nat) : Option (List Nat) :=
  let v := mget zeroNat s.fabric.route m
  if v / 2 ^ 70 = 1 then some ((List.range 14).map fun k => bitsOf v (5 * k + 4) (5 * k)) else none

/-- The escape output for a module, if VALID (R304). -/
def State.escapeFor (s : State) (m : Nat) : Option Nat :=
  let v := mget zeroNat s.fabric.escape m
  if v / 32 = 1 then some (v % 32) else none

/-- The reverse path of a cell whose last consumed field is the ingress here: fields PTR - 1 down to 0 (R299). -/
def backRoute (c : PacketCell) : List Nat :=
  let l := (c.route.take c.ptr).reverse
  l ++ List.replicate (14 - l.length) 0

/-- A fresh cell of a kind to a module (R295). -/
def newCell (kind dst xid index : Nat) (route : List Nat) (pl : List Byte) : PacketCell :=
  { vc := (kindVc kind).getD 0, esc := false, revValid := true, ptr := 0, kind := kind, route := route, src := 0,
    dst := dst, xid := xid, index := index, payload := (pl ++ List.replicate 32 0).take 32 }

/-- A cell leaves by the route that the route table gives it: one that meets an entry known bad is discarded as TABLE
(R323). -/
def State.sendByTable (s : State) (via : Nat) (c : PacketCell) : State :=
  if (s.fp via).badRoute.contains c.dst then s.finc FAB_PORT_DISCARD.TABLE via else s.sendCell via c

/-- An answer to a cell goes back along its reverse path, or by the route table when REV_VALID is 0 (R299, R303). -/
def State.answerCell (s : State) (via : Nat) (c : PacketCell) (kind index : Nat) (pl : List Byte) : State :=
  if c.revValid then s.sendCell via (newCell kind c.src c.xid index (backRoute c) pl)
  else
    match s.routeFor c.src with
    | some route => s.sendByTable via (newCell kind c.src c.xid index route pl)
    | none => s

/-- An RDATA cell of an answer, with the mark of a poisoned block (R263). -/
def State.answerData (s : State) (via : Nat) (c : PacketCell) (index : Nat) (pl : List Byte) (poison : Bool) : State :=
  if c.revValid then s.sendCell via { newCell 3 c.src c.xid index (backRoute c) pl with poison := poison }
  else
    match s.routeFor c.src with
    | some route => s.sendByTable via { newCell 3 c.src c.xid index route pl with poison := poison }
    | none => s

/-- RSP with a status. -/
def State.answerRsp (s : State) (via : Nat) (c : PacketCell) (status : Nat) : State :=
  s.answerCell via c 4 0 [BitVec.ofNat 8 status]

/-- A cell is discarded as ROUTE_ERR or LINK; a request is answered with RSP 0x12 (R300, R322). -/
def State.discardCell (s : State) (n : Nat) (f : Fld) (c : PacketCell) : State :=
  let s := s.finc f n
  if isRequest c then s.answerRsp n (consumeField c n) 0x12 else s

/-- A CREDIT cell to the peer of a binding (R296): OP 0 GRANT, 1 ACK, 2 REVOKE, 3 REVOKED. -/
def State.sendCredit (s : State) (k op sseq tokens : Nat) : State :=
  let m := s.fget FAB_BIND_A.PEER_MODULE k
  match s.routeFor m with
  | none => s
  | some route =>
    let pl := leBytes 8 (op + 2 ^ 16 * s.fget FAB_BIND_A.PEER_CIRCUIT k + 2 ^ 28 * s.fget FAB_BIND_A.PEER_PORT k)
      ++ leBytes 4 sseq ++ leBytes 3 tokens
    s.sendByTable (k / 256) (newCell 5 m 0 0 route pl)

/-! ### Tokens as bytes -/

def tokenKindCode : TokenKind → Nat
  | .data => 0 | .haloDone => 1 | .clearDone => 2

/-- The 320 bytes of a token (R178). -/
def tokenBytes (t : Token) : List Byte :=
  leBytes 4 (t.endpoint + 2 ^ 11 * t.epoch + 2 ^ 13 * tokenKindCode t.kind + 2 ^ 15 * t.poison.toNat + 2 ^ 16 * t.cx)
    ++ leBytes 4 (t.source + 2 ^ 9 * t.sourceEp) ++ leBytes 8 t.mask.toNat
    ++ ((List.range 4).flatMap fun i => leBytes 4 (t.scales.getD i 0).toNat) ++ leBytes 4 t.id
    ++ List.replicate 28 0 ++ laneBytes t.lanes

/-- A token read from its 320 bytes. -/
def tokenOfBytes (b : List Byte) : Token :=
  let w := fun (i : Nat) => leNat ((b.drop (4 * i)).take 4)
  { endpoint := bitsOf (w 0) 10 0, epoch := bitsOf (w 0) 12 11,
    kind := match bitsOf (w 0) 14 13 with | 1 => .haloDone | 2 => .clearDone | _ => .data,
    poison := bitsOf (w 0) 15 15 == 1, cx := bitsOf (w 0) 19 16, source := bitsOf (w 1) 8 0,
    sourceEp := bitsOf (w 1) 19 9, mask := BitVec.ofNat 64 (w 2 + 2 ^ 32 * w 3),
    scales := wordsOf (b.drop 16) 4, id := bitsOf (w 8) 15 0, lanes := wordsOf (b.drop 64) 64 }

/-- The payload of cell `i` of a token (R311). -/
def cellPayload (b : List Byte) (i : Nat) : List Byte := (b.drop (44 * i)).take 44

/-- The prefix of a token on the fabric (R311). -/
def fabricPrefix (sseq index total : Nat) (clearing : Bool) : List Byte :=
  leBytes 4 sseq ++ leBytes 4 index ++ leBytes 4 total ++ leBytes 4 clearing.toNat ++ List.replicate 16 0

/-- Cell `i` of a token on a circuit (R309, R311). -/
def State.tokenCell (s : State) (circuit sseq index total : Nat) (clearing : Bool) (t : Token) (i : Nat) : CircuitCell :=
  { phase := s.tally.count % 4, circuit := circuit, part := i,
    payload := cellPayload (fabricPrefix sseq index total clearing ++ tokenBytes t) i }

/-- The package counts its tallies with its neighbours: from step 4 of bring-up on. Between a reset of CD0 and that step
TLY_COUNT says nothing of the tallies of the cells in transit, which go on as R402 requires: every phase then counts as one
that the current bank serves, DESIGN CHOICE, log entry 36. -/
def State.inStep (s : State) : Bool := decide (4 ≤ s.bringUp.done)

/-- Slots of a frame that a circuit owns in a bank of a port's slot table (R307). -/
def slotsIn (bank : NMap Nat) (circuit : Nat) : Nat := bank.countP fun e => e.2.testBit 31 && e.2 % 4096 == circuit

/-- The slot table bank of a cell's phase (R308, R309). -/
def State.slotBank (s : State) (n phase : Nat) : NMap Nat :=
  if !s.inStep || phase == s.tally.count % 4 then (s.fp n).scur else (s.fp n).sprev

/-- More than 2 frames of a circuit would wait at a port's output with this cell (R322): frames as the circuit's slots were in
the tally of the cell's phase. A circuit that has no slot there has no frame to measure by, and its cells wait for rule 2 of
R302, DESIGN CHOICE, log entry 36. -/
def State.overFull (s : State) (n : Nat) (c : CircuitCell) : Bool :=
  let k := slotsIn (s.slotBank n c.phase) c.circuit
  k != 0 && decide (2 * k ≤ (s.fp n).circOut.countP fun d => d.circuit == c.circuit && d.phase == c.phase)

/-- A circuit cell waits at an output for a slot, or is discarded as LATE, which input `n` counts (R322). -/
def State.queueCircuit (s : State) (n out : Nat) (c : CircuitCell) : State :=
  if s.overFull out c then s.finc FAB_PORT_DISCARD.LATE n
  else s.updFp out fun p => { p with circOut := p.circOut ++ [c] }

/-- The 8 cells of a token, formed at input `n`, wait for the slots of their circuit at output `out` (R311). -/
def State.sendToken8 (s : State) (n out circuit sseq index total : Nat) (clearing : Bool) (t : Token) : State :=
  s.forEach (List.range 8) fun i s => s.queueCircuit n out (s.tokenCell circuit sseq index total clearing t i)

/-! ### Bindings -/

def State.bindValid (s : State) (k : Nat) : Bool := s.fon FAB_BIND_A.VALID k

/-- Tokens of a half: T = CELLS div 8 (R312). -/
def State.halfTokens (s : State) (k : Nat) : Nat := s.fget FAB_BIND_B.CELLS k / 8

/-- The binding of a port with a direction and a circuit (R310). -/
def State.bindingOf (s : State) (n : Nat) (inbound : Bool) (circuit : Nat) : Option Nat :=
  ((List.range 256).map (n * 256 + ·)).find? fun k =>
    s.bindValid k && s.fon FAB_BIND_A.DIR k == inbound && s.fget FAB_BIND_A.CIRCUIT k == circuit

/-- A token of an inbound half is logged, once it is whole (R313, R314). -/
def State.logToken (s : State) (k sseq index total : Nat) (t : Token) : State :=
  let b := s.binding k
  let h := (b.halves.find? fun h => h.sseq == sseq).getD ⟨sseq, none, [], [], false⟩
  if sseq < b.consume ∨ h.tokens.any (fun e => e.1 == index) then s.finc FAB_BIND_B.DUPLICATES k
  else if sseq ≥ b.consume + 2 then s.finc FAB_PORT_DISCARD.TABLE (k / 256)
  else
    let h := { h with tokens := h.tokens ++ [(index, t)], total := some total }
    let whole := h.tokens.length == total
    let clearing := s.fon FAB_BIND_A.CLEARING k
    let h := { h with acked := h.acked || whole }
    let s := s.setBinding k { b with
      halves := (b.halves.filter fun x => x.sseq != sseq) ++ [h]
      granted := if whole then b.granted.filter (· != sseq) else b.granted }
    let s := if whole && !clearing then s.sendCredit k 1 sseq total else s
    if sseq = b.consume then
      match b.target.bind fun e => s.owner e.1 with
      | some c =>
        if (s.cx c).withheld then
          (s.setBinding k { s.binding k with
            halves := (s.binding k).halves.map fun x => if x.sseq = sseq then { x with passed := index :: x.passed } else x
            }).leftover c 1
        else s.passTokens k
      | none => s
    else s

/-! ### Windows -/

/-- The window of an ACTIVE image (R264). -/
def State.window (s : State) (c w : Nat) : Option WindowRec :=
  if s.fget IMG_CX_STATE.STATE c = 2 then (s.image c).bind fun im => im.windows.find? fun x => x.window == w else none

/-- The fields of a request cell (R296): WINDOW, RCX, KEY, OFFSET, LENGTH. -/
structure Request where
  window : Nat
  rcx : Nat
  key : Nat
  offset : Nat
  length : Nat

def Request.ofCell (c : PacketCell) : Request :=
  let b := c.payload
  let n := leNat b
  { window := bitsOf n 7 0, rcx := bitsOf n 11 8, key := bitsOf n 63 32, offset := bitsOf n 127 64,
    length := bitsOf n 143 128 }

def Request.toBytes (r : Request) : List Byte :=
  leBytes 4 (r.window + 2 ^ 8 * r.rcx) ++ leBytes 4 r.key ++ leBytes 8 r.offset ++ leBytes 2 r.length

/-- The checks of the target, in order: a refusal's status, or the logical address (R264). -/
def State.windowCheck (s : State) (r : Request) (src : Nat) (write : Bool) : Nat ⊕ Nat :=
  match s.window r.rcx r.window with
  | none => .inl 0x20
  | some w =>
    if !(w.ranges.any fun x => decide (x.1 ≤ src) && decide (src ≤ x.2)) then .inl 0x21
    else if r.key ≠ w.key then .inl 0x22
    else if !(w.ops.testBit (if write then 1 else 0)) then .inl 0x23
    else if r.offset + r.length > w.length then .inl 0x24
    else
      match (s.image r.rcx).bind fun im => im.objects.find? fun o => o.object == w.object with
      | some o => .inr (o.base + w.offset + r.offset)
      | none => .inl 0x20

/-- A refusal at the target is counted, and recorded once per window and tally (R264). -/
def State.windowDeny (s : State) (r : Request) (status : Nat) : State :=
  let s := s.finc DMA_WINDOW_DENY.COUNT r.rcx
  let s := (s.fset DMA_WINDOW_DENY.CODE r.rcx status).fset DMA_WINDOW_DENY.WINDOW r.rcx r.window
  if (s.cx r.rcx).windowRecorded.contains r.window then s
  else (s.updCx r.rcx fun x => { x with windowRecorded := r.window :: x.windowRecorded }).report sevWarning blkDMA
    status 0xFFFF (some r.rcx) [BitVec.ofNat 32 r.window]

/-- A remote read by ingress port `n` can be performed: no fenced or unreachable partition, no failed channel (R317). -/
def State.remoteOk (s : State) (n c a len : Nat) : Bool :=
  (blockPieces a len).all fun pc =>
    match s.place c pc.1 with
    | some (p, ch, _, _) => !s.readRefused (.port n) (.channel p ch) && s.working p ch
    | none => false

/-- The partitions in service among those of a range. -/
def State.tookBy (s : State) (c a len : Nat) : List Nat :=
  ((blockPieces a len).filterMap fun pc => (s.place c pc.1).map (·.1)).dedup.filter s.memServes

/-- Data of an accepted remote write reach their block by ingress port `n`: as a request of that time, or as one that the
block's partition accepted before its fence and completes while it drains (R317, R381). Answers whether the block was refused
or its acknowledgement lost. -/
def State.acceptedWrite (s : State) (n : Nat) (w : RemoteWrite) (a : Nat) (b : List Byte) (poison : Bool) : Bool × State :=
  match s.place w.cx a with
  | none => (true, s)
  | some (p, ch, _, _) =>
    let drains := s.fenced p && s.fon FNC_PART_STATUS.DRAINING p && w.took.contains p
    s.asAccepted (if drains then some p else none) fun s =>
      if (s.askRefusal (.port n) (.channel p ch)).isSome || !s.working p ch then (true, s)
      else
        let lost := s.answerCut (.port n) (.channel p ch)
        let (f, s) := s.memWrite w.cx a b poison
        (f || lost, s)

/-- The port of a cluster's partition that is nearest to its site: the first where both are as near, DESIGN CHOICE (R298). -/
def State.portNear (s : State) (L : Nat) : Nat :=
  let q := s.clusterXY L
  let far := fun n => (orderPath (s.unitXY (.port n) q) 50 q).length
  let n := 2 * s.hostPart L
  if far (n + 1) < far n then n + 1 else n

end Sys2Proof.Machine
end

