-- ==== Sys2Proof/Machine/Matrix.lean ====
section
/-! DEFINITION. The matrix core and its audit: acceptance of a descriptor, array work of one K-block and pass, the audit,
write-back, completion (04_matrix_core.md, R72 to R101, R464). -/
namespace Sys2Proof.Machine

open Sys2Proof

/-! ### The descriptor -/

/-- Bits [hi:lo] of word `w` of a descriptor (R79). -/
def dfield (d : List Word) (w hi lo : Nat) : Nat := bitsOf (d.getD w 0).toNat hi lo

def descTag (d : List Word) : Nat := dfield d 1 7 0
def descM (d : List Word) : Nat := 64 * dfield d 1 19 8
def descN (d : List Word) : Nat := 64 * dfield d 1 31 20
def descK (d : List Word) : Nat := 64 * dfield d 2 11 0
def descCin (d : List Word) : Bool := dfield d 0 22 22 == 1
def descDest (d : List Word) : Nat := dfield d 0 25 24
def descConv (d : List Word) : Nat := dfield d 0 19 16
def descOrder (d : List Word) : Bool := dfield d 0 26 26 == 1

/-- An operand in the vault as its fields name it: format code, element and scale addresses, pitch in bytes, scale
layout byte (R50, R79), stored rows and columns (R78). -/
structure Operand where
  code : Nat
  addr : Nat
  saddr : Nat
  pitch : Nat
  axis : Nat
  gran : Nat
  scode : Nat
  rows : Nat
  cols : Nat
  deriving DecidableEq, Repr

def Operand.of (code addr saddr pitch sl rows cols : Nat) : Operand :=
  { code := code, addr := addr, saddr := saddr, pitch := 32 * pitch, axis := sl / 128, gran := (sl / 16) % 8,
    scode := sl % 16, rows := rows, cols := cols }

/-- A: M × K, or K × M with TA (R78). -/
def opA (d : List Word) : Operand :=
  let ta := dfield d 0 20 20 = 1
  Operand.of (dfield d 0 3 0) (dfield d 3 23 0) (dfield d 4 23 0) (dfield d 5 15 0) (dfield d 3 31 24)
    (if ta then descK d else descM d) (if ta then descM d else descK d)

/-- B: K × N, or N × K with TB (R78). -/
def opB (d : List Word) : Operand :=
  let tb := dfield d 0 21 21 = 1
  Operand.of (dfield d 0 7 4) (dfield d 6 23 0) (dfield d 7 23 0) (dfield d 5 31 16) (dfield d 6 31 24)
    (if tb then descN d else descK d) (if tb then descK d else descN d)

def opO (d : List Word) : Operand :=
  Operand.of (dfield d 0 11 8) (dfield d 8 23 0) (dfield d 9 23 0) (dfield d 10 15 0) (dfield d 8 31 24)
    (descM d) (descN d)

def opC (d : List Word) : Operand :=
  Operand.of (dfield d 0 15 12) (dfield d 11 23 0) (dfield d 12 23 0) (dfield d 10 31 16) (dfield d 11 31 24)
    (descM d) (descN d)

/-- The AXIS along which blocks of A, or of B, run along K (R78). -/
def kAxisA (d : List Word) : Nat := dfield d 0 20 20
def kAxisB (d : List Word) : Nat := 1 - dfield d 0 21 21

/-- The block size of a GRAN code, none for the other granularities (R50). -/
def granBlock : Nat → Option Nat
  | 1 => some 16 | 2 => some 32 | 3 => some 64 | 4 => some 128 | _ => none

def Operand.fmt (o : Operand) : Fmt := (Fmt.ofCode o.code).getD .I8

/-- The scale format; SE8 where there is no scale array (R51). -/
def Operand.sfmt (o : Operand) : SFmt := if o.gran = 0 then .SE8 else (SFmt.ofCode o.scode).getD .SE8

/-- Bytes of a packed row (R46). -/
def Operand.rowLen (o : Operand) : Nat := rowBytes o.fmt.width o.cols

/-- The rows of a scale array and the entries of each (R52). -/
def Operand.scaleGrid (o : Operand) : Nat × Nat :=
  match granBlock o.gran with
  | some b => if o.axis = 0 then (o.rows, o.cols / b) else (o.rows / b, o.cols)
  | none =>
    if o.gran = 5 then (1, if o.axis = 0 then o.rows else o.cols)
    else if o.gran = 6 then (1, 1) else (0, 0)

/-- Bytes from one row of a scale array to the next: whole 32-byte units (R52). -/
def Operand.scalePitch (o : Operand) : Nat := (o.scaleGrid.2 * o.sfmt.bytes + 31) / 32 * 32

/-- The first address after the elements, and after the scale array (R80). -/
def Operand.elemEnd (o : Operand) : Nat := if o.rows = 0 then o.addr else o.addr + (o.rows - 1) * o.pitch + o.rowLen

def Operand.scaleEnd (o : Operand) : Nat :=
  if o.scaleGrid.1 = 0 then o.saddr
  else o.saddr + (o.scaleGrid.1 - 1) * o.scalePitch + o.scaleGrid.2 * o.sfmt.bytes

/-- The place of the scale entry of stored element (i, j) (R51, R52). -/
def Operand.scaleAddr (o : Operand) (i j : Nat) : Nat :=
  let at_ := fun (r e : Nat) => o.saddr + r * o.scalePitch + e * o.sfmt.bytes
  match granBlock o.gran with
  | some b => if o.axis = 0 then at_ i (j / b) else at_ (i / b) j
  | none => if o.gran = 5 then at_ 0 (if o.axis = 0 then i else j) else o.saddr

/-! ### Acceptance -/

/-- Products per cell per cycle (R73). R75 is checked before a pairing with I32 is refused, and R73 gives that pairing no
`p`: 1 is DESIGN CHOICE, log entry 64. -/
def pairP (a b : Nat) : Nat :=
  let wide := fun (c : Nat) => c == 5 || c == 0 || c == 1 || c == 6 || c == 7
  let four := fun (c : Nat) => c == 2 || c == 3
  if wide a || wide b then 1 else if four a || four b then 2 else if a = 4 ∧ b = 4 then 4 else 1

def descP (d : List Word) : Nat := pairP (opA d).code (opB d).code

/-- Scale block sizes along K of A and B (R75, R76). -/
def kBlocks (d : List Word) : List Nat :=
  let of := fun (o : Operand) (ax : Nat) => if o.axis = ax then (granBlock o.gran).toList else []
  of (opA d) (kAxisA d) ++ of (opB d) (kAxisB d)

/-- The length of a K-block (R76). -/
def kBlockLen (d : List Word) : Nat := (kBlocks d).foldl min (64 * descP d)

/-- The bits of each word that R79 does not reserve. -/
def descMask : List Nat :=
  [0x07FFFFFF, 0xFFFFFFFF, 0x00000FFF, 0xFFFFFFFF, 0x00FFFFFF, 0xFFFFFFFF, 0xFFFFFFFF, 0x00FFFFFF, 0xFFFFFFFF,
   0x00FFFFFF, 0xFFFFFFFF, 0xFFFFFFFF, 0x00FFFFFF, 0xFFFFFFFF, 0, 0]

/-- A reserved field is not 0 (R80). -/
def descReserved (d : List Word) : Bool :=
  descDest d == 3 ||
    ((List.range 16).any fun i => (d.getD i 0).toNat &&& (2 ^ 32 - 1 - descMask.getD i 0) != 0)

/-- The operands whose layout counts: C only with CIN. R79 exempts only CFMT by name; that C's layout byte, pitch and range
are not checked without CIN while its addresses are is DESIGN CHOICE, log entry 64. -/
def layoutOps (d : List Word) : List Operand := [opA d, opB d, opO d] ++ if descCin d then [opC d] else []

/-- The operands whose addresses count: R79 has those of O ignored unless DEST is vault, and no others. -/
def addressOps (d : List Word) : List Operand := [opA d, opB d, opC d] ++ if descDest d = 0 then [opO d] else []

/-- The operands held in the vault: O only with DEST vault (R79), C only with CIN (DESIGN CHOICE, log entry 64). -/
def vaultOps (d : List Word) : List Operand :=
  [opA d, opB d] ++ (if descCin d then [opC d] else []) ++ if descDest d = 0 then [opO d] else []

/-- A block size that does not divide an axis of nonzero length (R51). -/
def Operand.badBlock (o : Operand) : Bool :=
  match granBlock o.gran with
  | some b => let n := if o.axis = 0 then o.cols else o.rows; n != 0 && n % b != 0
  | none => false

/-- A layout of A or B that R78 refuses: line or block that does not run along, or across, as its table says. -/
def Operand.badInput (o : Operand) (kAxis : Nat) : Bool :=
  (o.gran == 5 || (granBlock o.gran).isSome) && o.axis != kAxis

/-- A layout of O that R78 refuses with a chosen or rescaled scale. -/
def badOutput (d : List Word) : Bool :=
  let o := opO d
  (descConv d).testBit 1 || (descConv d).testBit 2 |>.and <|
    o.gran == 4 || (o.gran == 5 && (if o.axis = 0 then descN d != 64 else descM d != 64))
      || (o.gran == 6 && !(descM d == 64 && descN d == 64))

/-- DEST_ID names what R80 asks for. -/
def State.destIdOk (s : State) (L : Nat) (d : List Word) : Bool :=
  let id := dfield d 13 31 16
  match descDest d with
  | 1 => match s.ep L id with
    | some e => e.send && e.kind == .token
    | none => false
  | 2 => match (s.owner L).bind fun c => s.group c id with
    | some g => g.contributors.contains L
    | none => false
  | _ => true

/-- A completion entry (R100). -/
def completion (tag status flags : Nat) : Word := BitVec.ofNat 32 (tag + 2 ^ 8 * status + flags)

/-- Status codes of descriptors that were refused (R101). -/
def refusedStatus (n : Nat) : Bool := decide (1 ≤ n) && decide (n ≤ 0xE)

/-- A tag is outstanding from acceptance until its completion entry is popped (R89). -/
def Matrix.outstanding (m : Matrix) (tag : Nat) : Bool :=
  m.reserved.contains tag ||
    m.done.any fun w => bitsOf w.toNat 7 0 == tag && !refusedStatus (bitsOf w.toNat 15 8)

/-- The acceptance checks in ascending order of code: the code of the first that fails (R101). `busy`: the tag is
outstanding; `destOk`: DEST_ID names what R80 asks for. -/
def descCheck (busy destOk : Bool) (d : List Word) : Option Nat :=
  let a := opA d
  let b := opB d
  let o := opO d
  let isElem := fun (o : Operand) => (Fmt.ofCode o.code).isSome
  let checks : List (Nat × Bool) :=
    [(0x01, !((layoutOps d).all isElem)
        || (layoutOps d).any fun o => o.gran != 0 && (SFmt.ofCode o.scode).isNone),
     (0x02, (layoutOps d).any fun o => o.gran == 7),
     (0x03, (layoutOps d).any Operand.badBlock),
     (0x04, (addressOps d).any (fun o => o.addr % 32 != 0 || o.saddr % 32 != 0)
        || (vaultOps d).any fun o => decide (o.pitch < o.rowLen)),
     (0x05, (Conv.ofField (descConv d) (o.gran == 0)).isNone),
     (0x06, descM d == 0 || descN d == 0 || descK d == 0 || descK d % (64 * descP d) != 0
        || (kBlocks d).any fun b => descK d % b != 0),
     (0x07, a.code == 8 || b.code == 8),
     (0x08, a.badInput (kAxisA d) || b.badInput (kAxisB d) || badOutput d),
     (0x09, (vaultOps d).any fun o => decide (o.elemEnd > Config.vaultBytes)
        || (o.gran != 0 && decide (o.scaleEnd > Config.vaultBytes))),
     (0x0A, descDest d == 2 && !(o.code == 8 && !(descConv d).testBit 1 && !(descConv d).testBit 2
        && (o.gran == 0 || o.gran == 6))),
     (0x0B, busy),
     (0x0C, descReserved d),
     (0x0D, !destOk)]
  (checks.find? (·.2)).map (·.1)

/-- The check of a descriptor that a cluster's queue reads. -/
def State.descRefusal (s : State) (L : Nat) (d : List Word) : Option Nat :=
  descCheck ((s.cl L).matrix.outstanding (descTag d)) (s.destIdOk L d) d

def State.updMatrix (s : State) (L : Nat) (f : Matrix → Matrix) : State :=
  s.updCl L fun c => { c with matrix := f c.matrix }

/-- A refused descriptor: an entry at once, counted, one record per cluster per tally (R89, R101). -/
def State.refuseDesc (s : State) (L tag code : Nat) : State :=
  let s := s.updMatrix L fun m => { m with done := m.done ++ [completion tag code 0] }
  let s := (s.finc MXC_ERROR.COUNT L).fset MXC_ERROR.LAST L code
  if (s.cl L).refusalRecorded then s
  else (s.updCl L fun c => { c with refusalRecorded := true }).report sevWarning blkMXC code L (s.owner L)
    [BitVec.ofNat 32 tag]

/-- Slots taken in the completion FIFO: reserved or holding a finished entry (R89). -/
def Matrix.fifo (m : Matrix) : Nat := m.reserved.length + m.done.length

/-- A descriptor can be presented: a queue slot and a completion entry are free (R89). -/
def Matrix.room (m : Matrix) : Bool := decide (m.queue.length < 16) && decide (m.fifo < 16)

/-- The matrix queue reads the descriptor at `a` and accepts or refuses it (R89, R101); poison is checked first. R131 names
no port for this read: matrix A is DESIGN CHOICE, log entry 64. -/
def State.acceptDesc (s : State) (L a : Nat) : State :=
  let (b, poison, s) := s.vload L a 64 .matrixA
  let d := wordsOf b 16
  if poison then s.refuseDesc L (descTag d) 0x0E
  else
    match s.descRefusal L d with
    | some code => s.refuseDesc L (descTag d) code
    | none => s.updMatrix L fun m => { m with
        queue := m.queue ++ [(m.serial, d)], serial := m.serial + 1, reserved := m.reserved ++ [descTag d] }

/-! ### Operand reads -/

/-- The bytes of [a, a+n) as a read of the matrix core sees them: zeros where the region table forbids it (R134). -/
def State.peek (s : State) (L a n : Nat) : List Byte := if s.readOk L a n then s.vbytes L a n else List.replicate n 0

/-- Element (i, j) of an operand as stored. -/
def State.elem (s : State) (L : Nat) (o : Operand) (i j : Nat) : Int :=
  let w := o.fmt.width
  let bit := w * j
  let n := (bit % 8 + w + 7) / 8
  o.fmt.value ((leNat (s.peek L (o.addr + i * o.pitch + bit / 8) n) >>> (bit % 8)) % 2 ^ w)

/-- The scale of stored element (i, j); one whose group was delivered poisoned is invalid (R84, R141). -/
def State.scaleOf (s : State) (L : Nat) (o : Operand) (bad : List Nat) (i j : Nat) : Scale :=
  if o.gran = 0 then Scale.one
  else
    let a := o.scaleAddr i j
    if (groupsOf a o.sfmt.bytes).any (bad.contains ·) then .invalid
    else Scale.decode o.sfmt (leNat (s.peek L a o.sfmt.bytes))

/-- The byte ranges of stored elements [j, j+n) of rows [i, i+r), and of their scales. -/
def Operand.ranges (o : Operand) (i r j n : Nat) : List (Nat × Nat) :=
  let w := o.fmt.width
  let elems := (List.range r).map fun k => (o.addr + (i + k) * o.pitch + w * j / 8, rowBytes w n)
  let scales :=
    if o.gran = 0 then []
    else ((List.range r).flatMap fun k => (List.range n).map fun l => o.scaleAddr (i + k) (j + l)).dedup.map
      fun a => (a, o.sfmt.bytes)
  elems ++ scales

/-- The ranges are read with their regions and parity checked: the groups delivered poisoned (R134, R141). -/
def State.readRanges (s : State) (L : Nat) (port : VPort) : List (Nat × Nat) → List Nat × State
  | [] => ([], s)
  | (a, n) :: t =>
    if s.readOk L a n then
      let (bad, s) := s.checkGroups L (groupsOf a n) port
      let (bad', s) := s.readRanges L port t
      (bad ++ bad', s)
    else (s.violate L a).readRanges L port t

/-! ### One K-block and pass of the array -/

/-- The slice of an element in a pass: whole, low byte unsigned, or the rest signed (R74). -/
inductive Slice where
  | whole | high | low
  deriving DecidableEq, Repr

def Slice.take (sl : Slice) (v : Int) : Int :=
  match sl with
  | .whole => v
  | .high => v / 256
  | .low => v % 256

def Slice.weight : Slice → Nat
  | .high => 256
  | _ => 1

def slicesOf (code : Nat) : List Slice := if code = 6 ∨ code = 7 then [.high, .low] else [.whole]

/-- The passes of a K-block in the order of R82. -/
def passesOf (d : List Word) : List (Slice × Slice) :=
  (slicesOf (opA d).code).flatMap fun a => (slicesOf (opB d).code).map fun b => (a, b)

/-- A 32-bit wrapping register (R72). -/
def wrap32 (v : Int) : Int := (BitVec.ofInt 32 v).toInt

/-- The sum of `f` over [0, n). -/
def sumTo (n : Nat) (f : Nat → Int) : Int := ((List.range n).map f).sum

/-- A table of integers by row and column: operand slices and block registers of one K-block. -/
abbrev Grid := Array (Array Int)

def Grid.of (rows cols : Nat) (f : Nat → Nat → Int) : Grid :=
  Array.ofFn fun i : Fin rows => Array.ofFn fun j : Fin cols => f i j

def Grid.at_ (g : Grid) (i j : Nat) : Int := (g.getD i #[]).getD j 0

/-- The sums of the columns of a table, and of its rows. -/
def Grid.colSums (g : Grid) (rows cols : Nat) : Array Int := Array.ofFn fun j : Fin cols => sumTo rows fun i => g.at_ i j
def Grid.rowSums (g : Grid) (rows cols : Nat) : Array Int := Array.ofFn fun i : Fin rows => sumTo cols fun j => g.at_ i j

/-- The upsets of a cell add to what it holds. -/
def upsetDelta (u : CellUpset) (i j : Nat) : Int :=
  match u with
  | .cells l => ((l.filter fun e => e.1 == i && e.2.1 == j).map (·.2.2)).sum
  | _ => 0

/-- What the audit compares (R95): kind, row and column of the first mismatch. `A` and `B` are the slices of the
pass, `P` the partials; `u` gives the errors of the checksum cells, which hold the left-hand sides (R96). -/
def auditOf (len : Nat) (A B P : Grid) (u : CellUpset) : Option (Nat × Nat × Nat) :=
  let colA := A.colSums 64 len
  let rowB := B.rowSums len 64
  let col := (List.range 64).find? fun j =>
    wrap32 (upsetDelta u 64 j + sumTo len fun k => colA.getD k 0 * B.at_ k j) != wrap32 (sumTo 64 fun i => P.at_ i j)
  let row := (List.range 64).find? fun i =>
    wrap32 (upsetDelta u i 64 + sumTo len fun k => A.at_ i k * rowB.getD k 0) != wrap32 (sumTo 64 fun j => P.at_ i j)
  let corner := wrap32 (upsetDelta u 64 64 + sumTo len fun k => colA.getD k 0 * rowB.getD k 0)
    != wrap32 (sumTo 64 fun i => sumTo 64 fun j => P.at_ i j)
  match col, row with
  | some j, r => some (1, r.getD 0, j)
  | none, some i => some (0, i, 0)
  | none, none => if corner then some (2, 0, 0) else none

/-- The exponent and multiplier by which a scale enters an accumulator (R81): an SE8 scale has no multiplier. -/
def scaleParts (sf : SFmt) (e : Int) (m : Nat) : Int × Nat :=
  match sf with
  | .SE8 => (e, 1)
  | .SM16 => (e - 7, m)

/-- The accumulator range (R83). -/
def accLo : Int := -(2 ^ 47)
def accHi : Int := 2 ^ 47 - 1

/-- A value lies in the accumulator range. -/
def accFits (x : Int) : Bool := decide (accLo ≤ x) && decide (x ≤ accHi)

/-- The smallest shift from `d` up at which the sum of the accumulator and the incoming term, both shifted, is in range
(R83). -/
def accShift (a b : Int) : Nat → Nat → Nat
  | 0, d => d
  | n + 1, d => if accFits (shiftRne a d + shiftRne b d) then d else accShift a b n (d + 1)

/-- A term with the scale 2^(ep - 127) enters a cell (R82, R83): the cell, whether it was rescaled or saturated. The shift
that aligns the term overflows by itself where the term leaves the range, whatever the sum: the cell then shifts by at
least 1, or saturates on the term's side, DEDUCED, log entry 64. -/
def Acc.add (ars : Bool) (c : Acc) (term : Int) (ep : Int) : Acc × Bool × Bool :=
  let e := c.e.getD ep
  let t := shiftRne term (e - ep)
  let x := c.v + t
  if accFits t && accFits x then ({ c with v := x, e := some e }, false, false)
  else if ars then
    let d := accShift c.v t 600 1
    ({ c with v := shiftRne c.v d + shiftRne t d, e := some (e + d) }, true, false)
  else ({ c with v := if x > accHi ∨ t > accHi then accHi else -accHi, e := some e }, false, true)

def accDefault : Nat → Acc := fun _ => { v := 0, e := none, invalid := false }

/-- A partial of cell (i, j) with the two scales of its operands enters the accumulators (R81, R82, R84). -/
def accumulate (ars : Bool) (sfA sfB : SFmt) (sa sb : Scale) (P : Int) (weight : Nat) (c : Acc) :
    Acc × Bool × Bool :=
  match sa, sb with
  | .invalid, _ => ({ c with invalid := true }, false, false)
  | _, .invalid => ({ c with invalid := true }, false, false)
  | .zero, _ => (c, false, false)
  | _, .zero => (c, false, false)
  | .normal ea ma, .normal eb mb =>
    let (ea, ma) := scaleParts sfA ea ma
    let (eb, mb) := scaleParts sfB eb mb
    c.add ars (P * ma * mb * weight) (ea + eb - 127)

/-- The flag bits of a completion entry for the accumulators (R100). -/
def accFlags (r sat : Bool) : Nat := r.toNat * 2 ^ 19 + sat.toNat * 2 ^ 20

/-- Cell coordinates of a tile. -/
def tileCells : List (Nat × Nat) := (List.range 64).flatMap fun i => (List.range 64).map fun j => (i, j)

/-- Every cell takes `f` of its place and contents: the cells and the flags raised. -/
def updateCells (f : Nat → Nat → Acc → Acc × Bool × Bool) (cells : NMap Acc) : NMap Acc × Nat :=
  tileCells.foldl (fun (m, fl) (i, j) =>
    let (c, r, sat) := f i j (mget accDefault m (64 * i + j))
    (mput accDefault m (64 * i + j) c, fl ||| accFlags r sat)) (cells, 0)

/-- Tiles of a descriptor, and the row and column of tile `t` (R75). -/
def descTiles (d : List Word) : Nat := (descM d / 64) * (descN d / 64)
def tileRow (d : List Word) (t : Nat) : Nat := 64 * (t / (descN d / 64))
def tileCol (d : List Word) (t : Nat) : Nat := 64 * (t % (descN d / 64))

/-- Element k of row i of A, and of column j of B, of a tile; stored transposed with TA or TB. -/
def State.elemA (s : State) (L : Nat) (d : List Word) (i k : Nat) : Int :=
  if dfield d 0 20 20 = 1 then s.elem L (opA d) k i else s.elem L (opA d) i k

def State.elemB (s : State) (L : Nat) (d : List Word) (k j : Nat) : Int :=
  if dfield d 0 21 21 = 1 then s.elem L (opB d) j k else s.elem L (opB d) k j

def State.scaleA (s : State) (L : Nat) (d : List Word) (bad : List Nat) (i k : Nat) : Scale :=
  if dfield d 0 20 20 = 1 then s.scaleOf L (opA d) bad k i else s.scaleOf L (opA d) bad i k

def State.scaleB (s : State) (L : Nat) (d : List Word) (bad : List Nat) (k j : Nat) : Scale :=
  if dfield d 0 21 21 = 1 then s.scaleOf L (opB d) bad j k else s.scaleOf L (opB d) bad k j

/-- The ranges that a K-block of a tile reads of A, and of B. -/
def rangesA (d : List Word) (i k len : Nat) : List (Nat × Nat) :=
  if dfield d 0 20 20 = 1 then (opA d).ranges k len i 64 else (opA d).ranges i 64 k len

def rangesB (d : List Word) (k j len : Nat) : List (Nat × Nat) :=
  if dfield d 0 21 21 = 1 then (opB d).ranges j 64 k len else (opB d).ranges k len j 64

/-- The slices of A and of B that a K-block and pass of a tile multiply (R82). -/
def State.gridA (s : State) (L : Nat) (d : List Word) (t kb : Nat) (sl : Slice) : Grid :=
  Grid.of 64 (kBlockLen d) fun i k => sl.take (s.elemA L d (tileRow d t + i) (kb * kBlockLen d + k))

def State.gridB (s : State) (L : Nat) (d : List Word) (t kb : Nat) (sl : Slice) : Grid :=
  Grid.of (kBlockLen d) 64 fun k j => sl.take (s.elemB L d (kb * kBlockLen d + k) (tileCol d t + j))

/-- The partials of a K-block and pass, in the block registers (R72, R81). -/
def partials (len : Nat) (A B : Grid) (u : CellUpset) : Grid :=
  Grid.of 64 64 fun i j => wrap32 (upsetDelta u i j + sumTo len fun k => A.at_ i k * B.at_ k j)

/-- Partials as they wait in the block registers. -/
def tabulate (P : Grid) : NMap Int := mputs (fun _ => 0) [] (tileCells.map fun (i, j) => (64 * i + j, P.at_ i j))

/-- The partials enter the accumulators of a set (R82 to R84). -/
def State.enter (s : State) (L : Nat) (d : List Word) (bad : List Nat) (t kb : Nat) (sl : Slice × Slice)
    (P : Nat → Nat → Int) (cells : NMap Acc) : NMap Acc × Nat :=
  let k0 := kb * kBlockLen d
  let ars := dfield d 0 23 23 = 1
  updateCells (fun i j c => accumulate ars (opA d).sfmt (opB d).sfmt
    (s.scaleA L d bad (tileRow d t + i) k0) (s.scaleB L d bad k0 (tileCol d t + j)) (P i j)
    (sl.1.weight * sl.2.weight) c) cells

/-- The place after a (tile, K-block, pass) of the array, and whether the tile, and the array's work, ends there. -/
def Job.nextPlace (j : Job) : Job × Bool :=
  let passes := (passesOf j.desc).length
  let kbs := descK j.desc / kBlockLen j.desc
  if j.pass + 1 < passes then ({ j with pass := j.pass + 1 }, false)
  else if j.kblock + 1 < kbs then ({ j with pass := 0, kblock := j.kblock + 1 }, false)
  else ({ j with pass := 0, kblock := 0, tile := j.tile + 1,
                 arrayDone := decide (j.tile + 1 ≥ descTiles j.desc) }, true)

/-- The set held by a tile of a job. -/
def Matrix.setOf (m : Matrix) (serial tile : Nat) : Option Nat :=
  m.sets.findIdx? fun x => match x with
    | some a => a.job == serial && a.tile == tile
    | none => false

/-- The sets that a matrix core holds. -/
def Matrix.held (m : Matrix) : List AccSet := m.sets.filterMap id

/-- The clusters that share the site's array with `L` (R92). -/
def State.sharers (s : State) (L : Nat) : List Nat :=
  match (s.cl L).site with
  | some n => (s.site n).holds
  | none => []

/-- The other clusters of the site. -/
def State.partners (s : State) (L : Nat) : List Nat := (s.sharers L).filter (· != L)

/-- The sets of the site's array that tiles hold: its two sets serve both clusters of a doubled site (R92, R464). -/
def State.heldSets (s : State) (L : Nat) : List AccSet :=
  (s.cl L).matrix.held ++ (s.partners L).flatMap fun M => (s.cl M).matrix.held

/-- The set that a tile holds, or a free one of the site's two that it takes, after those that the site's array began
before it. -/
def State.claim (s : State) (L serial tile : Nat) : Option (Nat × AccSet) :=
  let m := (s.cl L).matrix
  match m.setOf serial tile with
  | some i => (m.sets.getD i none).map fun a => (i, a)
  | none =>
    if (s.heldSets L).length < 2 then
      (m.sets.findIdx? Option.isNone).map fun i =>
        (i, { job := serial, tile := tile, order := 1 + ((s.heldSets L).map (·.order)).foldl max 0, full := false,
              cells := [], poison := [], outbox := none })
    else none

def Matrix.setJob (m : Matrix) (j : Job) : Matrix :=
  { m with jobs := m.jobs.map fun x => if x.serial = j.serial then j else x }

/-- The job whose array work runs: one at a time (R90). -/
def Matrix.running (m : Matrix) : Option Job := m.jobs.find? fun j => !j.arrayDone

/-- The partial that a job has formed for its place enters a set, and the array goes on (R82); `rows` are the rows that
poisoned operands reach. -/
def State.enterSet (s : State) (L : Nat) (j : Job) (bad rows : List Nat) (sl : Slice × Slice) (P : Nat → Nat → Int)
    (i : Nat) (a : AccSet) : State :=
  let (cells, fl) := s.enter L j.desc bad j.tile j.kblock sl P a.cells
  let (j', ended) := j.nextPlace
  s.updMatrix L fun m => ({ m with sets := m.sets.set i (some { a with cells := cells, full := ended, poison := (a.poison ++ rows).dedup }) }).setJob
    { j' with flags := j.flags ||| fl, waiting := none }

/-! ### A mismatch -/

/-- MXC_AUDIT_LAST for a mismatch: the K-block index modulo 256. -/
def auditWord (kind pass row col kblock tag : Nat) : DWord :=
  BitVec.ofNat 64 (kind * 2 ^ 30 + pass % 4 * 2 ^ 28 + row * 2 ^ 22 + col * 2 ^ 16 + kblock % 256 * 2 ^ 8 + tag)

/-- MXC_AUDIT_LAST and MXC_AUDIT_TALLY take a mismatch, unless they are held (MXC_AUDIT_LAST). -/
def State.latchAudit (s : State) (L : Nat) (w : DWord) : State :=
  let t := BitVec.ofNat 64 s.count32
  if (s.cl L).auditHold then s.updCl L fun c => { c with auditPending := some (w, t) }
  else (s.rset .MXC_AUDIT_LAST L w).rset .MXC_AUDIT_TALLY L t

/-- An audit or write-back mismatch of a job (R97). Its record's DETAIL holds the word of MXC_AUDIT_LAST, then the whole
K-block index, then the site where it is shown: that layout is DESIGN CHOICE, log entry 64. -/
def State.auditMismatch (s : State) (L : Nat) (j : Job) (kind row col : Nat) (injected : Bool) : State :=
  let w := auditWord kind j.pass row col j.kblock (descTag j.desc)
  let s := (s.finc MXC_AUDIT_COUNT.TOTAL L).latchAudit L w
  let s := if injected then s.finc MXC_AUDIT_COUNT.INJECTED L else s
  let s := s.updMatrix L fun m => { m with
    jobs := m.jobs.map fun x => if x.serial = j.serial then { x with mismatch := true } else x }
  s.hwFault L (if kind = 3 then .writeback else .audit) blkMXC kind injected
    (BitVec.ofNat 32 w.toNat :: BitVec.ofNat 32 j.kblock :: s.siteDetail L)

/-- The rows of a tile that poisoned groups reach: those whose elements or scales of A lie there, and every row where B's
do. -/
def poisonRows (d : List Word) (t k len : Nat) (badA badB : List Nat) : List Nat :=
  if !badB.isEmpty then List.range 64
  else if badA.isEmpty then []
  else (List.range 64).filter fun i =>
    let o := opA d
    let l := if dfield d 0 20 20 = 1 then o.ranges k len (tileRow d t + i) 1 else o.ranges (tileRow d t + i) 1 k len
    l.any fun e => (groupsOf e.1 e.2).any (badA.contains ·)

/-- The partial of a cluster that waits in the block registers enters a set that is free (R464). -/
def State.enterWaiting (s : State) (L : Nat) : State :=
  match (s.cl L).matrix.running with
  | none => s
  | some j =>
    match j.waiting, s.claim L j.serial j.tile with
    | some (p, bad, rows), some (i, a) =>
      s.enterSet L j bad rows ((passesOf j.desc).getD j.pass (.whole, .whole)) (fun r c => mget (fun _ => 0) p (64 * r + c)) i a
    | _, _ => s

/-- Array work of one K-block and pass, and its audit (R72 to R84, R95): the partials enter the tile's set, or wait for
one in the block registers (R464). A partial that still waits, though a set was freed by the site's other cluster losing its
work, enters first. -/
def State.auditResult (s : State) (L : Nat) (u : CellUpset) : State :=
  let s := if s.reachable L then s.enterWaiting L else s
  match (s.cl L).matrix.running with
  | none => s
  | some j =>
    if j.waiting.isSome || !s.reachable L then s
    else
      let d := j.desc
      let len := kBlockLen d
      let sl := (passesOf d).getD j.pass (.whole, .whole)
      let (badA, s) := s.readRanges L .matrixA (rangesA d (tileRow d j.tile) (j.kblock * len) len)
      let (badB, s) := s.readRanges L .matrixB (rangesB d (j.kblock * len) (tileCol d j.tile) len)
      let bad := badA ++ badB
      let A := s.gridA L d j.tile j.kblock sl.1
      let B := s.gridB L d j.tile j.kblock sl.2
      let P := partials len A B u
      let found := auditOf len A B P u
      let rows := poisonRows d j.tile (j.kblock * len) len badA badB
      let armed := s.fon MXC_AUDIT_INJECT.ARM L
      let s' := match s.claim L j.serial j.tile with
        | some (i, a) => s.enterSet L j bad rows sl P.at_ i a
        | none => s.updMatrix L fun m => m.setJob { j with waiting := some (tabulate P, bad, rows) }
      let s' := match found with
        | some (kind, row, col) => s'.auditMismatch L j kind row col false
        | none => s'
      let s' := match u with
        | .writeback row col => s'.auditMismatch L j 3 row col false
        | _ => s'
      if armed then (s'.fset MXC_AUDIT_INJECT.ARM L 0).auditMismatch L j 1 0 0 true else s'

def execAuditResult (cluster : Nat) (upset : CellUpset) (s : State) : Host.Outcome State Fault Refusal :=
  onUnit (okCluster cluster && upset.ok) (s.auditResult cluster upset)

/-! ### Starting a descriptor -/

/-- The descriptor at the head of the queue may start: ORDER waits for every earlier completion (R90). -/
def Matrix.startable (m : Matrix) : Bool :=
  match m.queue with
  | [] => false
  | (_, d) :: _ => !descOrder d || m.jobs.isEmpty

/-- The array is free, and on a doubled site it is this queue's turn (R90, R92). -/
def State.arrayFree (s : State) (L : Nat) : Bool :=
  let others := s.partners L
  (s.cl L).matrix.running.isNone && (others.all fun M => (s.cl M).matrix.running.isNone)
    && (match (s.cl L).site with
        | some n => (s.site n).arrayLast != some L || !(others.any fun M => (s.cl M).matrix.startable)
        | none => false)

/-- A queued descriptor starts its array work (R90). -/
def State.descriptorStart (s : State) (L : Nat) : State :=
  match (s.cl L).matrix.queue with
  | [] => s
  | (serial, d) :: rest =>
    if s.reachable L && (s.cl L).matrix.startable && s.arrayFree L then
      let s := match (s.cl L).site with
        | some n => s.updSite n fun x => { x with arrayLast := some L }
        | none => s
      s.updMatrix L fun m => { m with
        queue := rest,
        jobs := m.jobs ++ [{ serial := serial, desc := d, tile := 0, kblock := 0, pass := 0, written := 0,
                             waiting := none, arrayDone := false, flags := 0, mismatch := false, invalid := [] }] }
    else s

def execDescriptorStart (cluster : Nat) (s : State) : Host.Outcome State Fault Refusal :=
  onUnit (okCluster cluster) (s.descriptorStart cluster)

/-! ### Write-back -/

/-- The C term enters every cell (R85). -/
def State.addC (s : State) (L : Nat) (d : List Word) (bad : List Nat) (t : Nat) (cells : NMap Acc) : NMap Acc × Nat :=
  let o := opC d
  let ars := dfield d 0 23 23 = 1
  updateCells (fun i j c =>
    let r := tileRow d t + i
    let q := tileCol d t + j
    match s.scaleOf L o bad r q with
    | .invalid => ({ c with invalid := true }, false, false)
    | .zero => (c, false, false)
    | .normal e m =>
      let (e, m) := scaleParts o.sfmt e m
      c.add ars (s.elem L o r q * m) e) cells

/-- The output blocks of a tile in the order in which its rows leave: the place of the block's scale entry (none with
GRAN none) and its cells row by row (R50 to R52, R87). With GRAN none there is no block to mark: an invalid cell alone is
written as 0 and sets the flag, DESIGN CHOICE, log entry 62. -/
def tileBlocks (d : List Word) (t : Nat) : List (Option Nat × List (Nat × Nat)) :=
  let o := opO d
  if o.gran = 0 then tileCells.map fun c => (none, [c])
  else
    let key := fun (c : Nat × Nat) => o.scaleAddr (tileRow d t + c.1) (tileCol d t + c.2)
    let keys := (tileCells.map key).dedup.mergeSort (fun a b =>
      (tileCells.findIdx fun c => key c = a) ≤ (tileCells.findIdx fun c => key c = b))
    keys.map fun k => (some k, tileCells.filter fun c => key c = k)

/-- The fixed scale of a write-back: 1 with GRAN none, else OSCALE (R86). -/
def fixedScale (d : List Word) : Scale :=
  let o := opO d
  if o.gran = 0 then Scale.one else Scale.decode o.sfmt (dfield d 13 15 0)

/-- One output block converted (R84, R86); `dead` says that the block was found invalid in an earlier tile. -/
def convertBlock (d : List Word) (cells : NMap Acc) (dead : Bool) (blk : List (Nat × Nat)) (g : Gens) : QBlock :=
  let o := opO d
  let cv := (Conv.ofField (descConv d) (o.gran == 0)).getD ⟨false, false, false⟩
  let accs := blk.map fun c => mget accDefault cells (64 * c.1 + c.2)
  if dead || accs.any (·.invalid) then ⟨blk.map fun _ => 0, .invalid, { scaleInvalid := true }, g⟩
  else
    let ls : List QLane := (blk.zip accs).map fun (c, a) => ⟨a.v, a.e, c.2⟩
    if cv.choose then requantChoose o.fmt o.sfmt cv.stoch ls g
    else requantFixed o.fmt cv.auto cv.stoch (fixedScale d) ls g

/-- The blocks of a tile one after another: elements by cell, scales by entry, flags, generators. -/
def convertTile (d : List Word) (cells : NMap Acc) (dead : List Nat) :
    List (Option Nat × List (Nat × Nat)) → Gens → NMap Int × List (Nat × Scale) × Outcomes × Gens
  | [], g => ([], [], {}, g)
  | (k, blk) :: rest, g =>
    let q := convertBlock d cells (match k with | some a => dead.contains a | none => false) blk g
    let (es, ss, o, g') := convertTile d cells dead rest q.gens
    (mputs (fun _ => 0) es ((blk.zip q.elems).map fun (c, v) => (64 * c.1 + c.2, v)),
     (match k with | some a => (a, q.scale) :: ss | none => ss), o.or q.flags, g')

/-- The scale entries of an output row as a token shows them: the scale that 16 lanes share, and an invalid entry where
they do not lie in one scale block, as with scales that run down columns (R179). -/
def rowScales (d : List Word) (t i : Nat) (ss : List (Nat × Scale)) : List Word :=
  let o := opO d
  let at_ := fun (j : Nat) =>
    if o.gran = 0 then Scale.one
    else ((ss.find? fun x => x.1 == o.scaleAddr (tileRow d t + i) (tileCol d t + j)).map (·.2)).getD .invalid
  (List.range 4).map fun b =>
    let x := at_ (16 * b)
    let place := fun (j : Nat) => o.scaleAddr (tileRow d t + i) (tileCol d t + j)
    (if o.gran = 0 || (List.range 16).all fun l => place (16 * b + l) == place (16 * b) then x else Scale.invalid).entry

/-- Rows and scale entries written to the vault (R87). -/
def State.writeTile (s : State) (L : Nat) (d : List Word) (t : Nat) (es : NMap Int) (ss : List (Nat × Scale)) : State :=
  let o := opO d
  let w := o.fmt.width
  let s := s.forEach (List.range 64) fun i s =>
    s.vstore L (o.addr + (tileRow d t + i) * o.pitch + w * tileCol d t / 8)
      (packRow o.fmt ((List.range 64).map fun j => mget (fun _ => 0) es (64 * i + j))) .writeBack
  s.forEach ss fun x s => s.vstore L x.1 (leBytes o.sfmt.bytes (Scale.encode o.sfmt x.2)) .writeBack

/-- Output blocks that reach into earlier tiles and are found invalid in a later one: the elements that the earlier tiles
wrote become 0 (R84). Rows of a stream, tokens or clearing packets, that have left stay as they were sent: R84 says nothing of
them, DESIGN CHOICE, log entry 64. -/
def State.zeroEarlier (s : State) (L : Nat) (d : List Word) (t : Nat) (dead : List Nat) : State :=
  if dead.isEmpty then s
  else
    let o := opO d
    let w := o.fmt.width
    s.forEach (List.range t) fun e s => s.forEach (List.range 64) fun i s =>
      let gone := fun (j : Nat) => dead.contains (o.scaleAddr (tileRow d e + i) (tileCol d e + j))
      if (List.range 64).any gone then
        let a := o.addr + (tileRow d e + i) * o.pitch + w * tileCol d e / 8
        let row := unpackRow o.fmt (s.peek L a (rowBytes w 64)) 64
        s.vstore L a (packRow o.fmt ((List.range 64).map fun j => if gone j then 0 else row.getD j 0)) .writeBack
      else s

/-- Lanes of an output row, extended to 32 bits (R179). -/
def rowLanes (es : NMap Int) (i : Nat) : List Word :=
  (List.range 64).map fun j => BitVec.ofInt 32 (mget (fun _ => 0) es (64 * i + j))

/-- Rows of a stream destination leave while credits last: those left over (R87). -/
def State.sendRows (s : State) (L q : Nat) : List (Nat × List Word × List Word × Bool) →
    List (Nat × List Word × List Word × Bool) × State
  | [] => ([], s)
  | (i, lanes, scales, poison) :: rest =>
    match s.ep L q with
    | some e =>
      if e.credits = 0 then ((i, lanes, scales, poison) :: rest, s)
      else (s.sendToken L q 6 0 e (BitVec.allOnes 64) scales lanes poison).sendRows L q rest
    | none => ([], s)

/-- The SFMT and SCALE of a matrix core contribution (R163). -/
def clearScale (d : List Word) (ss : List (Nat × Scale)) : Bool × Nat :=
  let o := opO d
  if o.gran = 0 then (false, 0x7F)
  else (o.sfmt == .SM16, Scale.encode o.sfmt ((ss.head?.map (·.2)).getD .invalid))

def State.setOutbox (s : State) (L i : Nat) (a : AccSet) (o : List (Nat × List Word × List Word × Bool)) : State :=
  s.updMatrix L fun m => { m with sets := m.sets.set i (some { a with outbox := some o }) }

/-- The write-back of a set has taken its last row: the set is free, for any cluster of the site (R464). -/
def State.freeSet (s : State) (L i : Nat) (a : AccSet) : State :=
  let s := (s.updMatrix L fun m => { m with
    sets := m.sets.set i none,
    jobs := m.jobs.map fun x => if x.serial = a.job then { x with written := x.written + 1 } else x }).enterWaiting L
  s.forEach (s.partners L) fun M s => s.enterWaiting M

/-- A set of the site holds an earlier tile that leaves by the same lane, vault or stream (R90): a lane takes tiles in the
order in which the array produced them, DEDUCED, log entry 13. -/
def State.behindInLane (s : State) (L : Nat) (a : AccSet) (dest : Nat) : Bool :=
  (L :: s.partners L).any fun M =>
    let m := (s.cl M).matrix
    m.held.any fun b => decide (b.order < a.order)
      && (m.jobs.any fun j => j.serial == b.job && (descDest j.desc == 0) == (dest == 0))

/-- Write-back of a finished tile (R85 to R87): the first time its cells are converted; a vault or clearing destination
takes all its rows, a queue as many as it has credits for. `residue`: the residue check of a C addition, or of a shift
that aligns a block (R86), fails, first at that row and column (R88, R97); the spec names no pass or K-block of such work,
and the model records 0 for both, DESIGN CHOICE, log entry 64. -/
def State.writeBack (s : State) (L i : Nat) (residue : Option (Nat × Nat)) : State :=
  match (s.cl L).matrix.sets.getD i none with
  | none => s
  | some a =>
    match (s.cl L).matrix.jobs.find? fun j => j.serial == a.job with
    | none => s
    | some j =>
      let d := j.desc
      let q := dfield d 13 31 16
      if !a.full || !s.reachable L || s.behindInLane L a (descDest d) then s
      else
        match a.outbox with
        | some rows =>
          let (left, s) := s.sendRows L q rows
          if left.isEmpty then s.freeSet L i a else s.setOutbox L i a left
        | none =>
          let t := a.tile
          let (bad, s) := if descCin d then s.readRanges L .writeBack ((opC d).ranges (tileRow d t) 64 (tileCol d t) 64)
            else ([], s)
          let (cells, fl) := if descCin d then s.addC L d bad t a.cells else (a.cells, 0)
          let (es, ss, o, g) := convertTile d cells j.invalid (tileBlocks d t) (s.cl L).matrix.gen
          let dead := (ss.filter fun x => x.2 == .invalid).map (·.1)
          let s := s.updMatrix L fun m => ({ m with gen := g }).setJob
            { j with flags := j.flags ||| fl ||| o.bits, invalid := j.invalid ++ dead }
          let s := match residue with
            | some (row, col) =>
              if descCin d || (descConv d).testBit 1 then s.auditMismatch L { j with pass := 0, kblock := 0 } 3 row col false
              else s
            | none => s
          let poisoned := fun (r : Nat) => a.poison.contains r
            || ((opC d).ranges (tileRow d t + r) 1 (tileCol d t) 64).any fun e => (groupsOf e.1 e.2).any (bad.contains ·)
          match descDest d with
          | 0 => ((s.zeroEarlier L d t (dead.filter fun k => !j.invalid.contains k)).writeTile L d t es ss).freeSet L i a
          | 1 =>
            let rows := (List.range 64).map fun r => (r, rowLanes es r, rowScales d t r ss, poisoned r)
            let (left, s) := s.sendRows L q rows
            if left.isEmpty then s.freeSet L i a else s.setOutbox L i a left
          | _ =>
            let (sm, sc) := clearScale d ss
            (s.forEach (List.range 64) fun r s => s.sendClear L q (64 * t + r) 6 sm sc (rowLanes es r) (poisoned r)).freeSet L i a

def execAccumulatorSetFree (cluster : Nat) (freed : FreedSet) (s : State) : Host.Outcome State Fault Refusal :=
  onUnit (okCluster cluster && freed.ok) (s.writeBack cluster freed.set freed.residueError)

/-! ### Completion -/

/-- The status of a descriptor that has executed (R101). -/
def Job.status (j : Job) : Nat := if j.mismatch then 0x11 else if j.flags.testBit 21 then 0x10 else 0x00

/-- The outcome counters of a completed descriptor, each once (MXC_CONV_COUNT, MXC_ACC_COUNT). -/
def State.countOutcomes (s : State) (L flags : Nat) : State :=
  let s := if flags.testBit 16 then s.finc MXC_CONV_COUNT.SATURATED L else s
  let s := if flags.testBit 17 then s.finc MXC_CONV_COUNT.RESCALED L else s
  let s := if flags.testBit 18 then s.finc MXC_ACC_COUNT.CLAMPED L else s
  let s := if flags.testBit 19 then s.finc MXC_ACC_COUNT.ACC_RESCALED L else s
  let s := if flags.testBit 20 then s.finc MXC_ACC_COUNT.ACC_SATURATED L else s
  if flags.testBit 21 then s.finc MXC_ACC_COUNT.INVALID L else s

/-- The first of a tag removed from a list. -/
def dropTag (tag : Nat) : List Nat → List Nat
  | [] => []
  | x :: t => if x = tag then t else x :: dropTag tag t

/-- A descriptor whose last row is out and whose audits are known writes its completion entry (R94, R100); the cycles
it lost are a free value (MXC_STALL). -/
def State.descriptorComplete (s : State) (L i : Nat) : State :=
  match (s.cl L).matrix.jobs[i]? with
  | none => s
  | some j =>
    if j.arrayDone && decide (j.written = descTiles j.desc) then
      let tag := descTag j.desc
      let s := s.updMatrix L fun m => { m with
        jobs := m.jobs.eraseIdx i, reserved := dropTag tag m.reserved,
        done := m.done ++ [completion tag j.status j.flags] }
      let s := s.countOutcomes L j.flags
      let s := if j.flags.testBit 21 then s.report sevWarning blkMXC 0x10 L (s.owner L) [BitVec.ofNat 32 tag] else s
      let (k, s) := s.take
      (s.fadd MXC_STALL.CYCLES L (Config.cycles k).toNat).progress L
    else s

def execDescriptorComplete (cluster index : Nat) (s : State) : Host.Outcome State Fault Refusal :=
  onUnit (okCluster cluster) (s.descriptorComplete cluster index)

/-- The head completion entry is released (R89). -/
def State.popCompletion (s : State) (L : Nat) : State :=
  if (s.cl L).matrix.done.isEmpty then s
  else (s.updMatrix L fun m => { m with done := m.done.drop 1 }).progress L

def execMxcCompletionPop (cluster : Nat) (s : State) : Host.Outcome State Fault Refusal :=
  onUnit (okCluster cluster) (s.writeCl .MXC_COMPLETION_POP cluster 1 fun s => s.popCompletion cluster)

/-! ### Audit registers -/

def execMxcAuditInject (cluster : Nat) (s : State) : Host.Outcome State Fault Refusal :=
  onUnit (okCluster cluster) (s.writeCl .MXC_AUDIT_INJECT cluster 1 fun s => s.fset MXC_AUDIT_INJECT.ARM cluster 1)

def execMxcAuditTallyRead (cluster : Nat) (s : State) : Host.Outcome State Fault Refusal :=
  onUnit (okCluster cluster) (s.updCl cluster fun c => { c with auditHold := true })

/-- The hold of the audit registers ends: both take the latest mismatch detected during it. -/
def State.endHold (s : State) (L : Nat) : State :=
  let p := (s.cl L).auditPending
  let s := s.updCl L fun c => { c with auditHold := false, auditPending := none }
  match p with
  | some (w, t) => (s.rset .MXC_AUDIT_LAST L w).rset .MXC_AUDIT_TALLY L t
  | none => s

def execMxcAuditLastRead (cluster : Nat) (s : State) : Host.Outcome State Fault Refusal :=
  onUnit (okCluster cluster) (s.endHold cluster)

def execAuditHoldExpire (cluster : Nat) (s : State) : Host.Outcome State Fault Refusal :=
  onUnit (okCluster cluster) (s.endHold cluster)

end Sys2Proof.Machine
end

