-- ==== Sys2Proof/Machine/Cores.lean ====
section
/-! DEFINITION. A core's registers and the issue of one instruction: fetch, decode, faults, blocking, completion
(05_teller_and_vector_cores.md, R102 to R110, R125 to R127). -/
namespace Sys2Proof.Machine

open Sys2Proof

/-- Core `n` of a cluster. -/
def State.core (s : State) (L n : Nat) : Core := (s.cl L).cores.toArray.getD n Core.init

def State.setCore (s : State) (L n : Nat) (c : Core) : State :=
  s.updCl L fun k => { k with cores := k.cores.setIfInBounds n c }

def State.updCore (s : State) (L n : Nat) (f : Core → Core) : State := s.setCore L n (f (s.core L n))

/-! ### Registers -/

/-- gi; g0 reads 0 (R102). -/
def Core.gr (c : Core) (i : Nat) : Word := if i = 0 then 0 else c.g.toArray.getD i 0

/-- Write gi; a write to g0 is ignored (R102). -/
def Core.setG (c : Core) (i : Nat) (w : Word) : Core := if i = 0 then c else { c with g := c.g.setIfInBounds i w }

/-- ki; k0 reads as all ones (R103). -/
def Core.kr (c : Core) (i : Nat) : DWord := if i = 0 then BitVec.allOnes 64 else c.k.toArray.getD i 0

/-- Write ki, one bit wide on a teller; a write to k0 is ignored (R102, R103). -/
def Core.setK (c : Core) (teller : Bool) (i : Nat) (w : DWord) : Core :=
  if i = 0 then c else { c with k := c.k.setIfInBounds i (if teller then w &&& 1 else w) }

/-- Lane `i` of a predicate. -/
def lane (k : DWord) (i : Nat) : Bool := k.getLsbD i

def Core.vr (c : Core) (i : Nat) : Vector Word 64 := c.v.toArray.getD i (Vector.replicate 64 0)

def Core.setV (c : Core) (i : Nat) (x : Vector Word 64) : Core := { c with v := c.v.setIfInBounds i x }

/-- Lane `l` of vi. -/
def Core.vl (c : Core) (i l : Nat) : Word := (c.vr i).toArray.getD l 0

/-- Write the lanes that `f` gives a value for; the others stay (R110). -/
def Core.setLanes (c : Core) (i : Nat) (f : Nat → Option Word) : Core :=
  c.setV i (Vector.ofFn fun l : Fin 64 => (f l.val).getD (c.vl i l.val))

def Core.sr (c : Core) (i : Nat) : Vector Word 4 := c.sc.toArray.getD i (Vector.replicate 4 0)

def Core.setS (c : Core) (i : Nat) (x : Vector Word 4) : Core := { c with sc := c.sc.setIfInBounds i x }

/-- Entry `b` of si as a scale (R119). -/
def Core.entry (c : Core) (i b : Nat) : Scale := Scale.ofEntry ((c.sr i).toArray.getD b 0)

/-- A scale register of four scales. -/
def scaleReg (f : Nat → Scale) : Vector Word 4 := Vector.ofFn fun b : Fin 4 => (f b.val).entry

/-- Whether an instruction's scalar predicate is true: bit 0 of kKP (R110). -/
def Core.on (c : Core) (kp : Nat) : Bool := lane (c.kr kp) 0

/-- Step a generator (R56). -/
def Core.stepGen (c : Core) (l : Nat) : Core :=
  { c with gen := c.gen.setIfInBounds l (nextGen (c.gen.toArray.getD l 1)) }

/-! ### Progress, completion, faults, blocking -/

/-- Program counters are taken modulo 2^32. -/
def pcAdd (pc : Nat) (off : Int) : Nat := (((pc : Int) + off) % (2 ^ 32 : Nat)).toNat

/-- The core goes on to its next instruction. -/
def Core.advance (c : Core) : Core := { c with pc := pcAdd c.pc 1, run := .running, wait := none }

/-- Words of an instruction memory: 16,384 of a teller, 8,192 of a vector core (R102). -/
def imemWords (n : Nat) : Nat := if n = 0 then 16384 else 8192

/-- The value of TLR_FAULT for a fault (R126). -/
def faultWord (code n pc : Nat) : Nat := code * 2 ^ 24 + n * 2 ^ 22 + pc % 2 ^ 14

/-- A running part of a stopped cluster's core. -/
def Core.stopped (c : Core) : Core :=
  match c.run with
  | .running | .blocked | .wft => { c with run := .idle, wait := none }
  | _ => c

/-- A core faults and the cluster's other cores stop (R126). -/
def State.stopCores (s : State) (L n code : Nat) : State :=
  let s := s.rset .TLR_FAULT L (BitVec.ofNat 64 (faultWord code n (s.core L n).pc))
  s.updCl L fun k => { k with
    cores := (k.cores.map Core.stopped).setIfInBounds n
      { (k.cores.toArray.getD n Core.init) with run := .faulted, wait := none } }

/-- A programming fault (R126). -/
def State.coreFault (s : State) (L n code : Nat) : State :=
  let d := BitVec.ofNat 32 (faultWord code n (s.core L n).pc)
  ((s.stopCores L n code).report sevError blkTLR code L (s.owner L) [d]).markClusterFault L 0x03

/-- A hardware fault of a core: RESIDUE, IMEM or LUT (R126). After the last two the memories of the cluster are loaded again
before the rerun. -/
def State.coreHwFault (s : State) (L n : Nat) (k : HwKind) (code : Nat) (injected : Bool) : State :=
  let d := BitVec.ofNat 32 (faultWord code n (s.core L n).pc)
  let s := if k = .residue then s else s.updCl L fun k => { k with reload := true }
  (s.stopCores L n code).hwFault L k blkTLR code injected (d :: s.siteDetail L)

/-- The core blocks at its instruction (R377). -/
def State.block (s : State) (L n : Nat) (w : Wait) : State :=
  s.updCore L n fun c => { c with run := .blocked, wait := some w }

/-- A try form that finds its resource absent: WOULD_BLOCK to the status register, and the core counts as blocked on
it until its cluster makes progress (R117, R377). -/
def State.wouldBlock (s : State) (L n d : Nat) (w : Wait) : State :=
  let p := (s.cl L).progress
  s.updCore L n fun c => { ((c.setG d 1).advance) with tryWait := some (w, p) }

/-- The core's registers change and it goes on. -/
def State.retire (s : State) (L n : Nat) (f : Core → Core) : State := s.updCore L n fun c => (f c).advance

/-- Outcome flags of an instruction: sticky flags, and the VEC counters once per instruction (R67, R121). -/
def State.outcomes (s : State) (L n : Nat) (o : Outcomes) : State :=
  let i := L * 2 + (n - 1)
  let s := s.updCore L n fun c => { c with sticky := c.sticky ||| o.bits }
  let s := if o.saturated then s.finc VEC_CONV_COUNT.SATURATED i else s
  let s := if o.rescaled then s.finc VEC_CONV_COUNT.RESCALED i else s
  let s := if o.clamped then s.finc VEC_SCALE_COUNT.CLAMPED i else s
  if o.scaleInvalid then s.finc VEC_SCALE_COUNT.INVALID i else s

/-! ### Issue -/

/-- The core is one that issues: its cluster is reached and runs its segment, it is running, and on a doubled site it
is its cluster's turn (R104, R107). -/
def State.issues (s : State) (L n : Nat) : Bool :=
  s.reachable L && (s.cl L).inSegment && (s.core L n).run == .running
    && (match (s.cl L).site with
        | some t => (s.site t).holds.length ≤ 1 || (s.site t).holds[(s.site t).turn]? == some L
        | none => false)

/-- An instruction of a class that the core does not have (R102). -/
def CoreClass.lacks (k : CoreClass) (n : Nat) : Bool :=
  match k with
  | .all => false
  | .vector => n == 0
  | .teller => n != 0

/-- HALT is of the vector cores (R109). -/
def Insn.wrongCore (i : Insn) (n : Nat) : Bool :=
  i.cls.lacks n || (n == 0 && i == .halt)

/-- What an upset does before an instruction is decoded: a bad word in an instruction memory (R126), or a bad vault
group, of the cluster's vault or of a site without a cluster (R140, R459). Answers whether the word could be read. -/
def State.applyUpset (s : State) (who : Issue) : Bool × State :=
  match who.upset with
  | .imemCorrected =>
    if who.core = 0 then
      let s := s.finc TLR_IMEM_ECC.CORRECTED who.cluster
      (true, match (s.cl who.cluster).site with
        | some n => s.noteRow (imemArray n) ((s.core who.cluster 0).pc / 2)
        | none => s)
    else (false, s)
  | .imemUncorrectable =>
    (false, if who.core = 0 then s.finc TLR_IMEM_ECC.UNCORRECTABLE who.cluster else s)
  | .parity a => (true, s.updCl who.cluster fun c => { c with bad := mput (fun _ => false) c.bad (a / 8) true })
  | .spareParity n a => (true, if (s.site n).holds.isEmpty then
      s.updSite n fun x => { x with bad := mput (fun _ => false) x.bad (a / 8) true } else s)
  | _ => (true, s)

/-- A core issues its next instruction (R102, R109, R126). `run` gives the instructions that the row is about their
effect and answers none for any other, in which case the event does not happen. -/
def State.issue (s : State) (who : Issue) (run : Insn → Option (State → State)) : State :=
  let L := who.cluster
  let n := who.core
  if s.issues L n then
    let pc := (s.core L n).pc
    if pc ≥ imemWords n then s.coreFault L n 0x23
    else
      match s.applyUpset who with
      | (false, s') => s'.coreHwFault L n .imem 0x31 false
      | (true, s') =>
        match decodeInsn (mget (fun _ => 0) (s.core L n).imem pc) with
        | none => s'.coreFault L n 0x20
        | some i =>
          if i.wrongCore n then s'.coreFault L n 0x20
          else
            match run i with
            | some f => f s'
            | none => s
  else s

/-- A scalar instruction predicated on kKP: a no-op where the predicate is false (R110). -/
def State.scalar (s : State) (L n kp : Nat) (f : State → State) : State :=
  if (s.core L n).on kp then f s else s.retire L n id

/-- The residue check of an instruction whose performed lanes are `mask` (R125, R127): an upset of a performed lane,
else an armed injection on lane 0. Answers whether it found a mismatch, and whether that was injected. -/
def State.residueHit (s : State) (L n : Nat) (mask : DWord) (u : Upset) : Option Bool :=
  match u with
  | .residue l => if lane mask l then some false else
      if lane mask 0 && s.fon VEC_RESIDUE_INJECT.ARM (L * 2 + (n - 1)) then some true else none
  | _ => if lane mask 0 && s.fon VEC_RESIDUE_INJECT.ARM (L * 2 + (n - 1)) then some true else none

/-- A residue mismatch (R125 to R127). -/
def State.residueFault (s : State) (L n : Nat) (injected : Bool) : State :=
  let i := L * 2 + (n - 1)
  let s := s.finc VEC_RESIDUE.TOTAL i
  let s := if injected then (s.finc VEC_RESIDUE.INJECTED i).fset VEC_RESIDUE_INJECT.ARM i 0 else s
  s.coreHwFault L n .residue 0x30 injected

/-- A residue-checked instruction: its effect, or the fault of a mismatch. -/
def State.checked (s : State) (L n : Nat) (mask : DWord) (u : Upset) (f : State → State) : State :=
  match s.residueHit L n mask u with
  | some injected => s.residueFault L n injected
  | none => f s

end Sys2Proof.Machine
end

