-- ==== Sys2Proof/Machine/Messages.lean ====
section
/-! DEFINITION. Messages, mailboxes and rings (11_messages_and_dma.md, R248 to R259). -/
namespace Sys2Proof.Machine

open Sys2Proof

/-! ### The message head -/

/-- Bits [hi:lo] of word `w` of a message (R249). -/
def mfield (m : List Byte) (w hi lo : Nat) : Nat := bitsOf (leNat ((m.drop (4 * w)).take 4)) hi lo

def msgBytes (m : List Byte) : Nat := 32 * (mfield m 0 2 0 + 1)
def msgMailbox (m : List Byte) : Bool := mfield m 0 3 3 == 1
def msgEpoch (m : List Byte) : Nat := mfield m 0 15 8
def msgDest (m : List Byte) : Nat := mfield m 1 15 0
def msgAddr (m : List Byte) : Nat := mfield m 2 23 0

/-- A field that the sender leaves 0: SKIP, VALID, SOURCE, the reserved ones, and those its KIND does not use (R249). -/
def msgReserved (m : List Byte) : Bool :=
  mfield m 0 7 4 != 0 || mfield m 0 31 16 != 0 || mfield m 1 31 16 != 0 || mfield m 2 31 24 != 0
    || mfield m 3 31 0 != 0
    || (if msgMailbox m then mfield m 1 15 9 != 0 || msgEpoch m != 0 else msgAddr m != 0)

/-- A ring of a context's image (R208). -/
def State.ringRec (s : State) (c ring : Nat) : Option RingRec :=
  (s.image c).bind fun im => im.rings.find? fun r => r.ring == ring

/-- The code of MSG_LAST with which the sender's message unit refuses a message at address `a` (R250). -/
def State.msgRefusal (s : State) (c a : Nat) (m : List Byte) : Option Nat :=
  if a % 32 ≠ 0 ∨ a + 32 > Config.vaultBytes then some 0x02
  else if msgReserved m then some 0x01
  else if a + msgBytes m > Config.vaultBytes ∨ (msgMailbox m ∧ msgAddr m % 32 ≠ 0) then some 0x02
  else if msgMailbox m then
    if (s.clustersOf c).contains (msgDest m) then none else some 0x05
  else
    match s.ringRec c (msgDest m) with
    | none => some 0x03
    | some r => if msgBytes m > r.maxMsg then some 0x04 else none

/-! ### The ring header and allocation -/

/-- The message unit reads the header of a ring, with its parity checked (R140): what it reads of it, `hdr` gives. -/
def State.readHdr (s : State) (L base : Nat) : State := (s.checkParity L base 32 .message).2

/-- A word of a ring's header (R253). -/
def State.hdr (s : State) (L base off : Nat) : Nat := leNat (s.vbytes L (base + off) 4)

def State.setHdr (s : State) (L base off v : Nat) : State := s.vmerge L (base + off) (leBytes 4 (v % 2 ^ 32)) .message

def ringPubTail : Nat := 0x00
def ringRead : Nat := 0x04
def ringCmtTail : Nat := 0x08
def ringCmtHead : Nat := 0x0C
def ringEpoch : Nat := 0x10
def ringClose : Nat := 0x14
def ringClosedCmt : Nat := 0x18
def ringDropped : Nat := 0x1C

/-- The linear value of a position in a ring of D bytes, and the position of a linear value (R253). -/
def linear (D p : Nat) : Nat := bitsOf p 24 24 * D + bitsOf p 23 0
def position (D l : Nat) : Nat := let l := l % (2 * D); (l / D) * 2 ^ 24 + l % D

/-- Bytes of the data area that are free for senders: measured against the committed head (R254). -/
def State.ringFree (s : State) (L base D : Nat) : Nat :=
  let pub := linear D (s.hdr L base ringPubTail)
  let head := linear D (s.hdr L base ringCmtHead)
  D - (pub + 2 * D - head) % (2 * D)

/-- A write of the message unit, checked under R134. -/
def State.msgWrite (s : State) (L a : Nat) (b : List Byte) : State := s.vstore L a b .message

/-- A message at its place: words 1 onward with SOURCE, then word 0 with VALID (R251). -/
def State.placeMsg (s : State) (L a : Nat) (m : List Byte) (source : Nat) : State :=
  let n := msgBytes m
  let w3 := leBytes 4 (source % 2 ^ 9)
  let s := s.msgWrite L (a + 4) (((m.take n).drop 4).take 8 ++ w3 ++ (m.take n).drop 16)
  s.msgWrite L a (leBytes 4 (leNat (m.take 4) % 2 ^ 31 + 2 ^ 31))

/-- The head of a skip record: UNITS 0, SKIP 1, VALID 1 (R254). -/
def skipRecord : List Byte := leBytes 4 (2 ^ 31 + 2 ^ 4) ++ List.replicate 28 0

/-- A message allocated in a ring and written (R254): none where the ring has no space. -/
def State.allocate (s : State) (L base D : Nat) (m : List Byte) (source : Nat) : Option State :=
  let n := msgBytes m
  let free := s.ringFree L base D
  let pub := linear D (s.hdr L base ringPubTail) % (2 * D)
  let off := pub % D
  let room := D - off
  if n ≤ room ∧ n ≤ free then
    some ((s.placeMsg L (base + 64 + off) m source).setHdr L base ringPubTail (position D (pub + n)))
  else if n > room ∧ room + n ≤ free then
    let s := s.msgWrite L (base + 64 + off) skipRecord
    some ((s.placeMsg L (base + 64) m source).setHdr L base ringPubTail (position D (pub + room + n)))
  else none

/-- Issue status codes of R117. -/
def stDone := 0
def stWouldBlock := 1
def stClosed := 2
def stStale := 3
def stRefused := 4

/-- A message presented at a ring: CLOSED, STALE and space are checked in this order (R257). The status and the ring's
epoch, and the state. -/
def State.present (s : State) (L region : Nat) (m : List Byte) (source : Nat) : Nat × Nat × State :=
  let r := s.region L region
  let base := r.base
  let D := r.length - 64
  let s := s.readHdr L base
  let epoch := bitsOf (s.hdr L base ringEpoch) 7 0
  let dropped := fun (s : State) => s.setHdr L base ringDropped (s.hdr L base ringDropped + 1)
  if s.hdr L base ringClose ≠ 0 then (stClosed, epoch, dropped s)
  else if msgEpoch m ≠ epoch then (stStale, epoch, dropped s)
  else
    match s.allocate L base D m source with
    | some s' => (stDone, epoch, s')
    | none => (stWouldBlock, epoch, s)

/-! ### Sending and answering -/

def State.sendOf (s : State) (L n : Nat) : Option Send := (s.cl L).sends.toArray.getD n none

def State.setSend (s : State) (L n : Nat) (x : Option Send) : State :=
  s.updCl L fun c => { c with sends := c.sends.setIfInBounds n x }

/-- A message that is refused at its sender (R250): status REFUSED, 0 to gB. -/
def State.refuseSend (s : State) (L n d b code : Nat) (m : List Byte) : State :=
  let s := s.finc MSG_COUNT.REFUSED L
  let s := ((s.fset MSG_LAST.DEST L (msgDest m)).fset MSG_LAST.STATUS L stRefused).fset MSG_LAST.CODE L code
  s.retire L n fun c => (c.setG d (BitVec.ofNat 32 stRefused)).setG b 0

/-- A message of core `n` leaves for the message unit of the cluster that receives it; the core waits for the answer. -/
def State.injectMsg (s : State) (L n c : Nat) (m : List Byte) : State :=
  let dst := if msgMailbox m then msgDest m else ((s.ringRec c (msgDest m)).map (·.cluster)).getD L
  s.inject (packet .MSG (.cluster dst 1) (.cluster L (3 + n)) c 0 ((msgBytes m + 31) / 128) n (.bytes m))

/-- MSEND and MSENDT (R117, R250): the message at the address in gA is checked and sent. -/
def State.send (s : State) (L n d a b : Nat) (try_ : Bool) : State :=
  match s.owner L with
  | none => s
  | some c =>
    let x := ((s.core L n).gr a).toNat
    if x % 32 ≠ 0 ∨ x + 32 > Config.vaultBytes then s.refuseSend L n d b 0x02 (s.vbytes L x 32)
    else
      let (head, _, s) := s.vload L x 32 .message
      match s.msgRefusal c x head with
      | some code => s.refuseSend L n d b code head
      | none =>
        let (m, _, s) := s.vload L x (msgBytes head) .message
        let s := s.setSend L n (some { d := d, b := b, try_ := try_, msg := m, held := false, heldAt := 0, answer := none })
        (s.injectMsg L n c m).block L n .answer

/-- The answer to a send starts on its way back to the sender (R251, R257). -/
def State.answer (s : State) (L n status epoch : Nat) : State :=
  match s.sendOf L n with
  | some x => s.setSend L n (some { x with answer := some (status, epoch) })
  | none => s

/-- What of a ring's header a held message waits to advance: CMT_HEAD (R254). -/
def State.ringMark (s : State) (L region : Nat) : Nat := s.hdr L (s.region L region).base ringCmtHead

/-- Message `m` of core `n` of `L` reaches the receiving message unit (R251 to R254): a mailbox is written whole and answered DONE; a ring
allocates, or, out of space, answers WOULD_BLOCK to a try form and has the sender hold a blocking one. -/
def State.takeMsg (s : State) (i : Nat) (p : Packet) (R L n : Nat) (m : List Byte) : State :=
  let s := s.dropPacket i
  if (s.refusal p).isSome then s.dropPosted p
  else if msgMailbox m then (s.placeMsg R (msgAddr m) m L).answer L n stDone 0
  else
    match s.ringRec p.cx (msgDest m) with
    | none => s
    | some r =>
      let (status, epoch, s') := s.present R r.region m L
      if status = stWouldBlock ∧ ((s.sendOf L n).map (·.try_)) = some false then
        match s'.sendOf L n with
        | some x => s'.setSend L n (some { x with held := true, heldAt := s'.ringMark R r.region })
        | none => s'
      else s'.answer L n status epoch

/-- MESSAGE_RECEIVE: a MSG packet has reached its cluster. -/
def State.receiveMsg (s : State) (i : Nat) : State :=
  match s.mesh.packets[i]? with
  | none => s
  | some p =>
    if !s.landed p then s
    else
      match p.type, p.dst, p.src, p.payload with
      | .MSG, .cluster R _, .cluster L u, .bytes m => s.takeMsg i p R L (u - 3) m
      | _, _, _, _ => s

def execMessageReceive (index : Nat) (s : State) : Host.Outcome State Fault Refusal :=
  onUnit true (s.receiveMsg index)

/-- What the sender's registers count of an answer (MSG_SENT, MSG_COUNT, MSG_LAST). -/
def State.countAnswer (s : State) (L status : Nat) (m : List Byte) : State :=
  if status = stDone then (s.finc MSG_SENT.COUNT L).progress L
  else
    let s := if status = stClosed then s.finc MSG_COUNT.CLOSED L
      else if status = stStale then s.finc MSG_COUNT.STALE L else s
    ((s.fset MSG_LAST.DEST L (msgDest m)).fset MSG_LAST.STATUS L status).fset MSG_LAST.CODE L 0

/-- The cluster that holds the ring, or the mailbox, which a message names. -/
def State.msgHolder (s : State) (L : Nat) (m : List Byte) : Option Nat :=
  if msgMailbox m then some (msgDest m)
  else (s.owner L).bind fun c => (s.ringRec c (msgDest m)).map (·.cluster)

/-- What a core waits on after an answer to a try form: with WOULD_BLOCK, the cluster that holds the ring (R377). -/
def State.refusedBy (s : State) (L : Nat) (m : List Byte) : Wait :=
  match s.msgHolder L m with
  | some R => .ring R
  | none => .answer

/-- The answer reaches the sender: status to gD, epoch to gB, and the core that waits for it goes on (R257, R259). A core
that was stopped meanwhile stays stopped (R126). -/
def State.takeAnswer (s : State) (L n : Nat) : State :=
  match s.sendOf L n with
  | none => s
  | some x =>
    match x.answer with
    | none => s
    | some (status, epoch) =>
      let p := (s.cl L).progress
      let s := (s.setSend L n none).countAnswer L status x.msg
      if (s.core L n).wait ≠ some .answer then s
      else s.updCore L n fun c =>
        { ((c.setG x.d (BitVec.ofNat 32 status)).setG x.b (BitVec.ofNat 32 epoch)).advance with
          tryWait := if status = stWouldBlock then some (s.refusedBy L x.msg, p) else c.tryWait }

def execMessageAnswer (cluster core : Nat) (s : State) : Host.Outcome State Fault Refusal :=
  onUnit (okCluster cluster && okCore core) (s.takeAnswer cluster core)

/-- A held message is presented again once CMT_HEAD has advanced (R254), or the ring was emptied (R258). -/
def State.retryMsg (s : State) (L n : Nat) : State :=
  match s.sendOf L n, s.owner L with
  | some x, some c =>
    match s.ringRec c (msgDest x.msg) with
    | some r =>
      if x.held && s.ringMark r.cluster r.region != x.heldAt then
        (s.setSend L n (some { x with held := false })).injectMsg L n c x.msg
      else s
    | none => s
  | _, _ => s

def execMessageRetry (cluster core : Nat) (s : State) : Host.Outcome State Fault Refusal :=
  onUnit (okCluster cluster && okCore core) (s.retryMsg cluster core)

/-! ### Boundaries and host commands -/

/-- READ lies between CMT_HEAD and PUB_TAIL in linear order (R255). -/
def State.readValid (s : State) (L base D : Nat) : Bool :=
  let head := linear D (s.hdr L base ringCmtHead)
  let used := fun (p : Nat) => (p + 2 * D - head) % (2 * D)
  used (linear D (s.hdr L base ringRead)) ≤ used (linear D (s.hdr L base ringPubTail))

/-- The pending state of a ring becomes its committed state (R255). -/
def State.commitRing (s : State) (L region : Nat) : State :=
  let r := s.region L region
  let base := r.base
  let s := s.readHdr L base
  let ok := s.readValid L base (r.length - 64)
  let s := s.setHdr L base ringCmtTail (s.hdr L base ringPubTail)
  let s := s.setHdr L base ringClosedCmt (s.hdr L base ringClose)
  if ok then s.setHdr L base ringCmtHead (s.hdr L base ringRead)
  else (s.finc MSG_COUNT.READ_INVALID L).report sevWarning blkMSG 6 L (s.owner L) [BitVec.ofNat 32 region]

/-- The pending state of a ring goes back to the committed one (R255). -/
def State.revertRing (s : State) (L region : Nat) : State :=
  let base := (s.region L region).base
  let s := s.readHdr L base
  let s := s.setHdr L base ringPubTail (s.hdr L base ringCmtTail)
  let s := s.setHdr L base ringRead (s.hdr L base ringCmtHead)
  s.setHdr L base ringClose (s.hdr L base ringClosedCmt)

/-- EPOCH counts on (R258). -/
def State.bumpEpoch (s : State) (L region : Nat) : State :=
  let base := (s.region L region).base
  let s := s.readHdr L base
  s.setHdr L base ringEpoch ((s.hdr L base ringEpoch + 1) % 256)

/-- Messages that are held for a ring wait for CMT_HEAD to advance from `mark`: a reset of the ring sets it to 0, which is
no advance (R254, R258). -/
def State.holdFrom (s : State) (L region mark : Nat) : State :=
  match s.owner L with
  | none => s
  | some c =>
    s.forEach (s.clustersOf c) fun k s => s.forEach (List.range 3) fun n s =>
      match s.sendOf k n with
      | some x =>
        if x.held && (s.ringRec c (msgDest x.msg)).any (fun r => r.cluster == L && r.region == region) then
          s.setSend k n (some { x with heldAt := mark })
        else s
      | none => s

/-- A RESET command, or a loss of contents: the ring is empty, every position 0, its epoch counts on (R258). -/
def State.resetRing (s : State) (L region : Nat) : State :=
  let base := (s.region L region).base
  let s := s.forEach [ringPubTail, ringRead, ringCmtTail, ringCmtHead] fun o s => s.setHdr L base o 0
  (s.bumpEpoch L region).holdFrom L region 0

/-- CLOSE and OPEN set both CLOSE and CLOSED_CMT (R256). -/
def State.closeRing (s : State) (L region v : Nat) : State :=
  let base := (s.region L region).base
  (s.setHdr L base ringClose v).setHdr L base ringClosedCmt v

/-- A host ring command, applied at step 4 of the next boundary (MSG_RING_CTRL). -/
def State.ringCommand (s : State) (c ring op : Nat) : State :=
  { s with host := { s.host with ringCmds := s.host.ringCmds ++ [(c, ring, op)] } }

/-- A ring command of step 4 takes effect. -/
def State.applyRing (s : State) (cmd : Nat × Nat × Nat) : State :=
  match s.ringRec cmd.1 cmd.2.1 with
  | none => s
  | some r =>
    match cmd.2.2 with
    | 1 => s.closeRing r.cluster r.region 1
    | 2 => s.closeRing r.cluster r.region 0
    | 3 => s.resetRing r.cluster r.region
    | _ => s

def execRingClose (cx ring : Nat) (s : State) : Host.Outcome State Fault Refusal :=
  onUnit (okCx cx && okRing ring) (s.writeTo .MSG_RING_CTRL 0 fun s => s.ringCommand cx ring 1)

def execRingOpen (cx ring : Nat) (s : State) : Host.Outcome State Fault Refusal :=
  onUnit (okCx cx && okRing ring) (s.writeTo .MSG_RING_CTRL 0 fun s => s.ringCommand cx ring 2)

def execRingReset (cx ring : Nat) (s : State) : Host.Outcome State Fault Refusal :=
  onUnit (okCx cx && okRing ring) (s.writeTo .MSG_RING_CTRL 0 fun s => s.ringCommand cx ring 3)

end Sys2Proof.Machine
end

