-- ==== Sys2Proof/Machine/Scalar.lean ====
section
/-! DEFINITION. The arithmetic of R109, and the scalar, predicate, branch and system instructions of the tally
instruction set. -/
namespace Sys2Proof.Machine

open Sys2Proof

/-- Saturation to 32 bits. -/
def sat32 (v : Int) : Word :=
  if v > 2 ^ 31 - 1 then 0x7FFFFFFF#32 else if v < -(2 ^ 31) then 0x80000000#32 else BitVec.ofInt 32 v

/-- Right shift rounded to nearest even (R54); a 32-bit value shifted by more than 33 rounds to 0. -/
def srar (a : Word) (b : Nat) : Word := BitVec.ofInt 32 (shiftRne a.toInt (min b 40 : Nat))

/-- Right shift rounded with a draw (R55); every shift beyond 60 rounds as one of 60. -/
def sras (a : Word) (b : Nat) (draw : Nat) : Word :=
  if b = 0 then a else BitVec.ofInt 32 (shiftStoch a.toInt (min b 60) draw)

/-- Leading zeros, 0 to 32. -/
def clz (a : Word) : Word := if a = 0 then 32 else BitVec.ofNat 32 (31 - Nat.log2 a.toNat)

/-- The lane result of an ALU function, all but SRAS (R109): `d` is the destination's old value. -/
def alu (fn : AluFn) (d a b : Word) : Word :=
  match fn with
  | .ADD => a + b
  | .SUB => a - b
  | .MUL => a * b
  | .MULH => BitVec.ofInt 32 ((a.toInt * b.toInt) / ((2 ^ 32 : Nat) : Int))
  | .MAD => d + a * b
  | .MULQ => sat32 (rneDiv (a.toInt * b.toInt) (2 ^ 30))
  | .AND => a &&& b
  | .OR => a ||| b
  | .XOR => a ^^^ b
  | .SHL => if b.toNat ≥ 32 then 0 else a <<< b.toNat
  | .SHR => if b.toNat ≥ 32 then 0 else a >>> b.toNat
  | .SRA => a.sshiftRight (min b.toNat 31)
  | .SRAR => srar a b.toNat
  | .SRAS => sras a b.toNat 0
  | .MIN => if a.toInt ≤ b.toInt then a else b
  | .MAX => if a.toInt ≥ b.toInt then a else b
  | .ADDS => sat32 (a.toInt + b.toInt)
  | .SUBS => sat32 (a.toInt - b.toInt)
  | .ABS => sat32 a.toInt.natAbs
  | .CLZ => clz a
  | .BCAST => b
  | .MINU => if a.toNat ≤ b.toNat then a else b
  | .MAXU => if a.toNat ≥ b.toNat then a else b
  | .RSUB => b - a

/-- A comparison (R109). -/
def compare (fn : CmpFn) (a b : Word) : Bool :=
  match fn with
  | .EQ => a == b
  | .NE => a != b
  | .LT => decide (a.toInt < b.toInt)
  | .LE => decide (a.toInt ≤ b.toInt)
  | .LTU => decide (a.toNat < b.toNat)
  | .LEU => decide (a.toNat ≤ b.toNat)

/-- All lanes of a predicate alike. -/
def allLanes (b : Bool) : DWord := if b then BitVec.allOnes 64 else 0

/-- The predicate with lane `i` as `f i` says. -/
def lanesOf (f : Nat → Bool) : DWord :=
  BitVec.ofNat 64 (((List.range 64).map fun i => if f i then 2 ^ i else 0).sum)

/-- Set lanes of a predicate; a teller's has one. -/
def countLanes (teller : Bool) (k : DWord) : Nat :=
  if teller then (lane k 0).toNat else (List.range 64).countP fun i => lane k i

/-- gD takes a value: an instruction of format I, or the scalar ALU. -/
def State.writesG (s : State) (L n d : Nat) (f : Core → Word) : State := s.retire L n fun c => c.setG d (f c)

/-- The effect of an instruction in the place of its issue, on the units that exist. -/
def coreRow (who : Issue) (s : State) (run : Insn → Option (State → State)) : Host.Outcome State Fault Refusal :=
  onUnit who.ok (s.issue who run)

def execAlu (who : Issue) (s : State) : Host.Outcome State Fault Refusal :=
  coreRow who s fun
    | .alu fn d a b kp => some fun s => s.scalar who.cluster who.core kp fun s =>
        s.writesG who.cluster who.core d fun c => alu fn 0 (c.gr a) (c.gr b)
    | _ => none

def execAddi (who : Issue) (s : State) : Host.Outcome State Fault Refusal :=
  coreRow who s fun
    | .addi d a imm => some fun s => s.writesG who.cluster who.core d fun c => c.gr a + imm
    | _ => none

def execAndi (who : Issue) (s : State) : Host.Outcome State Fault Refusal :=
  coreRow who s fun
    | .andi d a imm => some fun s => s.writesG who.cluster who.core d fun c => c.gr a &&& imm
    | _ => none

def execOri (who : Issue) (s : State) : Host.Outcome State Fault Refusal :=
  coreRow who s fun
    | .ori d a imm => some fun s => s.writesG who.cluster who.core d fun c => c.gr a ||| imm
    | _ => none

def execXori (who : Issue) (s : State) : Host.Outcome State Fault Refusal :=
  coreRow who s fun
    | .xori d a imm => some fun s => s.writesG who.cluster who.core d fun c => c.gr a ^^^ imm
    | _ => none

def execLui (who : Issue) (s : State) : Host.Outcome State Fault Refusal :=
  coreRow who s fun
    | .lui d imm => some fun s => s.writesG who.cluster who.core d fun _ => imm
    | _ => none

def execShli (who : Issue) (s : State) : Host.Outcome State Fault Refusal :=
  coreRow who s fun
    | .shli d a sh => some fun s => s.writesG who.cluster who.core d fun c => c.gr a <<< sh
    | _ => none

def execShri (who : Issue) (s : State) : Host.Outcome State Fault Refusal :=
  coreRow who s fun
    | .shri d a sh => some fun s => s.writesG who.cluster who.core d fun c => c.gr a >>> sh
    | _ => none

def execSrai (who : Issue) (s : State) : Host.Outcome State Fault Refusal :=
  coreRow who s fun
    | .srai d a sh => some fun s => s.writesG who.cluster who.core d fun c => (c.gr a).sshiftRight sh
    | _ => none

def execCmp (who : Issue) (s : State) : Host.Outcome State Fault Refusal :=
  coreRow who s fun
    | .cmp fn d a b => some fun s => s.retire who.cluster who.core fun c =>
        c.setK (who.core == 0) d (allLanes (compare fn (c.gr a) (c.gr b)))
    | _ => none

/-- The result of a predicate function (R109); COUNT writes gD, the others kD. -/
def kop (teller : Bool) (fn : KopFn) (d a b : Nat) (c : Core) : Core :=
  match fn with
  | .AND => c.setK teller d (c.kr a &&& c.kr b)
  | .OR => c.setK teller d (c.kr a ||| c.kr b)
  | .XOR => c.setK teller d (c.kr a ^^^ c.kr b)
  | .ANDN => c.setK teller d (c.kr a &&& ~~~(c.kr b))
  | .NOT => c.setK teller d (~~~(c.kr a))
  | .FROMG => c.setK teller d ((c.gr b) ++ (c.gr a))
  | .COUNT => c.setG d (BitVec.ofNat 32 (countLanes teller (c.kr a)))

def execKop (who : Issue) (s : State) : Host.Outcome State Fault Refusal :=
  coreRow who s fun
    | .kop fn d a b => some fun s => s.retire who.cluster who.core (kop (who.core == 0) fn d a b)
    | _ => none

/-! ### Branches -/

/-- The core jumps: its registers change by `f`, its PC becomes `pc`. -/
def State.jump (s : State) (L n : Nat) (f : Core → Core) (pc : Core → Nat) : State :=
  s.updCore L n fun c => { (f c) with pc := pc c }

def execBeqz (who : Issue) (s : State) : Host.Outcome State Fault Refusal :=
  coreRow who s fun
    | .beqz a off => some fun s => s.jump who.cluster who.core id fun c =>
        if c.gr a = 0 then pcAdd c.pc off else pcAdd c.pc 1
    | _ => none

def execBnez (who : Issue) (s : State) : Host.Outcome State Fault Refusal :=
  coreRow who s fun
    | .bnez a off => some fun s => s.jump who.cluster who.core id fun c =>
        if c.gr a ≠ 0 then pcAdd c.pc off else pcAdd c.pc 1
    | _ => none

def execJal (who : Issue) (s : State) : Host.Outcome State Fault Refusal :=
  coreRow who s fun
    | .jal d off => some fun s => s.jump who.cluster who.core
        (fun c => c.setG d (BitVec.ofNat 32 (pcAdd c.pc 1))) fun c => pcAdd c.pc off
    | _ => none

def execJr (who : Issue) (s : State) : Host.Outcome State Fault Refusal :=
  coreRow who s fun
    | .jr a => some fun s => s.jump who.cluster who.core id fun c => (c.gr a).toNat
    | _ => none

/-! ### System instructions -/

def execSysNop (who : Issue) (s : State) : Host.Outcome State Fault Refusal :=
  coreRow who s fun
    | .nop => some fun s => s.retire who.cluster who.core id
    | _ => none

def execHalt (who : Issue) (s : State) : Host.Outcome State Fault Refusal :=
  coreRow who s fun
    | .halt => some fun s => s.updCore who.cluster who.core fun c => { c.advance with run := .idle }
    | _ => none

def execWft (who : Issue) (s : State) : Host.Outcome State Fault Refusal :=
  coreRow who s fun
    | .wft => some fun s => s.updCore who.cluster who.core fun c => { c.advance with run := .wft }
    | _ => none

/-- A started core: PC, and g8 to g15 of the teller (R105). -/
def Core.start (c : Core) (t : Core) (pc : Nat) : Core :=
  { c with pc := pc, run := .running, wait := none,
           g := Vector.ofFn fun i : Fin 32 => if 8 ≤ i.val ∧ i.val < 16 then t.gr i.val else c.gr i.val }

/-- VRUN of a core that has not halted waits until it halts (R105). -/
def execVrun (who : Issue) (s : State) : Host.Outcome State Fault Refusal :=
  coreRow who s fun
    | .vrun v a => some fun s =>
        let t := s.core who.cluster who.core
        if (s.core who.cluster (v + 1)).run = .idle then
          (s.updCore who.cluster (v + 1) fun c => c.start t (t.gr a).toNat).retire who.cluster who.core id
        else s.block who.cluster who.core (.cores (2 ^ v))
    | _ => none

/-- The vector cores named by a mask have halted. -/
def Cluster.halted (c : Cluster) (mask : Nat) : Bool :=
  [0, 1].all fun v => !mask.testBit v || (c.cores.toArray.getD (v + 1) Core.init).run == .idle

def execVwait (who : Issue) (s : State) : Host.Outcome State Fault Refusal :=
  coreRow who s fun
    | .vwait m => some fun s =>
        if (s.cl who.cluster).halted m then s.retire who.cluster who.core id
        else s.block who.cluster who.core (.cores m)
    | _ => none

/-- Every store of a core is visible to all ports when its step ends, so FENCE never waits here (R115). -/
def execFence (who : Issue) (s : State) : Host.Outcome State Fault Refusal :=
  coreRow who s fun
    | .fence => some fun s => s.retire who.cluster who.core id
    | _ => none

/-- TRAP faults with code TRAP; its record's DETAIL holds the code in B (R126). -/
def execTrap (who : Issue) (s : State) : Host.Outcome State Fault Refusal :=
  coreRow who s fun
    | .trap code => some fun s =>
        let L := who.cluster
        let n := who.core
        let d := BitVec.ofNat 32 (faultWord 0x26 n (s.core L n).pc)
        ((s.stopCores L n 0x26).report sevError blkTLR 0x26 L (s.owner L) [d, BitVec.ofNat 32 code]).markClusterFault
          L 0x03
    | _ => none

/-- The special registers (R109); the count of cycles is a free value. -/
def execRdsr (who : Issue) (s : State) : Host.Outcome State Fault Refusal :=
  coreRow who s fun
    | .rdsr d b => some fun s =>
        match b with
        | 0 => let (k, s) := s.take; s.writesG who.cluster who.core d fun _ => Config.cycles k
        | 1 => s.writesG who.cluster who.core d fun _ => BitVec.ofNat 32 who.core
        | _ => s.writesG who.cluster who.core d fun c => BitVec.ofNat 32 c.sticky
    | _ => none

end Sys2Proof.Machine
end

