-- ==== Sys2Proof/Machine/Vector.lean ====
section
/-! DEFINITION. The vector, load, store, scale and lookup instructions of the tally instruction set
(05_teller_and_vector_cores.md, R109 to R114, R119 to R125). -/
namespace Sys2Proof.Machine

open Sys2Proof

/-! ### Lane arithmetic -/

/-- One lane of VV and VS: SRAS draws from the lane's generator when it shifts by at least 1 (R55, R56). -/
def laneAlu (fn : AluFn) (d a b gen : Word) : Word :=
  match fn with
  | .SRAS => sras a b.toNat (drawOf gen)
  | _ => alu fn d a b

/-- Lanes that draw: performed ones of an SRAS that shifts. -/
def laneDraws (fn : AluFn) (b : Word) : Bool := fn == .SRAS && decide (b.toNat ≥ 1)

/-- vD ← vA FN the lanes of `b`, in the lanes of kKP (R110). -/
def Core.vectorAlu (c : Core) (fn : AluFn) (d a : Nat) (b : Nat → Word) (kp : Nat) : Core :=
  let k := c.kr kp
  let c' := c.setLanes d fun l =>
    if lane k l then some (laneAlu fn (c.vl d l) (c.vl a l) (b l) (c.gen.toArray.getD l 1)) else none
  (List.range 64).foldl (fun c l => if lane k l && laneDraws fn (b l) then c.stepGen l else c) c'

/-- A vector ALU instruction with its residue check (R125). -/
def State.vectorAlu (s : State) (who : Issue) (fn : AluFn) (d a : Nat) (b : Core → Nat → Word) (kp : Nat) : State :=
  let L := who.cluster
  let n := who.core
  let go := fun (s : State) => s.retire L n fun c => c.vectorAlu fn d a (b c) kp
  if fn.residueChecked then s.checked L n ((s.core L n).kr kp) who.upset go else go s

def execVv (who : Issue) (s : State) : Host.Outcome State Fault Refusal :=
  coreRow who s fun
    | .vv fn d a b kp => some fun s => s.vectorAlu who fn d a (fun c => c.vl b) kp
    | _ => none

def execVs (who : Issue) (s : State) : Host.Outcome State Fault Refusal :=
  coreRow who s fun
    | .vs fn d a b kp => some fun s => s.vectorAlu who fn d a (fun c _ => c.gr b) kp
    | _ => none

def execVcmp (who : Issue) (s : State) : Host.Outcome State Fault Refusal :=
  coreRow who s fun
    | .vcmp fn d a b => some fun s => s.retire who.cluster who.core fun c =>
        c.setK false d (lanesOf fun l => compare fn (c.vl a l) (c.vl b l))
    | _ => none

def execVcmps (who : Issue) (s : State) : Host.Outcome State Fault Refusal :=
  coreRow who s fun
    | .vcmps fn d a b => some fun s => s.retire who.cluster who.core fun c =>
        c.setK false d (lanesOf fun l => compare fn (c.vl a l) (c.gr b))
    | _ => none

def execSel (who : Issue) (s : State) : Host.Outcome State Fault Refusal :=
  coreRow who s fun
    | .sel d a b kp => some fun s => s.retire who.cluster who.core fun c =>
        c.setLanes d fun l => some (if lane (c.kr kp) l then c.vl a l else c.vl b l)
    | _ => none

/-- A reduction of the selected lanes (R109, R111). -/
def reduce (fn : RedFn) (xs : List Word) : Word :=
  match fn with
  | .ADD => BitVec.ofInt 32 (xs.map BitVec.toInt).sum
  | .ADDS => sat32 (xs.map BitVec.toInt).sum
  | .MAX => xs.foldl (fun m x => alu .MAX 0 m x) 0x80000000#32
  | .MIN => xs.foldl (fun m x => alu .MIN 0 m x) 0x7FFFFFFF#32
  | .MAXABS => xs.foldl (fun m x => alu .MAX 0 m (alu .ABS 0 x 0)) 0

/-- ADD and ADDS are residue-checked (R125). -/
def RedFn.residueChecked : RedFn → Bool
  | .ADD | .ADDS => true
  | _ => false

/-- The lanes of va that kKP selects, from lane 0 up. -/
def Core.selected (c : Core) (a kp : Nat) : List Word :=
  ((List.range 64).filter fun l => lane (c.kr kp) l).map (c.vl a)

def execRed (who : Issue) (s : State) : Host.Outcome State Fault Refusal :=
  coreRow who s fun
    | .red fn d a kp => some fun s =>
        let go := fun (s : State) => s.writesG who.cluster who.core d fun c => reduce fn (c.selected a kp)
        if fn.residueChecked then
          s.checked who.cluster who.core ((s.core who.cluster who.core).kr kp) who.upset go
        else go s
    | _ => none

/-! ### Loads and stores -/

/-- The vault port of a core (R131). -/
def corePort (n : Nat) : VPort := if n = 0 then .teller else if n = 1 then .vec0 else .vec1

/-- gA plus the scaled offset, a 32-bit address (R112). -/
def Core.addr (c : Core) (a : Nat) (off : Int) : Nat := (c.gr a + BitVec.ofInt 32 off).toNat

/-- The first of the checks of R112 that an access fails: its alignment and its end. -/
def accessFault (a align bytes : Nat) : Option Nat :=
  if a % align ≠ 0 then some 0x04 else if a + bytes > Config.vaultBytes then some 0x21 else none

def execLdw (who : Issue) (s : State) : Host.Outcome State Fault Refusal :=
  coreRow who s fun
    | .ldw d a kp off => some fun s => s.scalar who.cluster who.core kp fun s =>
        let L := who.cluster
        let n := who.core
        let x := (s.core L n).addr a off
        match accessFault x 4 4 with
        | some f => s.coreFault L n f
        | none =>
          let (b, _, s) := s.vload L x 4 (corePort n)
          s.writesG L n d fun _ => BitVec.ofNat 32 (leNat b)
    | _ => none

def execStw (who : Issue) (s : State) : Host.Outcome State Fault Refusal :=
  coreRow who s fun
    | .stw d a kp off => some fun s => s.scalar who.cluster who.core kp fun s =>
        let L := who.cluster
        let n := who.core
        let x := (s.core L n).addr a off
        match accessFault x 4 4 with
        | some f => s.coreFault L n f
        | none => (s.coreStore L x (leBytes 4 ((s.core L n).gr d).toNat) (corePort n)).retire L n id
    | _ => none

/-- Offsets of the bytes of a packed row that hold bits of performed lanes (R110, R113). -/
def touched (w : Nat) (k : DWord) : List Nat :=
  (List.range (rowBytes w 64)).filter fun o =>
    ((List.range 64).any fun l => lane k l && decide (w * l < 8 * o + 8) && decide (8 * o < w * (l + 1)))

/-- A load of the performed lanes of a row at address `x` of cluster `R` (R110, R112): the row's elements, zeros after
a violation, and the state. -/
def State.loadRow (s : State) (R x : Nat) (f : Fmt) (k : DWord) (port : VPort) : List Int × State :=
  let bytes := (touched f.width k).map (x + ·)
  if bytes.all fun b => (s.regionAt R b).isSome then
    let (_, s') := s.checkGroups R (dedupRun (bytes.map (· / 8))) port
    (unpackRow f (s.vbytes R x (rowBytes f.width 64)) 64, s')
  else (List.replicate 64 0, s.violate R x)

/-- A lane value clamped to the stored range of a format (R113). -/
def clampTo (f : Fmt) (v : Int) : Int := max f.lo (min f.hi v)

/-- A store of the performed lanes of a row (R113); the groups it covers in part are read and merged (R140). -/
def State.storeRow (s : State) (R x : Nat) (f : Fmt) (k : DWord) (vals : Nat → Int) (port : VPort) : State :=
  let w := f.width
  let n := rowBytes w 64
  let offs := touched w k
  let okStore := offs.all fun o =>
    match s.regionAt R (x + o) with
    | none => false
    | some (_, r) => r.kind != 3 && !r.inCurrent (x + o)
  if okStore then
    let mask := packNat w ((List.range 64).map fun l => if lane k l then 2 ^ w - 1 else 0)
    let new := packNat w ((List.range 64).map fun l => f.field (clampTo f (vals l)))
    let whole := fun (o : Nat) => (mask >>> (8 * o)) % 256 == 255
    let groups := dedupRun (offs.map fun o => (x + o) / 8)
    let part := groups.filter fun g =>
      !((List.range 8).all fun i => decide (x ≤ 8 * g + i) && decide (8 * g + i < x + n) && whole (8 * g + i - x))
    let (_, s) := s.checkGroups R part port
    let old := leNat (s.vbytes R x n)
    let merged := leBytes n ((old &&& (2 ^ (8 * n) - 1 - mask)) ||| (new &&& mask))
    let s := s.updCl R fun c => { c with bad := mputs (fun _ => false) c.bad (part.map fun g => (g, false)) }
    s.corePairs R (offs.map fun o => (x + o, merged.getD o 0)) port
  else s.violate R x

/-- Whether a performed lane of a store saturates (R113). -/
def saturates (f : Fmt) (k : DWord) (vals : Nat → Int) : Bool :=
  (List.range 64).any fun l => lane k l && decide (clampTo f (vals l) ≠ vals l)

/-- vD takes a loaded row in the lanes of kKP. -/
def State.rowLoaded (s : State) (L n d : Nat) (k : DWord) (row : List Int) : State :=
  s.retire L n fun c => c.setLanes d fun l => if lane k l then some (BitVec.ofInt 32 (row.getD l 0)) else none

/-- VLD. With no performed lane it does nothing, and its address is not checked, though FMT is: R110 and R112 do not say which
comes first, DESIGN CHOICE, log entry 79. The same holds of VST, VLDR and VSTR. -/
def execVld (who : Issue) (s : State) : Host.Outcome State Fault Refusal :=
  coreRow who s fun
    | .vld d a kp fmt off => some fun s =>
        let L := who.cluster
        let n := who.core
        let c := s.core L n
        match Fmt.ofCode fmt with
        | none => s.coreFault L n 0x01
        | some f =>
          let k := c.kr kp
          if k = 0 then s.retire L n id
          else
            let x := c.addr a off
            match accessFault x 16 (rowBytes f.width 64) with
            | some e => s.coreFault L n e
            | none => let (row, s) := s.loadRow L x f k (corePort n); s.rowLoaded L n d k row
    | _ => none

def execVst (who : Issue) (s : State) : Host.Outcome State Fault Refusal :=
  coreRow who s fun
    | .vst d a kp fmt off => some fun s =>
        let L := who.cluster
        let n := who.core
        let c := s.core L n
        match Fmt.ofCode fmt with
        | none => s.coreFault L n 0x01
        | some f =>
          let k := c.kr kp
          if k = 0 then s.retire L n id
          else
            let x := c.addr a off
            match accessFault x 16 (rowBytes f.width 64) with
            | some e => s.coreFault L n e
            | none =>
              let vals := fun l => (c.vl d l).toInt
              ((s.storeRow L x f k vals (corePort n)).outcomes L n { saturated := saturates f k vals }).retire L n id
    | _ => none

/-- The cluster that VLDR or VSTR names is one of the context's (R114). -/
def State.sameContext (s : State) (L R : Nat) : Bool :=
  decide (R < Config.nClusters) && (s.owner R).isSome && s.owner R == s.owner L

/-- A request of a core that the mesh answers FENCED or UNREACHABLE (R114, R152, R154): counted at the router that refuses
it; the context's segment has met a fence. -/
def State.answeredFenced (s : State) (L R : Nat) : State :=
  let s := s.countRefused (.cluster L 4) (.cluster R 0)
  match s.owner L with
  | some x => s.updCx x fun x => { x with metFence := true }
  | none => s

def execVldr (who : Issue) (s : State) : Host.Outcome State Fault Refusal :=
  coreRow who s fun
    | .vldr d a b kp fmt => some fun s =>
        let L := who.cluster
        let n := who.core
        let c := s.core L n
        match Fmt.ofCode fmt with
        | none => s.coreFault L n 0x01
        | some f =>
          let k := c.kr kp
          if k = 0 then s.retire L n id
          else
            let x := c.addr a 0
            let R := (c.gr b).toNat
            match accessFault x 16 (rowBytes f.width 64) with
            | some e => s.coreFault L n e
            | none =>
              if !s.sameContext L R then s.coreFault L n 0x22
              else if !s.readRefused (.cluster L (3 + n)) (.cluster R 0) then
                let (row, s) := s.loadRow R x f k .mesh
                s.rowLoaded L n d k row
              else (s.answeredFenced L R).rowLoaded L n d k (List.replicate 64 0)
    | _ => none

def execVstr (who : Issue) (s : State) : Host.Outcome State Fault Refusal :=
  coreRow who s fun
    | .vstr d a b kp fmt => some fun s =>
        let L := who.cluster
        let n := who.core
        let c := s.core L n
        match Fmt.ofCode fmt with
        | none => s.coreFault L n 0x01
        | some f =>
          let k := c.kr kp
          if k = 0 then s.retire L n id
          else
            let x := c.addr a 0
            let R := (c.gr b).toNat
            match accessFault x 16 (rowBytes f.width 64) with
            | some e => s.coreFault L n e
            | none =>
              if !s.sameContext L R then s.coreFault L n 0x22
              else if (s.askRefusal (.cluster L (3 + n)) (.cluster R 0)).isNone then
                let vals := fun l => (c.vl d l).toInt
                let s := (s.storeRow R x f k vals .mesh).outcomes L n { saturated := saturates f k vals }
                (if s.answerCut (.cluster L (3 + n)) (.cluster R 0) then s.answeredFenced L R else s).retire L n id
              else (s.answeredFenced L R).retire L n id
    | _ => none

/-! ### Stored scales -/

/-- Scales that SLD and SST move for a BLK code: 4, 2 or 1 (R120). -/
def blkScales (blk : Nat) : Nat := 4 / 2 ^ blk

def scaleFmt (sm16 : Bool) : SFmt := if sm16 then .SM16 else .SE8

/-- An operation that met an invalid operand scale: one record (R69); CODE is the row of R69's table (R432). -/
def State.scaleRecord (s : State) (L n : Nat) (invalid : Bool) : State :=
  if invalid then s.report sevWarning blkVEC 6 L (s.owner L) [BitVec.ofNat 32 (faultWord 0 n (s.core L n).pc)]
  else s

/-- SLD (R120): a scale delivered poisoned is an invalid scale (R141). A scale that is invalid, stored so or delivered
poisoned, is reported (R69), and the instruction counted as one that produced an invalid scale. -/
def execSld (who : Issue) (s : State) : Host.Outcome State Fault Refusal :=
  coreRow who s fun
    | .sld d a kp sm16 blk off => some fun s =>
        let L := who.cluster
        let n := who.core
        if blk = 3 then s.coreFault L n 0x03
        else s.scalar L n kp fun s =>
          let sf := scaleFmt sm16
          let cnt := blkScales blk
          let x := (s.core L n).addr a off
          match accessFault x 1 (cnt * sf.bytes) with
          | some e => s.coreFault L n e
          | none =>
            if s.readOk L x (cnt * sf.bytes) then
              let raw := s.vbytes L x (cnt * sf.bytes)
              let (bad, s) := s.checkGroups L (groupsOf x (cnt * sf.bytes)) (corePort n)
              let stored := fun i => Scale.decode sf (leNat ((raw.drop (i * sf.bytes)).take sf.bytes))
              let poisoned := fun i => (groupsOf (x + i * sf.bytes) sf.bytes).any (bad.contains ·)
              let scale := fun i => if poisoned i then Scale.invalid else stored i
              let is := List.range cnt
              let s := s.scaleRecord L n (is.any fun i => scale i == .invalid)
              (s.outcomes L n { scaleInvalid := is.any fun i => scale i == .invalid }).retire L n fun c => c.setS d (scaleReg fun e => scale (e * cnt / 4))
            else (s.violate L x).retire L n fun c => c.setS d (scaleReg fun _ => Scale.decode sf 0)
    | _ => none

/-- A scale that SST writes as the canonical invalid one. -/
def writesInvalid (sf : SFmt) (x : Scale) : Bool :=
  match x with
  | .invalid => true
  | .zero => false
  | .normal e m => !(decide (1 ≤ e) && decide (e ≤ 254) && (sf == .SM16 || m == 128))

def execSst (who : Issue) (s : State) : Host.Outcome State Fault Refusal :=
  coreRow who s fun
    | .sst d a kp sm16 blk off => some fun s =>
        let L := who.cluster
        let n := who.core
        if blk = 3 then s.coreFault L n 0x03
        else s.scalar L n kp fun s =>
          let sf := scaleFmt sm16
          let cnt := blkScales blk
          let c := s.core L n
          let x := c.addr a off
          match accessFault x 1 (cnt * sf.bytes) with
          | some e => s.coreFault L n e
          | none =>
            let es := (List.range cnt).map fun i => c.entry d (i * 4 / cnt)
            let bytes := es.flatMap fun e => leBytes sf.bytes (Scale.encode sf e)
            ((s.coreStore L x bytes (corePort n)).outcomes L n { scaleInvalid := es.any (writesInvalid sf) }).retire L n id
    | _ => none

/-! ### Conversions -/

/-- Lane `l` of va at its input entry in power-of-two form (R81, R121); a zero scale gives a zero with no exponent. -/
def Core.qlane (c : Core) (va sa : Nat) (l : Nat) : QLane :=
  match c.entry sa (l / 16) with
  | .normal e m => ⟨(c.vl va l).toInt * m, some (e - 7), l⟩
  | _ => ⟨0, none, l⟩

/-- The lanes of scale entry `b`. -/
def entryLanes (b : Nat) : List Nat := (List.range 16).map (16 * b + ·)

/-- Entries converted one after another, each at its own named scale raised by `d` (R121). -/
def rescaleEntries (f : Fmt) (stoch : Bool) (d : Nat) : List (Scale × List QLane) → Gens → List QBlock × Gens
  | [], g => ([], g)
  | (s, ls) :: t, g =>
    let q := requantAt f stoch s d ls g
    let (r, g') := rescaleEntries f stoch d t q.gens
    (q :: r, g')

/-- One block of RESCALE: entries `es` (R121). The lanes' results, the entries' scales, the flags, the generators. With
CHOOSE 0 the named scales hold whatever M is (R66), so that R65 acts with CHOOSE 1 alone: DEDUCED, log entry 62. -/
def Core.rescaleBlock (c : Core) (va sa sd : Nat) (f : Fmt) (sf : SFmt) (cv : Conv) (es : List Nat) (g : Gens) :
    List Int × List Scale × Outcomes × Gens :=
  let qs := (es.flatMap entryLanes).map (c.qlane va sa)
  let zeros := qs.map fun _ => (0 : Int)
  if es.any fun b => c.entry sa b == .invalid then (zeros, es.map fun _ => .invalid, { scaleInvalid := true }, g)
  else if cv.choose then
    let q := requantChoose f sf cv.stoch qs g
    (q.elems, es.map fun _ => q.scale, q.flags, q.gens)
  else
    let parts := es.map fun b => (c.entry sd b, (entryLanes b).map (c.qlane va sa))
    let d := raiseOf cv.auto fun d => parts.all fun p => fitsAt f cv.stoch p.1 p.2 g d
    let (bs, g') := rescaleEntries f cv.stoch d parts g
    (bs.flatMap (·.elems), bs.map (·.scale), bs.foldl (fun o q => o.or q.flags) {}, g')

/-- The blocks of RESCALE in turn. -/
def Core.rescaleAll (c : Core) (va sa sd : Nat) (f : Fmt) (sf : SFmt) (cv : Conv) :
    List (List Nat) → Gens → List Int × List Scale × Outcomes × Gens
  | [], g => ([], [], {}, g)
  | es :: t, g =>
    let (x, y, o, g) := c.rescaleBlock va sa sd f sf cv es g
    let (x', y', o', g) := c.rescaleAll va sa sd f sf cv t g
    (x ++ x', y ++ y', o.or o', g)

/-- The entries of each block of a BLK code. -/
def blockEntries (blk : Nat) : List (List Nat) :=
  let w := 2 ^ blk
  (List.range (4 / w)).map fun b => (List.range w).map (b * w + ·)

/-- RESCALE (R121): checks in ascending order of fault code (R126), residue check, then every block. -/
def execRescale (who : Issue) (s : State) : Host.Outcome State Fault Refusal :=
  coreRow who s fun
    | .rescale vd va sa sd fmt conv blk sm16 => some fun s =>
        let L := who.cluster
        let n := who.core
        match Fmt.ofCode fmt with
        | none => s.coreFault L n 0x01
        | some f =>
          if blk = 3 then s.coreFault L n 0x03
          else
            match Conv.ofField conv false with
            | none => s.coreFault L n 0x05
            | some cv =>
              s.checked L n (BitVec.allOnes 64) who.upset fun s =>
                let c := s.core L n
                let (elems, scales, flags, gens) :=
                  c.rescaleAll va sa sd f (scaleFmt sm16) cv (blockEntries blk) c.gen
                let s := s.scaleRecord L n flags.scaleInvalid
                let s := s.outcomes L n flags
                s.retire L n fun c =>
                  let c := c.setLanes vd fun l => some (BitVec.ofInt 32 (elems.getD l 0))
                  let c := c.setS sd (scaleReg fun b => scales.getD b .zero)
                  { c with gen := gens }
    | _ => none

/-- The scale that BMAX writes for a block, with its outcomes: only the lanes of kKP are considered (R122). -/
def Core.bmaxBlock (c : Core) (va sa kp : Nat) (f : Fmt) (sf : SFmt) (es : List Nat) : List Scale × Outcomes :=
  let lanes := (es.flatMap entryLanes).filter fun l => lane (c.kr kp) l
  if lanes.any fun l => c.entry sa (l / 16) == .invalid then (es.map fun _ => .invalid, { scaleInvalid := true })
  else
    let q := requantChoose f sf false (lanes.map (c.qlane va sa)) c.gen
    (es.map fun _ => q.scale, { clamped := q.flags.clamped })

/-- BMAX reads its scales from the register that RESCALE's format names sa, and its lanes from kKP (R109, R122). -/
def execBmax (who : Issue) (s : State) : Host.Outcome State Fault Refusal :=
  coreRow who s fun
    | .bmax va sa sd fmt kp blk sm16 => some fun s =>
        let L := who.cluster
        let n := who.core
        match Fmt.ofCode fmt with
        | none => s.coreFault L n 0x01
        | some f =>
          if blk = 3 then s.coreFault L n 0x03
          else
            let c := s.core L n
            let bs := (blockEntries blk).map (c.bmaxBlock va sa kp f (scaleFmt sm16))
            let flags := bs.foldl (fun o b => o.or b.2) {}
            let scales := bs.flatMap (·.1)
            let s := s.scaleRecord L n flags.scaleInvalid
            (s.outcomes L n flags).retire L n fun c => c.setS sd (scaleReg fun b => scales.getD b .zero)
    | _ => none

/-! ### Scale registers -/

/-- The scale that an entry holds once written: an exponent outside its range makes it invalid (R119). -/
def Scale.held (x : Scale) : Scale :=
  match x with
  | .normal e m => if -2048 ≤ e ∧ e ≤ 2047 then .normal e m else .invalid
  | y => y

/-- An SCL function that writes four computed entries (R123); an invalid one is counted. -/
def State.writesS (s : State) (L n d : Nat) (f : Core → Nat → Scale) : State :=
  let c := s.core L n
  let inv := (List.range 4).any fun b => (f c b).held == .invalid
  (s.outcomes L n { scaleInvalid := inv }).retire L n fun c => c.setS d (scaleReg (f c))

def execSmul (who : Issue) (s : State) : Host.Outcome State Fault Refusal :=
  coreRow who s fun
    | .smul d a b kp => some fun s => s.scalar who.cluster who.core kp fun s =>
        s.writesS who.cluster who.core d fun c e => (c.entry a e).mul (c.entry b e)
    | _ => none

/-- SMOV. An invalid entry that it copies does not count in VEC_SCALE_COUNT.INVALID, and no more does one that SPUT or SSHIFT
copies: only computed ones do, DESIGN CHOICE, log entry 79. -/
def execSmov (who : Issue) (s : State) : Host.Outcome State Fault Refusal :=
  coreRow who s fun
    | .smov d a kp => some fun s => s.scalar who.cluster who.core kp fun s =>
        s.retire who.cluster who.core fun c => c.setS d (c.sr a)
    | _ => none

/-- SSHIFT: a zero or invalid entry is copied unchanged (R123). -/
def execSshift (who : Issue) (s : State) : Host.Outcome State Fault Refusal :=
  coreRow who s fun
    | .sshift d a b kp => some fun s => s.scalar who.cluster who.core kp fun s =>
        let L := who.cluster
        let n := who.core
        let shifted := fun (c : Core) (i : Nat) =>
          match c.entry a i with
          | .normal e m => some (Scale.normal (e + (c.gr b).toInt) m)
          | _ => none
        let c := s.core L n
        let inv := (List.range 4).any fun i => (shifted c i).map Scale.held == some .invalid
        (s.outcomes L n { scaleInvalid := inv }).retire L n fun c =>
          c.setS d (Vector.ofFn fun i : Fin 4 =>
            match shifted c i.val with
            | some x => x.entry
            | none => (c.sr a).toArray.getD i.val 0)
    | _ => none

/-- The bits of a scale register entry: the reserved ones read 0 (R119). -/
def entryMask : Word := 0xCFFF00FF#32

def execSget (who : Issue) (s : State) : Host.Outcome State Fault Refusal :=
  coreRow who s fun
    | .sget d a e kp => some fun s => s.scalar who.cluster who.core kp fun s =>
        s.writesG who.cluster who.core d fun c => (c.sr a).toArray.getD e 0
    | _ => none

def execSput (who : Issue) (s : State) : Host.Outcome State Fault Refusal :=
  coreRow who s fun
    | .sput d a mask kp => some fun s => s.scalar who.cluster who.core kp fun s =>
        s.retire who.cluster who.core fun c =>
          c.setS d (Vector.ofFn fun i : Fin 4 =>
            if mask.testBit i.val then c.gr a &&& entryMask else (c.sr d).toArray.getD i.val 0)
    | _ => none

def execSmaxe (who : Issue) (s : State) : Host.Outcome State Fault Refusal :=
  coreRow who s fun
    | .smaxe d a b kp => some fun s => s.scalar who.cluster who.core kp fun s =>
        s.writesS who.cluster who.core d fun c e => (c.entry a e).maxE (c.entry b e)
    | _ => none

/-! ### Lookup -/

/-- The entry that lane value `x` looks up (R124). -/
def lutIndex (bits shift base : Nat) (x : Word) : Nat := 64 * base + (x.toNat >>> shift) % 2 ^ bits

/-- LUT (R124): an entry that an upset hit faults when a performed lane reads it (R126). -/
def execLut (who : Issue) (s : State) : Host.Outcome State Fault Refusal :=
  coreRow who s fun
    | .lut vd va kp bits shift base => some fun s =>
        let L := who.cluster
        let n := who.core
        if 64 * base + 2 ^ bits > 4096 then s.coreFault L n 0x24
        else
          let c := s.core L n
          let k := c.kr kp
          let bad := match who.upset with
            | .lut e => (List.range 64).any fun l => lane k l && lutIndex bits shift base (c.vl va l) == e
            | _ => false
          if bad then s.coreHwFault L n .lut 0x32 false
          else s.retire L n fun c => c.setLanes vd fun l =>
            if lane k l then some (mget (fun _ => 0) c.lut (lutIndex bits shift base (c.vl va l))) else none
    | _ => none

end Sys2Proof.Machine
end

