-- ==== Sys2Proof/Machine/CoreQueues.lean ====
section
/-! DEFINITION. The instructions that meet queues and engines (05_teller_and_vector_cores.md, R116 to R118), how blocked
cores go on (R377), the end of a cluster's segment (R106, R188), and the turns of a doubled site (R107). -/
namespace Sys2Proof.Machine

open Sys2Proof

/-! ### Tokens -/

/-- The SFMT and SCALE of a vector core's clearing contribution (R163). -/
def contributionScale (x : Vector Word 4) : Bool × Nat :=
  let e0 := Scale.ofEntry (x.toArray.getD 0 0)
  if [1, 2, 3].all fun i => Scale.ofEntry (x.toArray.getD i 0) == e0 then
    match e0 with
    | .normal e m =>
      if 1 ≤ e ∧ e ≤ 254 then (if m = 128 then (false, e.toNat) else (true, e.toNat * 256 + m)) else (false, 0xFF)
    | _ => (false, 0xFF)
  else (false, 0xFF)

/-- QSEND and QSENDT (R116, R176, R163). -/
def State.qsend (s : State) (L n : Nat) (try_ : Bool) (v sc k g q : Nat) : State :=
  match s.ep L q with
  | none => s.coreFault L n 0x25
  | some e =>
    let c := s.core L n
    if !e.send then s.coreFault L n 0x25
    else if e.kind = .clear then
      let (sm, x) := contributionScale (c.sr sc)
      let lanes := (List.range 64).map fun i => if lane (c.kr k) i then c.vl v i else 0
      (s.sendClear L e.peer (c.gr 4).toNat (3 + n) sm x lanes false).retire L n fun c => c.setG g 0
    else if e.credits = 0 then
      if try_ then s.wouldBlock L n g (.credit q) else s.block L n (.credit q)
    else
      (s.sendToken L q (3 + n) q e (c.kr k) ((c.sr sc).toList) ((c.vr v).toList) false).retire L n fun c => c.setG g 0

/-- A token's contents go to the registers (R116). -/
def Core.takeToken (c : Core) (v sc k g : Nat) (t : Token) : Core :=
  ((((c.setV v (Vector.ofFn fun i : Fin 64 => t.lanes.getD i.val 0)).setS sc
    (Vector.ofFn fun i : Fin 4 => t.scales.getD i.val 0)).setK false k t.mask).setG g 0)

/-- QRECV and QRECVT (R116, R176): the oldest token, whose credit goes back to its producer. -/
def State.qrecv (s : State) (L n : Nat) (try_ : Bool) (v sc k g q : Nat) : State :=
  match s.ep L q with
  | none => s.coreFault L n 0x25
  | some e =>
    if e.send then s.coreFault L n 0x25
    else
      match e.held with
      | [] => if try_ then s.wouldBlock L n g (.token q) else s.block L n (.token q)
      | (t, p) :: _ =>
        let s := ((s.slotRead L q e).setEp L q e.shift).returnCredit L q p
        (s.progress L).retire L n fun c => c.takeToken v sc k g t

def execQsend (who : Issue) (s : State) : Host.Outcome State Fault Refusal :=
  coreRow who s fun
    | .qsend false v sc k g q => some fun s => s.qsend who.cluster who.core false v sc k g q
    | _ => none

def execQrecv (who : Issue) (s : State) : Host.Outcome State Fault Refusal :=
  coreRow who s fun
    | .qrecv false v sc k g q => some fun s => s.qrecv who.cluster who.core false v sc k g q
    | _ => none

def execQsendt (who : Issue) (s : State) : Host.Outcome State Fault Refusal :=
  coreRow who s fun
    | .qsend true v sc k g q => some fun s => s.qsend who.cluster who.core true v sc k g q
    | _ => none

def execQrecvt (who : Issue) (s : State) : Host.Outcome State Fault Refusal :=
  coreRow who s fun
    | .qrecv true v sc k g q => some fun s => s.qrecv who.cluster who.core true v sc k g q
    | _ => none

/-! ### Messages -/

def execMsend (who : Issue) (s : State) : Host.Outcome State Fault Refusal :=
  coreRow who s fun
    | .msend false d a b kp => some fun s => s.scalar who.cluster who.core kp fun s =>
        s.send who.cluster who.core d a b false
    | _ => none

def execMsendt (who : Issue) (s : State) : Host.Outcome State Fault Refusal :=
  coreRow who s fun
    | .msend true d a b kp => some fun s => s.scalar who.cluster who.core kp fun s =>
        s.send who.cluster who.core d a b true
    | _ => none

/-! ### The DMA engine -/

/-- DMAQ and DMAQT (R260, R262). Where D = B the register keeps the value and not the status, here and in the other rows that
write both (R117), DESIGN CHOICE, log entry 79. -/
def State.dmaq (s : State) (L n : Nat) (try_ : Bool) (d a b : Nat) : State :=
  let x := ((s.core L n).gr a).toNat
  if x % 64 ≠ 0 then s.coreFault L n 0x04
  else if x + 64 > Config.vaultBytes then s.coreFault L n 0x21
  else if !(s.cl L).dma.room then
    if try_ then s.wouldBlock L n d .dmaTag else s.block L n .dmaTag
  else
    let (st, w, s) := s.acceptDma L x
    s.retire L n fun c => (c.setG d (BitVec.ofNat 32 st)).setG b w

/-- DMAPOP and DMAPOPT (R263). -/
def State.dmapop (s : State) (L n : Nat) (try_ : Bool) (d b : Nat) : State :=
  match (s.cl L).dma.done with
  | [] => if try_ then s.wouldBlock L n d .dmaEntry else s.block L n .dmaEntry
  | w :: rest =>
    ((s.updDma L fun x => { x with done := rest }).progress L).retire L n fun c => (c.setG d 0).setG b w

def execDmaq (who : Issue) (s : State) : Host.Outcome State Fault Refusal :=
  coreRow who s fun
    | .dmaq false d a b kp => some fun s => s.scalar who.cluster who.core kp fun s =>
        s.dmaq who.cluster who.core false d a b
    | _ => none

def execDmaqt (who : Issue) (s : State) : Host.Outcome State Fault Refusal :=
  coreRow who s fun
    | .dmaq true d a b kp => some fun s => s.scalar who.cluster who.core kp fun s =>
        s.dmaq who.cluster who.core true d a b
    | _ => none

def execDmapop (who : Issue) (s : State) : Host.Outcome State Fault Refusal :=
  coreRow who s fun
    | .dmapop false d b kp => some fun s => s.scalar who.cluster who.core kp fun s =>
        s.dmapop who.cluster who.core false d b
    | _ => none

def execDmapopt (who : Issue) (s : State) : Host.Outcome State Fault Refusal :=
  coreRow who s fun
    | .dmapop true d b kp => some fun s => s.scalar who.cluster who.core kp fun s =>
        s.dmapop who.cluster who.core true d b
    | _ => none

/-! ### The matrix queue -/

/-- MXI and MXIT (R118, R89). -/
def State.mxi (s : State) (L n : Nat) (try_ : Bool) (d a : Nat) : State :=
  let x := ((s.core L n).gr a).toNat
  if x % 64 ≠ 0 then s.coreFault L n 0x04
  else if x + 64 > Config.vaultBytes then s.coreFault L n 0x21
  else if !(s.cl L).matrix.room then
    if try_ then s.wouldBlock L n d .matrixSlot else s.block L n .matrixSlot
  else (s.acceptDesc L x).retire L n fun c => c.setG d 0

/-- MXPOP and MXPOPT (R118, R100). -/
def State.mxpop (s : State) (L n : Nat) (try_ : Bool) (d b : Nat) : State :=
  match (s.cl L).matrix.done with
  | [] => if try_ then s.wouldBlock L n d .matrixEntry else s.block L n .matrixEntry
  | w :: _ => (s.popCompletion L).retire L n fun c => (c.setG d 0).setG b w

def execMxi (who : Issue) (s : State) : Host.Outcome State Fault Refusal :=
  coreRow who s fun
    | .mxi false d a kp => some fun s => s.scalar who.cluster who.core kp fun s =>
        s.mxi who.cluster who.core false d a
    | _ => none

def execMxit (who : Issue) (s : State) : Host.Outcome State Fault Refusal :=
  coreRow who s fun
    | .mxi true d a kp => some fun s => s.scalar who.cluster who.core kp fun s =>
        s.mxi who.cluster who.core true d a
    | _ => none

def execMxpop (who : Issue) (s : State) : Host.Outcome State Fault Refusal :=
  coreRow who s fun
    | .mxpop false d b kp => some fun s => s.scalar who.cluster who.core kp fun s =>
        s.mxpop who.cluster who.core false d b
    | _ => none

def execMxpopt (who : Issue) (s : State) : Host.Outcome State Fault Refusal :=
  coreRow who s fun
    | .mxpop true d b kp => some fun s => s.scalar who.cluster who.core kp fun s =>
        s.mxpop who.cluster who.core true d b
    | _ => none

/-! ### Going on -/

/-- What a blocked core waits on is there (R377). The answer to a send comes with MESSAGE_ANSWER. -/
def State.available (s : State) (L : Nat) (w : Wait) : Bool :=
  match w with
  | .credit q => match s.ep L q with | some e => decide (0 < e.credits) | none => true
  | .token q => match s.ep L q with | some e => !e.held.isEmpty | none => true
  | .answer | .ring _ => false
  | .cores m => (s.cl L).halted m
  | .matrixSlot => (s.cl L).matrix.room
  | .matrixEntry => !(s.cl L).matrix.done.isEmpty
  | .dmaTag => (s.cl L).dma.room
  | .dmaEntry => !(s.cl L).dma.done.isEmpty

/-- A blocked core issues its instruction again. -/
def State.unblock (s : State) (L n : Nat) : State :=
  match (s.core L n).run, (s.core L n).wait with
  | .blocked, some w =>
    if s.available L w then s.updCore L n fun c => { c with run := .running, wait := none } else s
  | _, _ => s

def execCoreUnblock (cluster core : Nat) (s : State) : Host.Outcome State Fault Refusal :=
  onUnit (okCluster cluster && okCore core) (s.unblock cluster core)

/-! ### The end of a cluster's part of a segment -/

/-- A packet that the cluster sent in run `run` and that its receiver has yet to accept (R106); contributions of an earlier
run are left to their root (R166). -/
def sentBy (L run : Nat) (p : Packet) : Bool :=
  match p.payload with
  | .token t _ => t.source == L
  | .clear _ _ r _ _ _ f => r == run && f.contains L
  | _ => match p.type, p.src with
    | .MSG, .cluster M _ => M == L
    | _, _ => false

/-- Everything that WFT waits for (R106). -/
def State.allDone (s : State) (L : Nat) : Bool :=
  let c := s.cl L
  let run := match s.owner L with
    | some x => (s.cx x).runNumber % 2 ^ 16
    | none => 0
  c.halted 3 && c.matrix.queue.isEmpty && c.matrix.jobs.isEmpty && c.dma.reqs.isEmpty
    && c.sends.toList.all (fun x => x.isNone) && !(s.mesh.packets.any (sentBy L run))
    && !(s.mesh.combine.any fun e => e.2.any fun b => b.from_.contains L)

/-- The tokens left in an endpoint are discarded, and their credits go back; no more tokens of the segment's half are
passed (R181). -/
def State.discardAt (s : State) (c L q : Nat) : State :=
  match s.ep L q with
  | none => s
  | some e =>
    if e.send || e.held.isEmpty then s
    else
      let s := (s.setEp L q { e with held := [] }).leftover c e.held.length
      s.forEach e.held fun t s => s.giveBack L q t.2

/-- Every endpoint of a context is emptied of its leftovers (R181). -/
def State.discardLeftovers (s : State) (c : Nat) : State :=
  s.forEach (s.folioClusters c) fun L s =>
    s.forEach ((s.cl L).eps.map (·.1)) fun q s => s.discardAt c L q

/-- The bindings that feed RECV endpoints of a context's active folio. -/
def State.inboundOf (s : State) (c : Nat) : List Nat :=
  (s.fabric.binds.filter fun e => e.2.active && (match e.2.target with
    | some (L, q) => s.owner L == some c && ((s.ep L q).map fun x => !x.send) == some true
    | none => false)).map (·.1)

/-- REVOKE for every GRANT of an SSEQ from which no token has arrived (R315). -/
def State.revokeGrants (s : State) (c : Nat) : State :=
  s.forEach (s.inboundOf c) fun k s =>
    let b := s.binding k
    s.forEach (b.granted.filter fun g => !(b.halves.any fun h => h.sseq == g && !h.tokens.isEmpty)) fun g s =>
      s.sendCredit k 2 g 0

/-- When the last cluster of a draining context has finished, FABRIC endpoints stop returning credits, and tokens that
remain are leftovers (R188). -/
def State.drainFinished (s : State) (c : Nat) : State :=
  if s.draining c && s.segmentFinished c && !(s.cx c).withheld then
    ((s.updCx c fun x => { x with withheld := true }).discardLeftovers c).revokeGrants c
  else s

/-- CLUSTER_FINISHED (R106): the cycles of the segment are a free value, since the model keeps no core-cycle time;
the moment at which a context's last cluster finished is kept for R361. -/
def State.clusterFinished (s : State) (L : Nat) : State :=
  if (s.core L 0).run == .wft && s.allDone L then
    let (k, s) := s.take
    let s := s.updCl L fun c => { c with finishCycles := (Config.cycles k).toNat }
    let s := s.updCore L 0 fun c => { c with run := .finished }
    match s.owner L with
    | some c =>
      let s := if s.segmentFinished c then { s with tally := { s.tally with lastFinish := some s.tally.time } } else s
      s.drainFinished c
    | none => s
  else s

def execClusterFinished (cluster : Nat) (s : State) : Host.Outcome State Fault Refusal :=
  onUnit (okCluster cluster) (s.clusterFinished cluster)

/-- The cluster whose turn it is on a doubled site gives it up: its teller waits in WFT or has finished, or none of its
cores runs, all that did being blocked (R107). -/
def Cluster.yields (c : Cluster) : Bool :=
  let l := c.cores.toList
  (match l.head? with
    | some t => t.run == .wft || t.run == .finished
    | none => false)
    || !(l.any fun k => k.run == .running)

/-- DOUBLED_SITE_SWITCH (R107). -/
def State.doubledSwitch (s : State) (n : Nat) : State :=
  let x := s.site n
  match x.holds[x.turn]? with
  | some L => if x.holds.length = 2 && (s.cl L).yields then s.setSite n { x with turn := 1 - x.turn } else s
  | none => s

def execDoubledSiteSwitch (site : Nat) (s : State) : Host.Outcome State Fault Refusal :=
  onUnit (okSite site) (s.doubledSwitch site)

/-! ### Injections -/

/-- VEC_RESIDUE_INJECT arms an injection on a vector core (R127); a teller has none. -/
def execVecResidueInject (cluster core : Nat) (s : State) : Host.Outcome State Fault Refusal :=
  onUnit (okCluster cluster && okCore core && core != 0)
    (s.writeCl .VEC_RESIDUE_INJECT (cluster * 2 + (core - 1)) 1 fun s =>
      s.fset VEC_RESIDUE_INJECT.ARM (cluster * 2 + (core - 1)) 1)

/-- VLT_PARITY_INJECT arms an injection on the vault (R140). -/
def execVltParityInject (cluster : Nat) (s : State) : Host.Outcome State Fault Refusal :=
  onUnit (okCluster cluster) (s.writeCl .VLT_PARITY_INJECT cluster 1 fun s => s.fset VLT_PARITY_INJECT.ARM cluster 1)

end Sys2Proof.Machine
end

