-- ==== Sys2Proof/Machine/Sha256.lean ====
section
/-! DEFINITION. SHA-256, which image digests, envelopes, measurements, DEVICE_ID and hash-based signatures use (R212, R409,
R420). The algorithm is that of FIPS 180-4: PRESUMED, since the spec names it and does not state it (log entry 38). -/
namespace Sys2Proof.Machine

/-- The largest `r` of `bits` bits above `lo` whose power `k` does not exceed `n`, found bit by bit. -/
def rootBits (k n : Nat) : Nat → Nat → Nat
  | 0, lo => lo
  | b + 1, lo => rootBits k n b (if (lo + 2 ^ b) ^ k ≤ n then lo + 2 ^ b else lo)

/-- The first 32 bits of the fractional part of the `k`-th root of `p`. -/
def rootFraction (k p : Nat) : Word := BitVec.ofNat 32 (rootBits k (p * 2 ^ (32 * k)) 40 0)

/-- The primes below 312: 64 of them. -/
def smallPrimes : List Nat := (List.range 312).filter fun n => decide (2 ≤ n) && (List.range 18).all fun d =>
  decide (d < 2) || decide (n ≤ d) || n % d != 0

/-- The chaining value before the first block: from the square roots of the first 8 primes. -/
def shaInit : List Word := (smallPrimes.take 8).map (rootFraction 2)

/-- The constants of the 64 rounds: from the cube roots of the first 64 primes. -/
def shaK : List Word := smallPrimes.map (rootFraction 3)

/-- The big-endian word of four bytes, and its bytes. -/
def beWord (b : List Byte) : Word := BitVec.ofNat 32 (b.foldl (fun a x => 256 * a + x.toNat) 0)
def beNat (n v : Nat) : List Byte := (leBytes n v).reverse

/-- The message with a 1 bit, zeros and its length in bits, to whole blocks of 64 bytes. -/
def shaPad (m : List Byte) : List Byte :=
  m ++ 0x80#8 :: List.replicate ((119 - m.length % 64) % 64) 0 ++ beNat 8 (8 * m.length)

/-- Three views of a word turned right, exclusive-or'd; the last is shifted where `shift` says so. -/
def mixWord (x : Word) (i j k : Nat) (shift : Bool) : Word :=
  x.rotateRight i ^^^ x.rotateRight j ^^^ (if shift then x >>> k else x.rotateRight k)

/-- What the 64 rounds carry: the 16 newest words of the schedule, oldest first, and the eight working words, as the two
queues that a round shifts: a b c d and e f g h. -/
structure Rounds where
  window : List Word
  top : List Word
  bottom : List Word

/-- The word that enters the schedule. -/
def Rounds.fill (r : Rounds) : Word :=
  let w := fun i => r.window.getD i 0
  w 0 + mixWord (w 1) 7 18 3 true + w 9 + mixWord (w 14) 17 19 10 true

/-- One round with constant `k`: the new a and e push their queues, and each queue loses its last word. -/
def Rounds.next (r : Rounds) (k : Word) : Rounds :=
  let a := fun i => r.top.getD i 0
  let e := fun i => r.bottom.getD i 0
  let choice := (e 0 &&& e 1) ||| (~~~(e 0) &&& e 2)
  let major := (a 0 &&& a 1) ||| (a 2 &&& (a 0 ||| a 1))
  let t := e 3 + mixWord (e 0) 6 11 25 false + choice + k + r.window.headD 0
  ⟨r.window.drop 1 ++ [r.fill], (t + mixWord (a 0) 2 13 22 false + major) :: r.top.take 3, (a 3 + t) :: r.bottom.take 3⟩

/-- One block of 64 bytes enters the chaining value. -/
def shaBlock (h : List Word) (b : List Byte) : List Word :=
  let words := (List.range 16).map fun i => beWord ((b.drop (4 * i)).take 4)
  let r := shaK.foldl Rounds.next ⟨words, h.take 4, h.drop 4⟩
  h.zipWith (· + ·) (r.top ++ r.bottom)

/-- `n` blocks of a padded message. -/
def shaBlocks : Nat → List Word → List Byte → List Word
  | 0, h, _ => h
  | n + 1, h, m => shaBlocks n (shaBlock h (m.take 64)) (m.drop 64)

/-- SHA-256 of a message: 32 bytes. -/
def sha256 (m : List Byte) : List Byte :=
  let p := shaPad m
  (shaBlocks (p.length / 64) shaInit p).flatMap fun w => beNat 4 w.toNat

end Sys2Proof.Machine
end

