-- ==== Sys2Proof/Machine/Hss.lean ====
section
/-! DEFINITION. Verification of the hash-based signatures of envelopes, images and cartridges (R213, R410, R411): HSS with
SHA-256 as RFC 8554 gives it: PRESUMED, since the spec names that document and does not restate it (log entry 38). -/
namespace Sys2Proof.Machine

open Sys2Proof

/-- The big-endian number in `n` bytes at an offset. -/
def beRead (b : List Byte) (off n : Nat) : Nat := leNat (((b.drop off).take n).reverse)

/-- A one-time signature scheme LMOTS_SHA256_N32 by its type code: Winternitz width, number of chains, and the left shift
of its checksum. -/
structure OneTime where
  w : Nat
  chains : Nat
  shift : Nat
  deriving DecidableEq, Repr

def OneTime.ofCode : Nat → Option OneTime
  | 1 => some ⟨1, 265, 7⟩
  | 2 => some ⟨2, 133, 6⟩
  | 3 => some ⟨4, 67, 4⟩
  | 4 => some ⟨8, 34, 0⟩
  | _ => none

/-- The height of a tree LMS_SHA256_M32 by its type code. -/
def treeHeight (code : Nat) : Option Nat := if 5 ≤ code ∧ code ≤ 9 then some (5 * (code - 4)) else none

/-- Domain separators of the hashes of a chain's end, a message, a leaf and an inner node. -/
def dChains := 0x8080
def dMessage := 0x8181
def dLeaf := 0x8282
def dInner := 0x8383

/-- Digit `i` of `w` bits of a string, its most significant first. -/
def digitAt (b : List Byte) (w i : Nat) : Nat := (b.getD (i * w / 8) 0).toNat / 2 ^ (8 - w * (i % (8 / w)) - w) % 2 ^ w

/-- A digest with the checksum of its digits. -/
def withChecksum (o : OneTime) (q : List Byte) : List Byte :=
  let sum := ((List.range (256 / o.w)).map fun i => 2 ^ o.w - 1 - digitAt q o.w i).sum
  q ++ beNat 2 (sum * 2 ^ o.shift)

/-- Chain `i` followed from digit `j` for `n` more steps. -/
def followChain (pre : List Byte) (i : Nat) : Nat → Nat → List Byte → List Byte
  | 0, _, x => x
  | n + 1, j, x => followChain pre i n (j + 1) (sha256 (pre ++ beNat 2 i ++ beNat 1 j ++ x))

/-- The one-time public key that a signature `sig` (type code, randomiser, chains) of leaf `q` gives for a message. -/
def oneTimeKey (o : OneTime) (tree : List Byte) (q : Nat) (message sig : List Byte) : List Byte :=
  let pre := tree ++ beNat 4 q
  let digits := withChecksum o (sha256 (pre ++ beNat 2 dMessage ++ (sig.drop 4).take 32 ++ message))
  sha256 (pre ++ beNat 2 dChains ++ (List.range o.chains).flatMap fun i =>
    let d := digitAt digits o.w i
    followChain pre i (2 ^ o.w - 1 - d) d ((sig.drop (36 + 32 * i)).take 32))

/-- The root that a path of siblings gives from a node. -/
def climb (tree : List Byte) : List (List Byte) → Nat → List Byte → List Byte
  | [], _, x => x
  | y :: path, node, x =>
    let pair := if node % 2 = 1 then y ++ x else x ++ y
    climb tree path (node / 2) (sha256 (tree ++ beNat 4 (node / 2) ++ beNat 2 dInner ++ pair))

/-- Bytes of a signature of one tree. -/
def treeSigBytes (o : OneTime) (h : Nat) : Nat := 44 + 32 * o.chains + 32 * h

/-- A signature of one tree under its 56-byte public key: tree type, one-time type, identifier, root. -/
def lmsVerify (key message sig : List Byte) : Bool :=
  match treeHeight (beRead key 0 4), OneTime.ofCode (beRead key 4 4) with
  | some h, some o =>
    let tree := (key.drop 8).take 16
    let q := beRead sig 0 4
    let at_ := 40 + 32 * o.chains
    let path := (List.range h).map fun i => (sig.drop (at_ + 4 + 32 * i)).take 32
    let leaf := sha256 (tree ++ beNat 4 (2 ^ h + q) ++ beNat 2 dLeaf ++ oneTimeKey o tree q message (sig.drop 4))
    key.length == 56 && sig.length == treeSigBytes o h && decide (q < 2 ^ h) && beRead sig 4 4 == beRead key 4 4
      && beRead sig at_ 4 == beRead key 0 4 && climb tree path (2 ^ h + q) leaf == key.drop 24
  | _, _ => false

/-- Bytes of a signature under a tree's public key. -/
def keySigBytes (key : List Byte) : Nat :=
  match treeHeight (beRead key 0 4), OneTime.ofCode (beRead key 4 4) with
  | some h, some o => treeSigBytes o h
  | _, _ => 0

/-- The signatures of `n` further levels, each over the public key of the next, and then the one over the message. -/
def hssLevels : Nat → List Byte → List Byte → List Byte → Bool
  | 0, key, message, sig => lmsVerify key message sig
  | n + 1, key, message, sig =>
    let k := keySigBytes key
    let next := (sig.drop k).take 56
    lmsVerify key next (sig.take k) && hssLevels n next message (sig.drop (k + 56))

/-- `sig` is an HSS signature over the message under a 60-byte public key of one to three levels (R410). -/
def hssVerify (key message sig : List Byte) : Bool :=
  let levels := beRead key 0 4
  key.length == 60 && decide (1 ≤ levels) && decide (levels ≤ 3) && beRead sig 0 4 + 1 == levels
    && hssLevels (levels - 1) (key.drop 4) message (sig.drop 4)

/-- The public key of a vendor root: two levels, H15 with W4 (R410). Identifier and root are the boot ROM's. -/
def rootKey (r : Nat) : List Byte :=
  beNat 4 2 ++ beNat 4 7 ++ beNat 4 3 ++ (List.range 48).map (Config.rootKeyByte r)

/-- The public key of a cartridge root: two levels, H20 with W4 (R411). -/
def cartridgeKey (k : Nat) : List Byte :=
  beNat 4 2 ++ beNat 4 8 ++ beNat 4 3 ++ (List.range 48).map (Config.cartridgeKeyByte k)

end Sys2Proof.Machine
end

