-- ==== Sys2Proof/Machine/Fabric.lean ====
section
/-! DEFINITION. The Cikel fabric (13_cikel_fabric.md): ports and links, packet cells, remote memory, circuits, tables,
cartridges. -/
namespace Sys2Proof.Machine

open Sys2Proof

/-! ### Ports -/

/-- The output that the head cell of an input takes; 24 is local (R299, R303). -/
def State.nextOutput (s : State) (c : PacketCell) : Option Nat :=
  if c.esc then
    if c.dst = s.fget FAB_MODULE.MODULE 0 then some 24 else s.escapeFor c.dst
  else if c.ptr < 14 then c.route[c.ptr]? else none

/-- The buffer of a channel at an input has room again: its credit is to be returned (R293). -/
def State.freeInput (s : State) (m buf : Nat) : State :=
  if m < 24 then s.updFp m fun p => { p with toReturn := mput zeroNat p.toReturn buf (mget zeroNat p.toReturn buf + 1) }
  else s

/-- The channel of the buffer that the cells of an input queue hold: escaped cells wait in queues 4 to 6, by the channel
whose buffer they hold. -/
def queueVc (k : Nat) : Nat := if 4 ≤ k then k - 4 else k

/-- A request that is discarded on its way to output `n` is answered with RSP 0x12 (R300, R322). -/
def State.answerQueued (s : State) (n : Nat) (q : QueuedCell) : State :=
  if !isRequest q.cell then s
  else if q.input < 24 then s.answerRsp q.input q.cell 0x12
  else s.ownRsp n q.cell

/-- Cells that wait for a port's output are discarded as LINK, those that stand in the inputs of any port as well (R322).
-/
def State.discardQueued (s : State) (n : Nat) : State :=
  let p := s.fp n
  let s := (s.setFp n { p with outq := [], circOut := [] }).fadd FAB_PORT_DISCARD.LINK n p.circOut.length
  let s := s.forEach p.outq fun q s => ((s.finc FAB_PORT_DISCARD.LINK n).freeInput q.input q.buf).answerQueued n q
  s.forEach (List.range Config.nPorts) fun m s =>
    s.forEach ((s.fp m).inputs) fun e s =>
      let gone := e.2.filter fun c => s.nextOutput c == some n
      let s := s.updFp m fun p => { p with
        inputs := mput (fun _ => []) p.inputs e.1 (e.2.filter fun c => s.nextOutput c != some n) }
      s.forEach gone fun c s =>
        ((s.finc FAB_PORT_DISCARD.LINK n).freeInput m (queueVc e.1)).answerQueued n ⟨m, queueVc e.1, consumeField c m⟩

/-- A port leaves service: its partner is no longer READY, and what waits for its output is discarded (R322). -/
def State.portLeaves (s : State) (n st code : Nat) : State :=
  let s := (s.setPort n st code).fset FAB_PORT_STATUS.PARTNER_READY n 0
  let s := s.fset FAB_PORT_STATUS.READY n 0
  (s.updFp n fun p => { p with
    credit := [], toReturn := [], blocks := [], resendAt := 0, awaiting := false, nakDue := false, naks := 0
    nakAck := none }).discardQueued n

/-- Fields of the identity record (R326). -/
def idField (c : Cartridge) (off n : Nat) : Nat := leNat ((c.identity.drop off).take n)

/-- A counterfeit cartridge holds its port in Production, unless CRT_OVERRIDE lets it go (R327). -/
def State.counterfeitHeld (s : State) (n : Nat) : Bool :=
  s.fon CRT_STATUS.COUNTERFEIT n && s.fget LCS_STATE.STATE 0 == 2 && !(s.fget CRT_OVERRIDE.PORTS 0).testBit n

/-- A port begins to train, and sends its side of the exchange: module, port, licensed features, shown as the licence's
VARIANT (R289). -/
def State.startTraining (s : State) (n : Nat) : State :=
  (s.setPort n portTraining 0).emit (.linkExchange n (s.fget FAB_MODULE.MODULE 0) (s.fget LIC_STATE.VARIANT 0))

/-- An enabled port trains if its licence, its tables and its cartridge let it (R2, R289, R323, R327). -/
def State.tryTrain (s : State) (n : Nat) : State :=
  let st := s.portState n
  if st = portTraining ∨ st = portUp ∨ st = portRetraining ∨ s.power.portsHeld then s
  else if !s.fon FAB_PORT_CTRL.ENABLE n then s
  else if !s.portLicensed n then s.setPort n portIdle 1
  else if s.fabric.spoiled.contains n then s.setPort n portHeld 5
  else if (s.fp n).cartridge.isNone || (!s.fon CRT_STATUS.VERIFIED n && !s.fon CRT_STATUS.COUNTERFEIT n) then
    s.setPort n portIdle 2
  else if s.counterfeitHeld n then s.setPort n portHeld 3
  else s.startTraining n

/-- Ports that the licence adopted by bring-up does not enable stay in, or return to, electrical idle (R1, R2). -/
def State.idleUnlicensed (s : State) : State :=
  s.forEach (List.range Config.nPorts) fun n s =>
    if s.portLicensed n || s.portState n == portIdle then s else s.portLeaves n portIdle 1

/-- CRT_OVERRIDE is written: counterfeit cartridges let their ports go, or hold them (R327). -/
def State.overrideCartridges (s : State) (v : Nat) : State :=
  (s.fset CRT_OVERRIDE.PORTS 0 v).forEach (List.range Config.nPorts) fun n s =>
    if s.portState n = portHeld ∧ s.fget FAB_PORT_STATUS.CODE n = 3 then s.tryTrain n
    else if s.counterfeitHeld n && (s.portState n == portTraining || s.portState n == portUp || s.portState n == portRetraining) then
      s.portLeaves n portHeld 3
    else s

/-- Usage and rating registers of a cartridge; it expires at its rating (R328). -/
def State.showCartridge (s : State) (n : Nat) (c : Cartridge) : State :=
  let rh := idField c 28 4
  let ri := idField c 32 2
  let s := (s.fset CRT_USE.INSERTIONS n (min c.insertions 4095)).fset CRT_USE.HOURS n (min c.hours (2 ^ 20 - 1))
  let s := (s.fset CRT_RATING.INSERTIONS n (min ri 4095)).fset CRT_RATING.HOURS n (min rh (2 ^ 20 - 1))
  if (rh ≤ c.hours ∨ ri ≤ c.insertions) && !s.fon CRT_STATUS.EXPIRED n then
    (s.fset CRT_STATUS.EXPIRED n 1).report sevWarning blkCRT Uncoded.expired.code n none []
  else s

/-- An hour in steps of 10 ns. -/
def hourSteps : Nat := 36 * 10 ^ 10

/-- The whole hours for which a port's transmitter was on are counted, and the cartridge shows them (R328). `more`: hours that
the Nose's clock counted beside those of the time base, which stands while PD_PLAT0 is in reset, DESIGN CHOICE, log entry 34.
-/
def State.countHours (s : State) (n more : Nat) : State :=
  match (s.fp n).cartridge with
  | none => s
  | some c =>
    let t := s.litTime n
    let used := (s.fp n).onAt.isSome || t != 0
    let c := { c with hours := min (c.hours + t / hourSteps + if used then more else 0) (2 ^ 32 - 1) }
    (s.updFp n fun p => { p with
      cartridge := some c, onFor := t % hourSteps, onAt := p.onAt.map fun _ => s.tally.time }).showCartridge n c

/-- The usage record is written to the cartridge (R328). -/
def State.writeUsage (s : State) (n : Nat) : State :=
  match (s.fp n).cartridge with
  | none => s
  | some c =>
    let m := s.fget FAB_MODULE.MODULE 0
    (s.updFp n fun p => { p with cartridge := some { c with lastModule := m } }).emit
      (.cartridgeWrite n c.hours c.insertions m)

/-- FAB_PORT_CTRL.ENABLE (R289, R2). -/
def State.portEnable (s : State) (n : Nat) (on : Bool) : State :=
  if on then
    if !s.portLicensed n then s.fset FAB_PORT_STATUS.CODE n 1
    else (s.fset FAB_PORT_CTRL.ENABLE n 1).tryTrain n
  else
    let was := s.fon FAB_PORT_CTRL.ENABLE n
    let s := (s.fset FAB_PORT_CTRL.ENABLE n 0).portLeaves n portIdle 0
    if was then (s.countHours n 0).writeUsage n else s

def execPortEnable (port : Nat) (on : Bool) (s : State) : Host.Outcome State Fault Refusal :=
  onUnit (okPort port) (s.writeTo .FAB_PORT_CTRL port fun s => s.portEnable port on)

/-- A retrain starts, and is counted (R292). -/
def State.retrain (s : State) (n : Nat) : State :=
  if s.portState n = portUp then
    ((s.setPort n portRetraining (s.fget FAB_PORT_STATUS.CODE n)).finc FAB_PORT_LINK_ERR.RETRAINS n).updFp n
      fun p => { p with naks := 0, nakAck := none }
  else s

/-- Cells that wait at the outputs of other ports and still hold buffers of a port's inputs are discarded with it (R324). -/
def State.dropHeld (s : State) (n : Nat) : State :=
  s.forEach (List.range Config.nPorts) fun m s =>
    let l := (s.fp m).outq.filter fun q => q.input == n
    let s := s.updFp m fun p => { p with outq := p.outq.filter fun q => q.input != n }
    s.forEach l fun q s => ((s.finc FAB_PORT_DISCARD.LINK n).freeInput n q.buf).answerQueued m q

/-- A fabric port reset (R324): the port's buffered cells, at its inputs and outputs and in its input buffers, are discarded as
LINK, and the port retrains, or trains where it is not UP. -/
def State.resetPort (s : State) (n : Nat) : State :=
  let p := s.fp n
  let s := s.setFp n { p with inputs := [], delivered := [], circuitIn := [], parts := [], outq := [], circOut := [] }
  let loose := p.circuitIn.length + p.circOut.length + (p.parts.map fun e => e.2.length).sum
  let s := s.fadd FAB_PORT_DISCARD.LINK n loose
  let s := s.forEach p.inputs fun e s => s.forEach e.2 fun c s =>
    (s.freeInput n (queueVc e.1)).discardCell n FAB_PORT_DISCARD.LINK c
  let s := s.forEach p.delivered fun c s =>
    (s.finc FAB_PORT_DISCARD.LINK n).answerQueued n ⟨n, c.vc, c⟩
  let s := s.forEach p.outq fun q s => ((s.finc FAB_PORT_DISCARD.LINK n).freeInput q.input q.buf).answerQueued n q
  let s := s.dropHeld n
  let s := if s.portState n = portUp then s.retrain n else s.tryTrain n
  let st := s.portState n
  s.updFp n fun p => { p with resetting := st == portTraining || st == portRetraining }

/-- FAB_PORT_CTRL.RESET: a port whose reset still lasts is left, and the command counted (R376). -/
def State.portReset (s : State) (n : Nat) : State :=
  if (s.fp n).resetting then (if s.up (domPlat 0) then s.finc RST_STATUS.IGNORED 0 else s) else s.resetPort n

def execPortReset (port : Nat) (s : State) : Host.Outcome State Fault Refusal :=
  onUnit (okPort port) (s.writeTo .FAB_PORT_CTRL port fun s => s.portReset port)

def execPortRetrain (port : Nat) (s : State) : Host.Outcome State Fault Refusal :=
  onUnit (okPort port) (s.writeTo .FAB_PORT_CTRL port fun s => s.retrain port)

/-- Cells that an input holds for each virtual channel (R293). -/
def inputDepth (vc : Nat) : Nat := match vc with | 0 => 96 | 1 => 96 | 2 => 16 | _ => 64

/-- Cells that hold the buffer of a channel of a port's input: at the input, or on their way to an output. -/
def State.inputUsed (s : State) (n vc : Nat) : Nat :=
  (((s.fp n).inputs.filter fun e => queueVc e.1 == vc).map fun e => e.2.length).sum
    + ((List.range Config.nPorts).map fun m => (s.fp m).outq.countP fun q => q.input == n && q.buf == vc).sum

/-- Credits of a port's input buffers, advertised with READY once the routes are valid (R293, R321). -/
def State.advertise (s : State) (n : Nat) : State :=
  if s.portState n = portUp && s.fon FAB_ROUTE_VALID.VALID 0 && !s.fon FAB_PORT_STATUS.READY n then
    (s.fset FAB_PORT_STATUS.READY n 1).updFp n fun p => { p with
      toReturn := mputs zeroNat [] ((List.range 4).map fun v => (v, inputDepth v - s.inputUsed n v)) }
  else s

/-- Training ends: neighbour, its licensed features, delay, UP (R289). -/
def State.trained (s : State) (n m peer delay features : Nat) : State :=
  if s.portState n = portTraining && s.portLicensed n then
    let s := ((s.fset FAB_PORT_NEIGHBOUR.VALID n 1).fset FAB_PORT_NEIGHBOUR.PORT n peer).fset FAB_PORT_NEIGHBOUR.MODULE n m
    let s := (s.fset FAB_PORT_DELAY.DELAY n (min delay 0xFFFF)).setPort n portUp 0
    (s.updFp n fun p => { p with
      expect := 0, awaiting := false, nakDue := false, naks := 0, nakAck := none, credit := [], nextSeq := 0, blocks := []
      resendAt := 0, partner := features }).advertise n
  else s

def execLinkTrainingComplete (port : Nat) (partner : LinkPartner) (peerPort delayNs : Nat) (s : State) :
    Host.Outcome State Fault Refusal :=
  onUnit (okPort port) (s.trained port partner.module peerPort delayNs partner.features)

def execTrainFailed (port : Nat) (s : State) : Host.Outcome State Fault Refusal :=
  onUnit (okPort port) (if s.portState port = portTraining then s.setPort port portIdle 4 else s)

/-- The partner is gone: the port goes DOWN (R346, R322). -/
def State.linkDown (s : State) (n : Nat) : State :=
  if s.portState n = portUp ∨ s.portState n = portRetraining ∨ s.portState n = portTraining then s.portLeaves n portDown 0
  else s

def execLinkDown (port : Nat) (s : State) : Host.Outcome State Fault Refusal := onUnit (okPort port) (s.linkDown port)

/-! ### Link blocks -/

/-- Blocks are sent again from the start of the replay buffer, in order (R292). -/
def State.resend (s : State) (n : Nat) : State := s.updFp n fun p => { p with resendAt := 0 }

/-- The partner has the blocks up to ACK: they leave the replay buffer (R291, R292). -/
def FabPort.acked (p : FabPort) (ack : Nat) : FabPort :=
  match p.blocks.findIdx? fun b => b.seq == ack with
  | some i => { p with blocks := p.blocks.drop (i + 1), resendAt := p.resendAt - (i + 1) }
  | none => p

/-- The partner's NAK: the blocks after ACK are sent again; NAKs in a row for one block are counted (R292). -/
def State.takeNak (s : State) (n ack : Nat) : State :=
  let p := s.fp n
  let k := if p.nakAck = some ack then p.naks + 1 else 1
  (s.setFp n { p with naks := k, nakAck := some ack }).resend n

/-- The cells of a good block take their places in the input buffers. A partner sends no packet cell without a credit
(R293), so one for which there is no room does not come. -/
def State.placeCells (s : State) (n : Nat) (l : List Cell) : State :=
  s.forEach l fun c s =>
    match c with
    | .packet c =>
      if s.inputUsed n c.vc < inputDepth c.vc then
        s.updFp n fun p => { p with inputs := mput (fun _ => []) p.inputs c.vc (mget (fun _ => []) p.inputs c.vc ++ [c]) }
      else s
    | .circuit c => s.updFp n fun p => { p with circuitIn := p.circuitIn ++ [c] }
    | _ => s

/-- A link block that is good and in order (R291, R292). -/
def State.acceptBlock (s : State) (n : Nat) (b : LinkBlock) : State :=
  let s := s.fbit FAB_PORT_STATUS.PARTNER_READY n b.ready
  let s := s.updFp n fun p => { (p.acked b.ack) with
    expect := (b.seq + 1) % 4096, awaiting := false,
    naks := if b.nak then p.naks else 0, nakAck := if b.nak then p.nakAck else none,
    credit := mputs zeroNat p.credit ((List.range 4).map fun v => (v, mget zeroNat p.credit v + b.credit.getD v 0)) }
  let s := if b.nak then s.takeNak n b.ack else s
  if b.btype = 0 && s.fon FAB_PORT_STATUS.READY n then s.placeCells n b.cells else s

/-- A single-bit error in a table's entry is corrected, and noted for its row (R144, R145, R323). -/
def State.tableCorrected (s : State) (n : Nat) (e : Option (FabTable × Nat)) : State :=
  match e with
  | some (t, i) => s.noteRow (fabArray n t) i
  | none => s

/-- LINK_BLOCK (R290 to R292): a block that is bad or out of order makes a NAK due, which the next block of this side
carries; while a resend is awaited, later blocks are discarded without another. -/
def State.linkBlock (s : State) (n : Nat) (b : LinkBlock) : State :=
  if s.portState n = portUp then
    let s := (s.fadd FAB_PORT_FEC.CORRECTED n b.corrected).tableCorrected n b.tableError
    if b.btype = 2 then s
    else if b.good && b.seq == (s.fp n).expect then s.acceptBlock n b
    else if b.good && (s.fp n).awaiting then s
    else s.updFp n fun p => { p with awaiting := true, nakDue := true }
  else s

def execLinkBlock (port : Nat) (block : LinkBlock) (s : State) : Host.Outcome State Fault Refusal :=
  onUnit (okPort port && block.ok) (s.linkBlock port block)

/-- NAK_RETRAIN: 8 NAKs in a row for one block (R292). -/
def execNakRetrain (port : Nat) (s : State) : Host.Outcome State Fault Refusal :=
  onUnit (okPort port) (if 8 ≤ (s.fp port).naks then s.retrain port else s)

/-- A retrain ends (R292). -/
def State.retrained (s : State) (n : Nat) (ok : Bool) : State :=
  if s.portState n = portRetraining then
    if ok then ((s.setPort n portUp 0).resend n).advertise n else s.portLeaves n portDown 6
  else s

def execRetrainComplete (port : Nat) (ok : Bool) (s : State) : Host.Outcome State Fault Refusal :=
  onUnit (okPort port) (s.retrained port ok)

/-! ### Packet cells -/

/-- The input queue that a VC's next cell stands in. -/
def inputQueue (p : FabPort) (vc : Nat) : Nat :=
  if vc = 3 then
    match [4, 5, 6].find? fun k => !(mget (fun _ => []) p.inputs k).isEmpty with
    | some k => k
    | none => 3
  else vc

/-- The head cell of an input queue leaves it; it still holds its buffer. -/
def State.leaveQueue (s : State) (n k : Nat) : State :=
  s.updFp n fun p => { p with inputs := mput (fun _ => []) p.inputs k ((mget (fun _ => []) p.inputs k).drop 1) }

/-- The head cell of an input is gone: its buffer's credit is to be returned. -/
def State.popInput (s : State) (n k : Nat) : State := (s.leaveQueue n k).freeInput n (queueVc k)

/-- A cell of a channel of an input, at the head of it, waits for an output that was found for it: the output's port. -/
def State.waitsAt (s : State) (n vc : Nat) : Option Nat :=
  (List.range Config.nPorts).find? fun m => (s.fp m).outq.any fun q => q.input == n && q.cell.vc == vc

/-- A cell of input `n` with its field consumed goes to an output, and holds the buffer of channel `buf` until the output
sends it; 24 delivers it (R299). An escaped one that meets an entry known bad is discarded as TABLE (R323). -/
def State.toOutput (s : State) (n buf out : Nat) (c : PacketCell) : State :=
  if c.esc && out != 24 && (s.fp n).badEscape.contains c.dst then (s.finc FAB_PORT_DISCARD.TABLE n).freeInput n buf
  else if out = 24 then (s.freeInput n buf).updFp n fun p => { p with delivered := p.delivered ++ [c] }
  else if out > 24 || s.portState out != portUp then
    ((s.finc FAB_PORT_DISCARD.ROUTE n).freeInput n buf).answerQueued n ⟨n, buf, c⟩
  else s.updFp out fun p => { p with outq := p.outq ++ [⟨n, buf, c⟩] }

/-- PACKET_CELL_FORWARD (R299 to R304): the head of an input's channel goes to the output that its field or the escape
table names, or is delivered, or is discarded. The one before it must have left its output. -/
def State.forwardCell (s : State) (n vc : Nat) : State :=
  let k := inputQueue (s.fp n) vc
  match (mget (fun _ => []) (s.fp n).inputs k) with
  | [] => s
  | c :: _ =>
    let wrong := match kindVc c.kind with
      | none => true
      | some v => if c.esc then c.vc != 3 else c.vc != v
    let bad := wrong || (c.ptr == 1 && c.src != s.fget FAB_PORT_NEIGHBOUR.MODULE n)
    if (s.waitsAt n vc).isSome then s
    else
      match if bad then none else s.nextOutput c with
      | none => (s.popInput n k).discardCell n FAB_PORT_DISCARD.ROUTE c
      | some out => (s.leaveQueue n k).toOutput n (queueVc k) out (consumeField c n)

def execPacketCellForward (port vc : Nat) (s : State) : Host.Outcome State Fault Refusal :=
  onUnit (okPort port && okVc vc) (s.forwardCell port vc)

/-- A cell that moves to VC3 (R303). -/
def escaped (c : PacketCell) : PacketCell := { c with vc := 3, esc := true }

/-- A cell of input `n` that waits for output `m` moves to VC3, and to the output of its escape entry. -/
def State.escapeWaiting (s : State) (n vc m : Nat) : State :=
  match (s.fp m).outq.find? fun q => q.input == n && q.cell.vc == vc with
  | none => s
  | some q =>
    let s := (s.updFp m fun p => { p with outq := p.outq.erase q }).finc FAB_PORT_ESCAPED.COUNT n
    let c := escaped q.cell
    match s.nextOutput c with
    | some out => s.toOutput n q.buf out c
    | none => ((s.finc FAB_PORT_DISCARD.ROUTE n).freeInput n q.buf).answerQueued n { q with cell := c }

/-- ESCAPE_TIMEOUT (R303): the head of VC0, VC1 or VC2 moves to VC3. -/
def State.escape (s : State) (n vc : Nat) : State :=
  if 3 ≤ vc then s
  else
    match s.waitsAt n vc, mget (fun _ => []) (s.fp n).inputs vc with
    | some m, _ => s.escapeWaiting n vc m
    | none, c :: t =>
      (s.updFp n fun p => { p with
        inputs := mput (fun _ => []) (mput (fun _ => []) p.inputs vc t) (4 + vc)
          (mget (fun _ => []) p.inputs (4 + vc) ++ [escaped c]) }).finc FAB_PORT_ESCAPED.COUNT n
    | none, [] => s

def execEscapeTimeout (port vc : Nat) (s : State) : Host.Outcome State Fault Refusal :=
  onUnit (okPort port && okVc vc) (s.escape port vc)

/-- A delivered cell is taken up. -/
def State.takeCell (s : State) (n : Nat) (c : PacketCell) : State :=
  s.updFp n fun p => { p with delivered := p.delivered.erase c }

/-! ### Remote memory: the target -/

/-- Blocks of memory, read one by one. -/
def State.remoteBlocks (s : State) (c a n : Nat) : List MemRead × State :=
  (List.range n).foldl (fun (acc : List MemRead × State) i =>
    let (m, s) := acc.2.memRead c (a + 64 * i) 64 true
    (acc.1 ++ [m], s)) ([], s)

/-- RREQ (R264, R317): a refusal or a failed access answers RSP; otherwise RDATA cells, those of a poisoned block marked
(R263). -/
def State.rreq (s : State) (n : Nat) (c : PacketCell) : State :=
  let s := s.takeCell n c
  let r := Request.ofCell c
  match s.windowCheck r c.src false with
  | .inl st => (s.windowDeny r st).answerRsp n c st
  | .inr a =>
    if !s.remoteOk n r.rcx a r.length then s.answerRsp n c 0x12
    else
      let (l, s) := s.remoteBlocks r.rcx a (r.length / 64)
      if l.any (·.fenced) then s.answerRsp n c 0x12
      else s.forEach (List.range (r.length / 32)) fun i s =>
        let m := l.getD (i / 2) ⟨[], false, false⟩
        s.answerData n c i ((m.bytes.drop (32 * (i % 2))).take 32) m.poison

/-- WREQ (R264): a refusal answers RSP, and an accepted one waits for its WDATA cells. -/
def State.wreq (s : State) (n : Nat) (c : PacketCell) : State :=
  let s := s.takeCell n c
  let r := Request.ofCell c
  match s.windowCheck r c.src true with
  | .inl st => (s.windowDeny r st).answerRsp n c st
  | .inr a =>
    { s with fabric := { s.fabric with writes := s.fabric.writes ++
      [({ src := c.src, xid := c.xid, port := n, cell := c, cx := r.rcx, addr := a, len := r.length, bad := false,
          data := [], took := s.tookBy r.rcx a r.length } : RemoteWrite)] } }

def State.dropWrite (s : State) (w : RemoteWrite) : State :=
  { s with fabric := { s.fabric with writes := s.fabric.writes.filter fun x => !(x.src == w.src && x.xid == w.xid) } }

/-- WDATA (R316, R317): written to the target's pages as it arrives; the last one answers RSP. -/
def State.wdata (s : State) (n : Nat) (c : PacketCell) : State :=
  match s.fabric.writes.find? fun w => w.src == c.src && w.xid == c.xid with
  | none => s
  | some w =>
    let s := s.takeCell n c
    let a := w.addr + 32 * c.index
    if w.data.any (fun e => e.1 == c.index) || decide (32 * c.index ≥ w.len) then s
    else
      let (f, s) := s.acceptedWrite n w a c.payload c.poison
      let w := { w with bad := w.bad || f, data := w.data ++ [(c.index, c.payload)] }
      let s := s.dropWrite w
      if w.data.length = w.len / 32 then s.answerRsp w.port w.cell (if w.bad then 0x12 else 0)
      else { s with fabric := { s.fabric with writes := s.fabric.writes ++ [w] } }

def execRreq (port : Nat) (cell : PacketCell) (s : State) : Host.Outcome State Fault Refusal :=
  onUnit (okPort port && cell.ok) (s.rreq port cell)

def execWreq (port : Nat) (cell : PacketCell) (s : State) : Host.Outcome State Fault Refusal :=
  onUnit (okPort port && cell.ok) (s.wreq port cell)

def execWdata (port : Nat) (cell : PacketCell) (s : State) : Host.Outcome State Fault Refusal :=
  onUnit (okPort port && cell.ok) (s.wdata port cell)

/-! ### Remote memory: the requester -/

/-- The transactions outstanding to a module (R316). -/
def State.txTo (s : State) (m : Nat) : List RemoteTx := s.fabric.tx.filter fun t => t.toModule == m

def State.dropTx (s : State) (p : RemoteTx → Bool) : State :=
  { s with fabric := { s.fabric with tx := s.fabric.tx.filter fun t => !p t } }

/-- The blocks from byte `off` of a request that its next transaction takes: at most 4 (R316), and of a write from memory those
before one that the engine cannot read, which is judged alone (R263). -/
def State.txBlocks (s : State) (L c : Nat) (q : DmaReq) (off : Nat) : Nat :=
  let n := min 256 (q.length - off) / 64
  if q.op == 9 || q.lvault then n
  else ((List.range n).takeWhile fun i => (s.memRefusal (.cluster L 2) c (q.src + off + 64 * i)).isNone).length

/-- A block of the local side of a remote write, and whether it is poisoned. -/
def State.txBlock (s : State) (L c : Nat) (q : DmaReq) (a : Nat) : (List Byte × Bool) × State :=
  if q.lvault then let (b, p, s) := s.vload L a 64 .dma; ((b, p), s)
  else let (r, s) := s.memRead c a 64 true; ((r.bytes, r.poison), s)

def State.txData (s : State) (L c : Nat) (q : DmaReq) (a n : Nat) : List (List Byte × Bool) × State :=
  (List.range n).foldl (fun (acc : List (List Byte × Bool) × State) i =>
    let (b, s) := acc.2.txBlock L c q (a + 64 * i)
    (acc.1 ++ [b], s)) ([], s)

/-- A block that the engine cannot read is skipped: the request will complete with DMA_FENCED (R263). -/
def State.skipBlock (s : State) (L c : Nat) (q : DmaReq) (off : Nat) : State :=
  let s := match s.memRefusal (.cluster L 2) c (q.src + off) with
    | some u => s.countRefused (.cluster L 2) u
    | none => s
  s.updReq L q.tag fun q => { q with moved := off + 64, fenced := true }

/-- One transaction is sent by port `via`: at most 256 B from byte `off` of the request. Data of a poisoned block go with their
mark (R263). -/
def State.sendTx (s : State) (L c via : Nat) (q : DmaReq) (route : List Nat) (off : Nat) : State :=
  let n := s.txBlocks L c q off
  let len := 64 * n
  let xid := ((List.range 512).find? fun x => !((s.txTo q.module).any fun t => t.xid == x)).getD 0
  let read := q.op == 9
  let offset := (if read then q.src else q.dst) + off
  let local_ := (if read then q.dst else q.src) + off
  let body := (Request.toBytes ⟨q.peer, q.rcx, q.key, offset, len⟩)
  let next := fun (s : State) => s.updReq L q.tag fun q => { q with moved := off + len, waiting := q.waiting + 1 }
  let tx : RemoteTx := { toModule := q.module, xid := xid, cluster := L, tag := q.tag, read := read, addr := local_,
                         len := len, got := [] }
  let open_ := fun (s : State) => next { s with fabric := { s.fabric with tx := s.fabric.tx ++ [tx] } }
  if n = 0 then s.skipBlock L c q off
  else if read then open_ (s.sendByTable via (newCell 0 q.module xid 0 route body))
  else
    let (l, s) := s.txData L c q local_ n
    let s := s.updReq L q.tag fun q => { q with poison := q.poison || l.any (·.2) }
    let s := open_ (s.sendByTable via (newCell 1 q.module xid 0 route body))
    s.forEach (List.range (len / 32)) fun i s =>
      let (b, bad) := l.getD (i / 2) ([], false)
      s.sendByTable via { newCell 2 q.module xid i route ((b.drop (32 * (i % 2))).take 32) with poison := bad }

/-- Transactions are sent while at most 512 are outstanding to the module (R316). -/
def State.sendTxs (s : State) (L c via tag : Nat) (route : List Nat) : Nat → State
  | 0 => s
  | k + 1 =>
    match s.dmaReq L tag with
    | none => s
    | some q =>
      if q.moved ≥ q.length then s.updReq L tag fun q => { q with issued := true }
      else if (s.txTo q.module).length ≥ 512 then s
      else (s.sendTx L c via q route q.moved).sendTxs L c via tag route k

/-- The request that goes on with its transactions: one that starts, or one that still has some to send. -/
def State.remoteNext (s : State) (L tag op : Nat) : Option (Nat × DmaReq) :=
  match s.starting L tag op with
  | some x => some x
  | none =>
    match s.owner L, s.dmaReq L tag with
    | some c, some q => if s.reachable L && q.op == op && q.started && !q.issued then some (c, q) else none
    | _, _ => none

/-- RREAD and RWRITE (R316, R298, R139): its cells enter the fabric at the nearest port of the cluster's partition. -/
def State.remote (s : State) (L tag op : Nat) : State :=
  match s.remoteNext L tag op with
  | none => s
  | some (c, q) =>
    match s.routeFor q.module with
    | none => s.movedNone L tag 0x12
    | some route =>
      let via := s.portNear L
      if (s.askRefusal (.cluster L 2) (.port via)).isSome then
        (s.countRefused (.cluster L 2) (.port via)).movedNone L tag 0x12
      else
      let here := if op = 9 then q.dst else q.src
      let ok := !q.lvault || (if op = 9 then s.writeOk L here q.length .dma else s.readOk L here q.length)
      if !q.started && !ok then (s.violate L here).movedNone L tag 0x14
      else (s.updReq L tag fun q => { q with started := true }).sendTxs L c via tag route (q.length / 64 + 2)

def execRread (cluster tag : Nat) (s : State) : Host.Outcome State Fault Refusal :=
  onUnit (okCluster cluster && okTag tag) (s.remote cluster tag 9)

def execRwrite (cluster tag : Nat) (s : State) : Host.Outcome State Fault Refusal :=
  onUnit (okCluster cluster && okTag tag) (s.remote cluster tag 10)

/-- Bytes of a remote read that arrived at port `n` reach their place: the vault, or context memory, where they may be refused;
those of a poisoned block become zeros in a vault and POISON in memory (R263). A request that was abandoned has none, and a
partition whose drain has ended drops them as late (R381). -/
def State.placeRemote (s : State) (n : Nat) (t : RemoteTx) (a : Nat) (b : List Byte) (poison : Bool) : Bool × State :=
  if s.lateAt (s.hostPart t.cluster) then (false, s.finc FNC_PART_STATUS.LATE (s.hostPart t.cluster))
  else
    match s.dmaReq t.cluster t.tag, s.owner t.cluster with
    | some q, some c =>
      if q.lvault then
        if (s.transit (s.unitXY (.port n) (s.clusterXY t.cluster)) (s.clusterXY t.cluster)).isSome then (true, s)
        else (false, s.vstore t.cluster a (if poison then List.replicate b.length 0 else b) .dma)
      else if (s.memWriteRefusal (.port n) c a).isSome then (true, s)
      else s.memWrite c a b poison
    | _, _ => (false, s)

/-- RDATA (R316): placed by XID and INDEX. -/
def State.rdata (s : State) (n : Nat) (c : PacketCell) : State :=
  let s := s.takeCell n c
  match s.fabric.tx.find? fun t => t.toModule == c.src && t.xid == c.xid && t.read with
  | none => s
  | some t =>
    if t.got.contains c.index || decide (32 * c.index ≥ t.len) then s
    else
      let (f, s) := s.placeRemote n t (t.addr + 32 * c.index) c.payload c.poison
      let t' := { t with got := t.got ++ [c.index] }
      let s := s.updReq t.cluster t.tag fun q => { q with fenced := q.fenced || f, poison := q.poison || c.poison }
      let s := s.dropTx fun x => x.toModule == t.toModule && x.xid == t.xid
      if t'.got.length = t.len / 32 then
        s.updReq t.cluster t.tag fun q => { q with waiting := q.waiting - 1 }
      else { s with fabric := { s.fabric with tx := s.fabric.tx ++ [t'] } }

/-- The transaction that an RSP is about: of the module that answers; or, where a module on the way refused it with 0x12
(R300), the first with its XID, which is all that such an answer shows of it: DESIGN CHOICE. -/
def State.txOf (s : State) (c : PacketCell) (st : Nat) : Option RemoteTx :=
  (s.fabric.tx.find? fun t => t.toModule == c.src && t.xid == c.xid).orElse fun _ =>
    if st = 0x12 then s.fabric.tx.find? fun t => t.xid == c.xid else none

/-- RSP (R316): a transaction completes; the first failing status completes the request. -/
def State.rsp (s : State) (n : Nat) (c : PacketCell) : State :=
  let s := s.takeCell n c
  let st := leNat (c.payload.take 1)
  match s.txOf c st with
  | none => s
  | some t =>
    let s := if s.lateAt (s.hostPart t.cluster) then s.finc FNC_PART_STATUS.LATE (s.hostPart t.cluster) else s
    if st = 0 ∨ t.tag = abandonedTag then
      (s.dropTx fun x => x.toModule == t.toModule && x.xid == t.xid).updReq t.cluster t.tag fun q =>
        { q with waiting := q.waiting - 1 }
    else
      (s.dropTx fun x => x.cluster == t.cluster && x.tag == t.tag).updReq t.cluster t.tag fun q =>
        { q with waiting := 0, issued := true, poison := q.poison || st == 0x11, status := if q.status = 0 then st else q.status }

def execRdata (port : Nat) (cell : PacketCell) (s : State) : Host.Outcome State Fault Refusal :=
  onUnit (okPort port && cell.ok) (s.rdata port cell)

def execRsp (port : Nat) (cell : PacketCell) (s : State) : Host.Outcome State Fault Refusal :=
  onUnit (okPort port && cell.ok) (s.rsp port cell)

/-! ### CREDIT and TRIGGER cells -/

/-- The binding that a CREDIT cell addresses, and its SSEQ (R296). -/
def State.creditCell (s : State) (c : PacketCell) (inbound : Bool) : Option (Nat × Nat) :=
  let n := leNat c.payload
  (s.bindingOf (bitsOf n 32 28) inbound (bitsOf n 27 16)).map fun k => (k, bitsOf n 95 64)

/-- A half has started to go out. -/
def Binding.started (b : Binding) (sseq : Nat) : Bool := b.sealed.any fun h => h.sseq == sseq && h.sent

def State.grantCell (s : State) (n : Nat) (c : PacketCell) : State :=
  match s.creditCell c false with
  | some (k, sseq) =>
    (s.takeCell n c).setBinding k { s.binding k with grants := (s.binding k).grants ++ [sseq] }
  | none => s.takeCell n c

/-- The SEND endpoint of an outbound binding holds some credits for its half (R312). -/
def State.halfCredits (s : State) (k n : Nat) : State :=
  match (s.binding k).target with
  | some (L, q) =>
    match s.ep L q with
    | some e => if e.send && e.fabric then s.setEp L q { e with credits := n } else s
    | none => s
  | none => s

/-- A free half opens for the running segment of an outbound binding, with T credits; while none is free, QSEND has no credit
and waits (R312). -/
def State.openHalf (s : State) (k : Nat) : State :=
  let b := s.binding k
  if b.active && b.open_.isNone && b.target.isSome then
    if b.sealed.length < 2 then (s.setBinding k { b with open_ := some [] }).halfCredits k (s.halfTokens k)
    else s.halfCredits k 0
  else s

def State.ackCell (s : State) (n : Nat) (c : PacketCell) : State :=
  match s.creditCell c false with
  | some (k, sseq) =>
    let s := (s.takeCell n c).setBinding k { s.binding k with
      sealed := (s.binding k).sealed.filter fun h => h.sseq != sseq
      grants := (s.binding k).grants.filter (· != sseq) }
    s.openHalf k
  | none => s.takeCell n c

/-- REVOKE (R315): a GRANT whose half has not started is dropped and answered REVOKED. -/
def State.revokeCell (s : State) (n : Nat) (c : PacketCell) : State :=
  match s.creditCell c false with
  | some (k, sseq) =>
    let s := s.takeCell n c
    if (s.binding k).started sseq then s
    else (s.setBinding k { s.binding k with grants := (s.binding k).grants.filter (· != sseq) }).sendCredit k 3 sseq 0
  | none => s.takeCell n c

def State.revokedCell (s : State) (n : Nat) (c : PacketCell) : State :=
  match s.creditCell c true with
  | some (k, sseq) =>
    (s.takeCell n c).setBinding k { s.binding k with granted := (s.binding k).granted.filter (· != sseq) }
  | none => s.takeCell n c

def execGrant (port : Nat) (cell : PacketCell) (s : State) : Host.Outcome State Fault Refusal :=
  onUnit (okPort port && cell.ok) (s.grantCell port cell)

def execAck (port : Nat) (cell : PacketCell) (s : State) : Host.Outcome State Fault Refusal :=
  onUnit (okPort port && cell.ok) (s.ackCell port cell)

def execRevoke (port : Nat) (cell : PacketCell) (s : State) : Host.Outcome State Fault Refusal :=
  onUnit (okPort port && cell.ok) (s.revokeCell port cell)

def execRevoked (port : Nat) (cell : PacketCell) (s : State) : Host.Outcome State Fault Refusal :=
  onUnit (okPort port && cell.ok) (s.revokedCell port cell)

/-- TRIGGER (R440): the tally is adopted, and a pair that is new is remembered and forwarded. -/
def State.triggerIn (s : State) (n : Nat) (c : PacketCell) : State :=
  let s := s.takeCell n c
  let v := leNat c.payload
  let tally := bitsOf v 63 0
  let id := bitsOf v 79 64
  let origin := bitsOf v 95 80
  if s.nose.pairs.contains (origin, id) then s
  else
    let late := decide (tally ≤ s.tally.count)
    let s := { s with nose := { s.nose with
      triggers := s.nose.triggers ++
        [({ tally := if late then s.tally.count + 1 else tally, source := 4, late := late, origin := origin, id := id } : Trigger)] } }
    let s := s.rememberPair (origin, id)
    if s.fget SNP_FWD.PORTS 0 != 0 then s.sendTriggers tally id origin else s

def execTrigger (port : Nat) (cell : PacketCell) (s : State) : Host.Outcome State Fault Refusal :=
  onUnit (okPort port && cell.ok) (s.triggerIn port cell)

/-! ### Circuits -/

/-- Fields of a circuit table entry (FAB_TABLE_DATA). -/
def entAction (e : Nat) : Nat := bitsOf e 2 0
def entOutPort (e : Nat) : Nat := bitsOf e 7 3
def entOutCircuit (e : Nat) : Nat := bitsOf e 19 8
def entBind (e : Nat) : Nat := bitsOf e 27 20

/-- The circuit table bank of a phase (R309): the current one, the previous one, or none. -/
def State.bankFor (s : State) (n phase : Nat) : Option (NMap Nat) :=
  if !s.inStep || phase == s.tally.count % 4 then some (s.fp n).ccur
  else if (phase + 1) % 4 = s.tally.count % 4 then some (s.fp n).cprev
  else none

/-- A circuit cell goes on to an output, where it waits for a slot (R306, R321, R322, R324). -/
def State.forwardCircuit (s : State) (n : Nat) (e : Nat) (c : CircuitCell) : State :=
  let out := entOutPort e
  if out < 24 && s.circuitOpen out then s.queueCircuit n out { c with circuit := entOutCircuit e }
  else s.finc FAB_PORT_DISCARD.LINK n

/-- Circuit cells that wait at the outputs are discarded as LINK when LOST is set (R322, R324). -/
def State.dropCircuits (s : State) : State :=
  s.forEach (List.range Config.nPorts) fun n s =>
    let k := (s.fp n).circOut.length
    if k = 0 then s else (s.updFp n fun p => { p with circOut := [] }).fadd FAB_PORT_DISCARD.LINK n k

/-- Cells of a token gather in order; the eighth makes the token (R311). Answers the token's bytes with its prefix. The
cells of a broken token are discarded as TABLE, those already gathered among them. -/
def State.gather (s : State) (n : Nat) (c : CircuitCell) : Option (List Byte) × State :=
  let got := mget (fun _ => []) (s.fp n).parts c.circuit
  let set := fun (s : State) (l : List CircuitCell) =>
    s.updFp n fun p => { p with parts := mput (fun _ => []) p.parts c.circuit l }
  if c.part = got.length then
    if c.part = 7 then (some ((got ++ [c]).flatMap (·.payload)), set s []) else (none, set s (got ++ [c]))
  else
    let s := s.fadd FAB_PORT_DISCARD.TABLE n (got.length + if c.part = 0 then 0 else 1)
    (none, set s (if c.part = 0 then [c] else []))

/-- A whole token for an inbound binding or a pass buffer: SSEQ, INDEX, TOTAL, and the token (R311). -/
def tokenOfCells (b : List Byte) : Nat × Nat × Nat × Token :=
  (leNat (b.take 4), bitsOf (leNat ((b.drop 4).take 4)) 23 0, bitsOf (leNat ((b.drop 8).take 4)) 23 0,
    tokenOfBytes (b.drop 32))

/-- A cell is given to an inbound binding (R314, R325). -/
def State.deliverCircuit (s : State) (n k : Nat) (c : CircuitCell) : State :=
  if !s.logsReached n then s.finc FAB_PORT_DISCARD.LINK n
  else
    match s.gather n c with
    | (none, s) => s
    | (some b, s) => let (q, i, t, x) := tokenOfCells b; s.logToken k q i t x

/-- A cell enters the pass buffer of a contribution binding (R318, R325). -/
def State.passCircuit (s : State) (n k : Nat) (c : CircuitCell) : State :=
  if !s.logsReached n then s.finc FAB_PORT_DISCARD.LINK n
  else
    match s.gather n c with
    | (none, s) => s
    | (some b, s) => s.setBinding k { s.binding k with pass := (s.binding k).pass ++ [tokenOfCells b] }

/-- CIRCUIT_CELL (R306, R309). An ADD entry under a licence without fabric clearing (R1) counts as INVALID. -/
def State.circuitCell (s : State) (n : Nat) (c : CircuitCell) : State :=
  let s := s.updFp n fun p => { p with circuitIn := p.circuitIn.erase c }
  match s.bankFor n c.phase with
  | none => s.finc FAB_PORT_DISCARD.LATE n
  | some bank =>
    let e := mget zeroNat bank c.circuit
    let k := n * 256 + entBind e
    if (s.fp n).badCircuit.contains c.circuit || (decide (4 ≤ entAction e) && !s.clearingLicensed) then
      s.finc FAB_PORT_DISCARD.TABLE n
    else
      match entAction e with
      | 1 => s.forwardCircuit n e c
      | 2 => s.deliverCircuit n k c
      | 3 => (s.deliverCircuit n k c).forwardCircuit n e c
      | 4 => s.passCircuit n k c
      | 5 => s.passCircuit n (k + 1) c
      | 6 => s.passCircuit n (k + 1) c
      | _ => s.finc FAB_PORT_DISCARD.TABLE n

def execCircuitCell (port : Nat) (cell : CircuitCell) (s : State) : Host.Outcome State Fault Refusal :=
  onUnit (okPort port && cell.ok) (s.circuitCell port cell)

/-- The circuit table entry of a port whose ADD action adds a binding's contribution (R306). -/
def State.addEntry (s : State) (n b : Nat) : Option Nat :=
  (s.fp n).ccur.findSome? fun e =>
    let a := entAction e.2
    if (a = 4 ∧ entBind e.2 = b) ∨ ((a = 5 ∨ a = 6) ∧ entBind e.2 + 1 = b) then some e.2 else none

/-- A half is being transmitted: it has started, and cells of it are still to go. -/
def OutHalf.going (h : OutHalf) : Bool := h.sent && decide (h.next < 8 * h.tokens.length)

/-- A half may start to go out of a binding (R313, R318): no other is going, no ADD action uses the binding, its log is
reached and its link open. -/
def State.mayTransmit (s : State) (n b : Nat) : Bool :=
  let k := n * 256 + b
  s.bindValid k && !s.fon FAB_BIND_A.DIR k && (s.addEntry n b).isNone && s.logsReached n && s.circuitOpen n
    && !(s.binding k).sealed.any OutHalf.going

/-- The half that may be transmitted next: the lowest sealed one, with the GRANTs it needs (R313, R318). -/
def State.halfToSend (s : State) (n b : Nat) : Option OutHalf :=
  let k := n * 256 + b
  let x := s.binding k
  if s.mayTransmit n b then
    (x.sealed.find? fun h => !h.sent).filter fun h =>
      decide ((if s.fon FAB_BIND_A.CLEARING k then max 1 (s.fget FAB_BIND_B.DELIVERERS k) else 1)
        ≤ x.grants.countP fun g => g == h.sseq)
  else none

/-- The half whose ACK has been awaited the longest since its last cell (R313). -/
def State.halfToResend (s : State) (n b : Nat) : Option OutHalf :=
  if s.mayTransmit n b && !s.fon FAB_BIND_A.CLEARING (n * 256 + b) then
    (sortBy (fun x y : OutHalf => decide (x.lastAt < y.lastAt)) ((s.binding (n * 256 + b)).sealed.filter (·.sent))).head?
  else none

/-- A half starts to go out from its first cell, in the slots of its circuit (R307, R313). -/
def State.startHalf (s : State) (k sseq : Nat) : State :=
  let x := s.binding k
  s.setBinding k { x with
    sealed := x.sealed.map fun y => if y.sseq = sseq then { y with sent := true, next := 0 } else y }

/-- HALF_TRANSMIT (R313). -/
def State.halfTransmit (s : State) (n b : Nat) : State :=
  match s.halfToSend n b with
  | some h => s.startHalf (n * 256 + b) h.sseq
  | none => s

/-- HALF_RETRANSMIT (R313): FAB_ACK_TIMEOUT has passed since the last cell of the half that has waited the longest. -/
def State.halfRetransmit (s : State) (n b : Nat) : State :=
  match s.halfToResend n b with
  | some h => s.startHalf (n * 256 + b) h.sseq
  | none => s

/-- A cell of a half has gone. A clearing half is not acknowledged, so it is freed with its last cell (R318). -/
def State.halfSent (s : State) (k : Nat) (h : OutHalf) : State :=
  let x := s.binding k
  if s.fon FAB_BIND_A.CLEARING k && h.next + 1 == 8 * h.tokens.length then
    (s.setBinding k { x with sealed := x.sealed.filter fun y => y.sseq != h.sseq,
                             grants := x.grants.filter (· != h.sseq) }).openHalf k
  else s.setBinding k { x with sealed := x.sealed.map fun y =>
    if y.sseq = h.sseq then { y with next := h.next + 1, lastAt := s.tally.time } else y }

/-- The next cell of the half that a binding is transmitting. -/
def State.halfCell (s : State) (k circuit : Nat) (h : OutHalf) : Option CircuitCell :=
  (h.tokens[h.next / 8]?).map fun t =>
    s.tokenCell circuit h.sseq (h.next / 8) h.tokens.length (s.fon FAB_BIND_A.CLEARING k) t (h.next % 8)

def execHalfTransmit (port binding : Nat) (s : State) : Host.Outcome State Fault Refusal :=
  onUnit (okPort port && okBinding binding) (s.halfTransmit port binding)

def execHalfRetransmit (port binding : Nat) (s : State) : Host.Outcome State Fault Refusal :=
  onUnit (okPort port && okBinding binding) (s.halfRetransmit port binding)

/-! ### Fabric clearing -/

/-- An invalid scale entry (R119). -/
def invalidEntry : Word := Scale.entry .invalid

/-- Two tokens added (R318): lanes outside a MASK count as 0. -/
def addTokens (a b : Token) : Token :=
  let at_ := fun (t : Token) i => if t.mask.getLsbD i then t.lanes.getD i 0 else 0
  { a with lanes := (List.range 64).map fun i => at_ a i + at_ b i, mask := a.mask ||| b.mask,
           poison := a.poison || b.poison }

/-- The token that stands for contributions that do not go together (R319). -/
def spoilToken (t : Token) : Token :=
  { t with lanes := List.replicate 64 0, scales := List.replicate 4 invalidEntry }

/-- The scale entries agree and none is invalid (R319). -/
def scalesAgree (a b : Token) : Bool :=
  (List.range 4).all fun i =>
    a.scales.getD i 0 == b.scales.getD i 0 && Scale.ofEntry (a.scales.getD i 0) != .invalid

/-- One error record per circuit and tally (R319). -/
def State.clearingError (s : State) (k code : Nat) : State :=
  if (s.binding k).recorded then s
  else (s.setBinding k { s.binding k with recorded := true }).report sevWarning blkFAB code (k / 256) none
    [BitVec.ofNat 32 (s.fget FAB_BIND_A.CIRCUIT k)]

/-- CLEARING_ADD (R318, R319): a passing token whose own half is sealed. -/
def State.clearingAdd (s : State) (n b i : Nat) : State :=
  let k := n * 256 + b
  match takeAt (s.binding k).pass i, s.addEntry n b with
  | some ((q, idx, total, t), rest), some e =>
    match (s.binding k).sealed.find? fun h => h.sseq == q with
    | none => s
    | some h =>
      if !s.logsReached n then s
      else
        let (out, s) : Token × State :=
          match h.tokens[idx]? with
          | none => (spoilToken t, (s.finc FAB_CLR_ERROR.COUNT 0).clearingError k 2)
          | some o =>
            if scalesAgree t o then (addTokens t o, s)
            else (spoilToken (addTokens t o), (s.finc FAB_CLR_ERROR.MISMATCH 0).clearingError k 1)
        let used := if h.used.contains idx then h.used else h.used ++ [idx]
        let x := s.binding k
        let s := s.setBinding k { x with
          pass := rest
          sealed := if used.length ≥ total then x.sealed.filter fun y => y.sseq != q
            else x.sealed.map fun y => if y.sseq = q then { y with used := used } else y }
        let s := s.openHalf k
        let a := entAction e
        let s := if a = 5 ∨ a = 6 then s.logToken (n * 256 + entBind e) q idx total out else s
        if a = 4 ∨ a = 6 then
          if entOutPort e < 24 && s.circuitOpen (entOutPort e) then
            s.sendToken8 n (entOutPort e) (entOutCircuit e) q idx total true out
          else s.fadd FAB_PORT_DISCARD.LINK n 8
        else s
  | _, _ => s

def execClearingAdd (port binding index : Nat) (s : State) : Host.Outcome State Fault Refusal :=
  onUnit (okPort port && okBinding binding) (s.clearingAdd port binding index)

/-! ### Tables -/

/-- A host write of a staging entry (R308). -/
def FabPort.stage (p : FabPort) (w : Bool × Nat × Nat) : FabPort :=
  if w.1 then { p with sstag := mput zeroNat p.sstag w.2.1 w.2.2 } else { p with cstag := mput zeroNat p.cstag w.2.1 w.2.2 }

/-- FAB_TABLE_DATA written: the selected entry, held while the copy runs (R308). -/
def State.stageWrite (s : State) (n v : Nat) : State :=
  let w := (s.fon FAB_TABLE_INDEX.SLOT n, s.fget FAB_TABLE_INDEX.INDEX n, v)
  if w.1 && decide (w.2.1 ≥ 416) then s
  else if s.fon FAB_TABLE_COMMIT.COPYING n then s.updFp n fun p => { p with heldWrites := p.heldWrites ++ [w] }
  else s.updFp n fun p => p.stage w

/-- Why a commit is refused: 1 SLOTS, 2 RESERVED, 3 LIC_DENIED (R308, R306). -/
def State.commitRefusal (s : State) (n : Nat) : Option Nat :=
  let p := s.fp n
  if (p.sstag.countP fun e => e.2.testBit 31) > 384 then some 1
  else if p.cstag.any fun e => entAction e.2 == 7 then some 2
  else if p.cstag.any (fun e => decide (4 ≤ entAction e.2)) && !s.clearingLicensed then some 3
  else none

/-- Step 9: a pending commit (R308). Entries known bad are rewritten from the staging bank (R323). -/
def State.tableStep (s : State) (n : Nat) : State :=
  let s := s.updFp n fun p => { p with
    ccur := mputs zeroNat p.ccur (p.badCircuit.map fun i => (i, mget zeroNat p.cstag i))
    scur := mputs zeroNat p.scur (p.badSlot.map fun i => (i, mget zeroNat p.sstag i))
    badCircuit := [], badSlot := [] }
  if s.fon FAB_TABLE_COMMIT.COMMIT n then
    let s := s.fset FAB_TABLE_COMMIT.COMMIT n 0
    match s.commitRefusal n with
    | some code =>
      ((s.fset FAB_TABLE_COMMIT.REFUSED n 1).fset FAB_TABLE_COMMIT.CODE n code).updFp n fun p =>
        { p with cprev := p.ccur, sprev := p.scur }
    | none =>
      (s.fset FAB_TABLE_COMMIT.COPYING n 1).updFp n fun p => { p with
        ccur := p.cstag, cprev := p.ccur, cstag := p.cprev, scur := p.sstag, sprev := p.scur, sstag := p.sprev }
  else s.updFp n fun p => { p with cprev := p.ccur, sprev := p.scur }

/-- TABLE_COPY_COMPLETE (R308). -/
def State.copyComplete (s : State) (n : Nat) : State :=
  if s.fon FAB_TABLE_COMMIT.COPYING n then
    (s.fset FAB_TABLE_COMMIT.COPYING n 0).updFp n fun p =>
      { p.heldWrites.foldl FabPort.stage { p with cstag := p.ccur, sstag := p.scur } with heldWrites := [] }
  else s

def execTableCopyComplete (port : Nat) (s : State) : Host.Outcome State Fault Refusal :=
  onUnit (okPort port) (s.copyComplete port)

/-- ROUTE_ENTRY_WRITE (R298): a write of FAB_ROUTE_HIGH stores the whole selected entry. -/
def State.routeWrite (s : State) (v : Nat) : State :=
  let s := (s.fset FAB_ROUTE_HIGH.VALID 0 (bitsOf v 31 31)).fset FAB_ROUTE_HIGH.FIELDS 0 (bitsOf v 9 0)
  let e := s.fget FAB_ROUTE_LOW.FIELDS 0 + 2 ^ 60 * bitsOf v 9 0 + 2 ^ 70 * bitsOf v 31 31
  { s with fabric := { s.fabric with route := mput zeroNat s.fabric.route (s.fget FAB_ROUTE_INDEX.MODULE 0) e } }

def execRouteEntryWrite (value : Nat) (s : State) : Host.Outcome State Fault Refusal :=
  onUnit true (s.writeTo .FAB_ROUTE_HIGH 0 fun s => s.routeWrite value)

/-- ESCAPE_ENTRY_WRITE (R304). -/
def State.escapeWrite (s : State) (v : Nat) : State :=
  let m := bitsOf v 13 0
  let s := { s with fabric := { s.fabric with
    escape := mput zeroNat s.fabric.escape m (32 * bitsOf v 31 31 + bitsOf v 20 16) } }
  ((s.fset FAB_ESCAPE.VALID 0 (bitsOf v 31 31)).fset FAB_ESCAPE.PORT 0 (bitsOf v 20 16)).fset FAB_ESCAPE.MODULE 0 m

def execEscapeEntryWrite (value : Nat) (s : State) : Host.Outcome State Fault Refusal :=
  onUnit true (s.writeTo .FAB_ESCAPE 0 fun s => s.escapeWrite value)

/-- FAB_ROUTE_VALID takes its value; UP ports then advertise credits and READY (R321). -/
def State.setRouteValid (s : State) (v : Nat) : State :=
  (s.fset FAB_ROUTE_VALID.VALID 0 (v % 2)).forEach (List.range Config.nPorts) fun n s => s.advertise n

/-- ROUTE_VALID_WRITE: before step 8 of bring-up, which sets VALID, a write of 1 is held (R401). -/
def State.routeValidWrite (s : State) (v : Nat) : State :=
  if s.bringUp.done < 8 ∧ v % 2 = 1 then s else s.setRouteValid v

def execRouteValidWrite (value : Nat) (s : State) : Host.Outcome State Fault Refusal :=
  onUnit true (s.writeTo .FAB_ROUTE_VALID 0 fun s => s.routeValidWrite value)

/-- TABLE_ENTRY_UNCORRECTABLE (R323): cells that meet the entry are discarded until it is rewritten: a route or escape entry
from another port's copy at the next step of the time base, a circuit or slot entry at step 9. -/
def State.tableBad (s : State) (n : Nat) (t : FabTable) (i : Nat) : State :=
  match t with
  | .route => s.updFp n fun p => { p with badRoute := if p.badRoute.contains i then p.badRoute else i :: p.badRoute }
  | .escape => s.updFp n fun p => { p with badEscape := if p.badEscape.contains i then p.badEscape else i :: p.badEscape }
  | .circuit => s.updFp n fun p => { p with badCircuit := if p.badCircuit.contains i then p.badCircuit else i :: p.badCircuit }
  | .slot => s.updFp n fun p => { p with badSlot := if p.badSlot.contains i then p.badSlot else i :: p.badSlot }

def execTableEntryUncorrectable (port : Nat) (table : FabTable) (entry : Nat) (s : State) :
    Host.Outcome State Fault Refusal :=
  onUnit (okPort port && okEntry table entry) (s.tableBad port table entry)

/-! ### Cartridges -/

/-- CARTRIDGE_PRESENT (R327, R328): the insertion is counted. -/
def State.cartridgeIn (s : State) (n : Nat) (r : Cartridge) : State :=
  let c := { r with insertions := min (r.insertions + 1) 65535 }
  let s := s.rset .CRT_STATUS n 0
  let s := ((s.fset CRT_STATUS.PRESENT n 1).fset CRT_STATUS.KIND n (idField c 4 1)).fset CRT_STATUS.REACH n (idField c 24 2)
  let s := s.fset CRT_SERIAL.SERIAL n (idField c 8 4)
  let s := s.updFp n fun p => { p with cartridge := some c, onFor := 0 }
  (s.showCartridge n c).tryTrain n

def execCartridgePresent (port : Nat) (record : Cartridge) (s : State) : Host.Outcome State Fault Refusal :=
  onUnit (okPort port) (s.cartridgeIn port record)

/-- A record is genuine: its root exists and is not revoked, and its signature verifies (R411). -/
def Cartridge.genuine (c : Cartridge) : Bool :=
  let key := leNat ((c.identity.drop 36).take 4)
  decide (key ≤ 3) && !Config.cartridgeRevoked key && hssVerify (cartridgeKey key) (c.identity.take 64) c.signature

/-- CARTRIDGE_VERIFIED (R327). -/
def State.cartridgeVerified (s : State) (n : Nat) : State :=
  match (s.fp n).cartridge with
  | none => s
  | some c =>
    let s := if Cartridge.genuine c then s.fset CRT_STATUS.VERIFIED n 1 else s.fset CRT_STATUS.COUNTERFEIT n 1
    s.tryTrain n

def execCartridgeVerified (port : Nat) (s : State) : Host.Outcome State Fault Refusal :=
  onUnit (okPort port) (s.cartridgeVerified port)

/-- CARTRIDGE_REMOVED (R327): the port goes DOWN. -/
def State.cartridgeOut (s : State) (n : Nat) : State :=
  match (s.fp n).cartridge with
  | none => s
  | some _ =>
    let s := s.forEach [.CRT_STATUS, .CRT_USE, .CRT_RATING, .CRT_SERIAL] fun r s => s.rset r n 0
    (s.updFp n fun p => { p with cartridge := none }).portLeaves n portDown (if s.fon FAB_PORT_CTRL.ENABLE n then 2 else 0)

def execCartridgeRemoved (port : Nat) (s : State) : Host.Outcome State Fault Refusal :=
  onUnit (okPort port) (s.cartridgeOut port)

/-- USAGE_RECORD_WRITE (R328). -/
def State.usageWrite (s : State) (n hours : Nat) : State := (s.countHours n hours).writeUsage n

def execUsageRecordWrite (port hours : Nat) (s : State) : Host.Outcome State Fault Refusal :=
  onUnit (okPort port) (s.usageWrite port hours)

end Sys2Proof.Machine
end

