-- ==== Sys2Proof/Machine/Folios.lean ====
section
/-! DEFINITION. Folios (08_dataflow_and_folios.md): depths and credits of endpoints, configuration loads, the start of a
cluster's segment, the drain, the switch, and the host's request for one. -/
namespace Sys2Proof.Machine

open Sys2Proof

/-! ### What an image declares -/

def EndpointRec.recv (e : EndpointRec) : Bool := e.flags.testBit 0
def EndpointRec.kindCode (e : EndpointRec) : Nat := bitsOf e.flags 2 1
def EndpointRec.circuit (e : EndpointRec) : Bool := e.flags.testBit 3
def EndpointRec.fabric (e : EndpointRec) : Bool := e.flags.testBit 4

def EpKind.of (n : Nat) : EpKind := if n = 1 then .clear else if n = 2 then .done else .token

/-- The FOLIO_CLUSTERS records of a folio (R201). -/
def Image.users (im : Image) (f : Nat) : List FolioClusterRec :=
  match im.folios[f]? with
  | some r => (im.folioClusters.drop r.first).take r.count
  | none => []

/-- The endpoints of a record, by ascending number (R202, R204). -/
def Image.epsOf (im : Image) (u : FolioClusterRec) : List EndpointRec :=
  sortBy (fun a b => decide (a.endpoint < b.endpoint)) ((im.endpoints.drop u.epFirst).take u.epCount)

/-- The in-package producers of a RECV endpoint, by ascending cluster and SEND endpoint (R176). An outbound circuit's
endpoint has no peer (R310). -/
def Image.producers (im : Image) (f L q : Nat) : List (Nat × Nat) :=
  (im.users f).flatMap fun u => ((im.epsOf u).filter fun e =>
    !e.recv && e.kindCode == 0 && e.peerCluster == L && e.peerEp == q
      && !(im.fabric.any fun r => r.folio == f && !r.inbound && r.cluster == u.cluster && r.endpoint == e.endpoint)).map
    fun e => (u.cluster, e.endpoint)

/-- The fabric circuit record that names an endpoint (R207). -/
def Image.circuitOf (im : Image) (f L q : Nat) (inbound : Bool) : Option FabricRec :=
  im.fabric.find? fun r => r.folio == f && r.inbound == inbound && r.cluster == L && r.endpoint == q

/-- Producers of an endpoint, a fabric port among them (R176). -/
def Image.producerCount (im : Image) (f L q : Nat) : Nat :=
  (im.producers f L q).length + (im.circuitOf f L q true).toList.length

/-- The depth an endpoint needs (R174, R176, R185). -/
def Image.need (im : Image) (f L : Nat) (e : EndpointRec) : Nat :=
  let d := if e.skew ≥ 1 then max e.depth (e.skew + 4) else e.depth
  max (max d 2) (2 * im.producerCount f L e.endpoint)

/-- The credits of the producer at place `i` of `n` that share `depth` slots (R176). -/
def creditShare (depth n i : Nat) : Nat :=
  2 + (depth - 2 * n) / n + (if i < (depth - 2 * n) % n then 1 else 0)

/-! ### Depth: token store, extension slots, parked delay (R175, R185, R186) -/

/-- Units of 4 KiB of a vault that no region covers (R133). -/
def ClusterRec.freeUnits (r : ClusterRec) : Nat :=
  3072 - (r.regions.map fun g => if g.kind = 2 then 2 * g.length else g.length).sum

def Image.freeUnits (im : Image) (L : Nat) : Nat :=
  match im.clusters.find? fun r => r.cluster == L with
  | some r => r.freeUnits
  | none => 3072

/-- The first pass: 2 slots each while the store lasts; the second: the rest of each depth (R175). -/
def storePass (cap : Nat → Nat) : List Nat → Nat → List Nat
  | [], _ => []
  | n :: t, left => let g := min (cap n) left; g :: storePass cap t (left - g)

def storeSlots (needs : List Nat) : List Nat :=
  let base := storePass (fun n => min n 2) needs 64
  let rest := storePass id (needs.zipWith (· - ·) base) (64 - base.sum)
  base.zipWith (· + ·) rest

/-- Slots beyond the token store, in extension slots while the free units last (R175). -/
def extSlots (free : Nat) (short : List Nat) : List Nat := storePass id short (12 * free)

/-- The depths of one cluster's RECV endpoints: endpoint, need, extension slots, slots still to be found. -/
def Image.depthsOf (im : Image) (f : Nat) (u : FolioClusterRec) : List (EndpointRec × Nat × Nat × Nat) :=
  let eps := (im.epsOf u).filter fun e => e.recv
  let needs := eps.map (im.need f u.cluster)
  let short := needs.zipWith (· - ·) (storeSlots needs)
  let ext := extSlots (im.freeUnits u.cluster) short
  (eps.zip (needs.zip (ext.zip (short.zipWith (· - ·) ext)))).map fun x => (x.1, x.2.1, x.2.2.1, x.2.2.2)

def Image.extOf (im : Image) (f L : Nat) : Nat :=
  match (im.users f).find? fun u => u.cluster == L with
  | some u => ((im.depthsOf f u).map fun x => x.2.2.1).sum
  | none => 0

/-- Sites of a partition, by ascending local index. -/
def sitesOf (p : Nat) : List Nat := (List.range 28).map (siteOf p)

/-- Where delay of cluster `L` may be parked, with the slots free there: sites of the context's other clusters in the
same partition, by ascending cluster number, then SPARE and PARKED sites by ascending local index (R186). The order
among them is DESIGN CHOICE. -/
def State.parkHosts (s : State) (c : Nat) (im : Image) (f L p : Nat) : List (Nat × Nat) :=
  let mine := im.clusters.filterMap fun r =>
    match (s.cl r.cluster).site with
    | some n => if r.cluster != L && partOfSite n == p && (s.cl L).site != some n then
        some (n, 12 * im.freeUnits r.cluster - im.extOf f r.cluster) else none
    | none => none
  let spare := ((sitesOf p).filter fun n => (s.site n).state == .SPARE || (s.site n).state == .PARKED).map fun n =>
    (n, 36864 - ((s.placer.depths.filter fun d => d.cx != c && d.parkSite == some n).map (·.parked)).sum)
  mine ++ spare

/-- The first host with room for `n` slots beside those already parked in this folio. -/
def findPark (used : List (Nat × Nat)) (n : Nat) (hosts : List (Nat × Nat)) : Option Nat :=
  (hosts.find? fun h => decide (((used.filter fun u => u.1 == h.1).map (·.2)).sum + n ≤ h.2)).map (·.1)

/-- The depths of a folio on the present placement, or SKEW_UNMET or DEPTH_UNMET (R175, R185, R186). -/
def State.planDepths (s : State) (c : Nat) (im : Image) (f : Nat) : Except Nat (List DepthRec) :=
  ((im.users f).flatMap fun u => (im.depthsOf f u).map fun x => (u.cluster, x)).foldl
    (fun acc x => acc.bind fun l =>
      let L := x.1
      let (e, need, ext, left) := x.2
      if left = 0 then .ok (l ++ [⟨c, f, L, e.endpoint, need, ext, 0, none⟩])
      else
        match findPark (l.filterMap fun d => d.parkSite.map fun n => (n, d.parked)) left (s.parkHosts c im f L (s.hostPart L)) with
        | some n => .ok (l ++ [⟨c, f, L, e.endpoint, need, ext, left, some n⟩])
        | none => .error (if e.skew ≥ 1 then 1 else 8)) (.ok [])

/-! ### Endpoint tables and credits (R174 to R176, R191) -/

/-- The declared endpoint with its allocation. -/
def State.endpointOf (s : State) (c : Nat) (im : Image) (f L : Nat) (e : EndpointRec) : Endpoint :=
  let depthAt := fun M q => (s.placer.depths.find? fun d =>
    d.cx == c && d.folio == f && d.cluster == M && d.ep == q)
  let out := im.circuitOf f L e.endpoint false
  let inb := im.circuitOf f L e.endpoint true
  let credits :=
    if e.recv then
      match inb with
      | some _ =>
        let n := im.producerCount f L e.endpoint
        creditShare ((depthAt L e.endpoint).map (·.slots) |>.getD 0) n (n - 1)
      | none => 0
    else if e.kindCode = 0 && out.isNone then
      let l := im.producers f e.peerCluster e.peerEp
      let i := l.findIdx fun p => p == (L, e.endpoint)
      creditShare ((depthAt e.peerCluster e.peerEp).map (·.slots) |>.getD 0)
        (im.producerCount f e.peerCluster e.peerEp) i
    else 0
  let d := depthAt L e.endpoint
  { send := !e.recv, kind := EpKind.of e.kindCode
    peer := match out with
      | some r => (s.bindingOf r.port false r.circuit).getD 0
      | none => e.peerCluster
    peerEp := e.peerEp, circuit := e.circuit, fabric := out.isSome || inb.isSome
    count := e.count, depth := e.depth, skew := e.skew, credits := credits
    slots := (d.map (·.slots)).getD 0, ext := (d.map (·.ext)).getD 0, parked := (d.map (·.parked)).getD 0
    held := [], pos := 0 }

/-- The endpoint tables of a folio take effect, empty and with every credit (R181, R191 item 4); a cluster the folio does
not use has none. Credits on their way count among those issued. -/
def State.installEndpoints (s : State) (c : Nat) (im : Image) (f : Nat) : State :=
  let s := s.forEach im.clusters fun r s => s.updCl r.cluster fun k => { k with eps := [] }
  let s := { s with mesh := { s.mesh with
    credits := s.mesh.credits.filter fun e => !(im.clusters.any fun r => r.cluster == e.1) } }
  s.forEach (im.users f) fun u s => s.updCl u.cluster fun k => { k with
    eps := mputs (fun _ => none) [] ((im.epsOf u).map fun e => (e.endpoint, some (s.endpointOf c im f u.cluster e))) }

/-- Every endpoint of a context is emptied and every credit restored (R181): on a rerun and under Fault. -/
def State.resetEndpoints (s : State) (c : Nat) : State :=
  match s.image c with
  | some im => s.installEndpoints c im (s.activeFolio c)
  | none => s

/-! ### Bindings of a folio (R312 to R315) -/

/-- The bindings of a context's active folio. -/
def State.bindingsOf (s : State) (c : Nat) : List Nat :=
  (s.fabric.binds.filter fun e => e.2.active && (match e.2.target with
    | some (L, _) => s.owner L == some c
    | none => false)).map (·.1)

/-- The bindings of the old folio are left: unconsumed inbound halves are discarded, their tokens counted as leftovers;
sealed outbound halves still go out (R315). -/
def State.leaveBindings (s : State) (c : Nat) : State :=
  s.forEach (s.bindingsOf c) fun k s =>
    let b := s.binding k
    let n := (b.halves.map fun h => h.tokens.length - h.passed.length).sum
    (s.setBinding k { b with active := false, target := none, halves := [], granted := [], open_ := none }).leftover c n

/-- The bindings of the new folio: SSEQ counts from 0, and an inbound one grants 0 and 1 (R312, R313). -/
def State.joinBindings (s : State) (im : Image) (f : Nat) : State :=
  s.forEach (im.fabric.filter fun r => r.folio == f) fun r s =>
    match s.bindingOf r.port r.inbound r.circuit with
    | none => s
    | some k =>
      let s := s.setBinding k { s.binding k with
        active := true, target := some (r.cluster, r.endpoint), consume := 0, nextSseq := 0, open_ := none
        granted := if r.inbound then [0, 1] else [], halves := [], recorded := false }
      if r.inbound then (s.sendCredit k 0 0 0).sendCredit k 0 1 0 else s

/-! ### Configuration loads (R192) -/

/-- The address of a byte of the image store: object 0 lies outside the context's logical address space (R210). -/
def storeAddr (off : Nat) : Nat := 2 ^ 40 + off

/-- A piece of the image store, read for a cluster 64 bytes at a time: poisoned blocks, and blocks that the mesh or their
controllers answer FENCED, come as zeros; whether there was any (R24, R192). -/
def State.readStore (s : State) (c L off n : Nat) : List Byte × Bool × State :=
  let (r, s) := s.memReadBy (.cluster L 0) c (storeAddr off) n false
  (r.bytes, r.poison || r.fenced, s)

/-- A segment field that holds 0xFFFF names none (R197, R202). -/
def noSeg : Nat := 0xFFFF

/-- The SEGMENTS record that a segment field names. -/
def Image.segment (im : Image) (n : Nat) : Option SegmentRec := if n = noSeg then none else im.segments[n]?

/-- The bytes of a segment (R203). -/
def State.readSegment (s : State) (c L : Nat) (im : Image) (n : Nat) : List Byte × Bool × State :=
  match im.segment n with
  | some g => s.readStore c L (im.dataOffset + g.offset) g.length
  | none => ([], false, s)

def noWord : Nat → Word := fun _ => 0

/-- A memory of 32-bit words loaded from entry 0; the rest is 0. -/
def wordMap (b : List Byte) : NMap Word := mrun noWord [] 0 (wordsOf b (b.length / 4))

/-- The segments of a cluster's configuration, in the order of `Staged.parts` (R202). -/
def FolioClusterRec.segs (u : FolioClusterRec) : List Nat :=
  [u.tellerSeg, u.vecSeg.getD 0 noSeg, u.vecSeg.getD 1 noSeg, u.lutSeg.getD 0 noSeg, u.lutSeg.getD 1 noSeg, u.descSeg]

/-- The configuration of a cluster as the image store holds it, and whether any of it was poisoned. -/
def State.readConfig (s : State) (c : Nat) (im : Image) (u : FolioClusterRec) : List (List Byte) × Bool × State :=
  u.segs.foldl (fun acc n =>
    let (l, bad, s) := acc
    let (b, p, s) := s.readSegment c u.cluster im n
    (l ++ [b], bad || p, s)) ([], false, s)

/-- A configuration enters the instruction memories, the lookup units and the descriptor table (R171, R202). -/
def State.putConfig (s : State) (L descAddr : Nat) (parts : List (List Byte)) : State :=
  let part := fun i => parts.getD i []
  let put := fun n (i l : List Byte) (s : State) => s.updCore L n fun k => { k with imem := wordMap i, lut := wordMap l }
  (put 2 (part 2) (part 4) (put 1 (part 1) (part 3) (put 0 (part 0) [] s))).vmerge L descAddr (part 5) .mesh

/-- The configuration of one cluster is loaded: from staged bytes, or from the image store. Whether any of it was
poisoned. -/
def State.loadConfig (s : State) (c L f : Nat) (parts : Option (List (List Byte))) : Bool × State :=
  match (s.image c).bind fun im => ((im.users f).find? fun u => u.cluster == L).map fun u => (im, u) with
  | none => (false, s)
  | some (im, u) =>
    match parts with
    | some l => (false, s.putConfig L u.descAddr l)
    | none =>
      let (l, bad, s) := s.readConfig c im u
      (bad, s.putConfig L u.descAddr l)

/-- A load that read poison: the context stops at the next boundary (R192, R194). -/
def State.loadPoison (s : State) (c L : Nat) : State :=
  ((s.folioCondition c 6).report sevError blkFOL 6 L (some c) []).markFault c 0x08

/-! ### The start of a cluster's segment (R104) -/

/-- Fresh seeds for `n` generators (R57, R58). A seed of 0 is replaced by 1. The severity of the ENTROPY_FALLBACK record
and the cluster and context that it names, those seeded first, are DESIGN CHOICE (log 63). -/
def State.seeds (s : State) (L n : Nat) : List Word × State :=
  if s.fon SEC_STATUS.ENTROPY_FAIL 0 then
    let x := BitVec.ofNat 32 s.count32 ^^^ BitVec.ofNat 32 (((s.cl L).site.getD 0) * 0x9E3779B9)
    let s := if s.tally.entropyNoted then s
      else ({ s with tally := { s.tally with entropyNoted := true } }).report sevWarning blkSEC 1 L (s.owner L) []
    (List.replicate n (if x = 0 then 1 else x), s)
  else
    let k := s.fresh
    ((List.range n).map fun i => let x := Config.entropy (k + i); if x = 0 then 1 else x,
      { s with fresh := s.fresh + n })

def genVector (l : List Word) (from_ : Nat) : Vector Word 64 := Vector.ofFn fun i : Fin 64 => l.getD (from_ + i.val) 1

/-- Bit r: CURRENT of region r; 0 for a region that is not carried (R104). -/
def State.currentBits (s : State) (L : Nat) : Nat :=
  ((List.range 16).map fun r =>
    let g := s.region L r
    if g.kind = 2 then g.current * 2 ^ r else 0).sum

/-- The registers of a core at segment start. -/
def Core.fresh (k : Core) (gen : Vector Word 64) (g1 g2 g3 g5 : Nat) (pc : Nat) (run : RunState) : Core :=
  { Core.init with imem := k.imem, lut := k.lut, gen := gen, pc := pc, run := run
                   g := ((((Core.init.g.setIfInBounds 1 (BitVec.ofNat 32 g1)).setIfInBounds 2 (BitVec.ofNat 32 g2)).setIfInBounds
                     3 (BitVec.ofNat 32 g3)).setIfInBounds 5 (BitVec.ofNat 32 g5)) }

/-- A cluster starts its segment (R104, R57): its configuration is loaded and no move of it is under way. -/
def State.startCluster (s : State) (c L : Nat) : State :=
  match (s.image c).bind fun im => (im.users (s.activeFolio c)).find? fun u => u.cluster == L with
  | none => s
  | some u =>
    let (l, s) := s.seeds L 192
    let g5 := s.currentBits L
    let g1 := s.fget FOL_CX_COMMITTED.COUNT c
    s.updCl L fun k => { k with
      inSegment := true
      cores := Vector.ofFn fun i : Fin 3 =>
        (k.cores.get i).fresh (genVector l (64 * (i.val - 1))) g1 c L g5 (if i.val = 0 then u.entry else 0)
          (if i.val = 0 then .running else .idle)
      matrix := { Matrix.init with serial := k.matrix.serial, gen := genVector l 128 } }

/-- A cluster that waits for nothing more starts, if its context's segment has started (R36, R192, R238). -/
def State.startIfReady (s : State) (c L : Nat) : State :=
  let k := s.cl L
  if (s.cx c).segment && !k.inSegment && k.loading.isNone && !k.moving && s.reachable L && !s.clockBusy (s.hostPart L)
      && (s.folioClusters c).contains L then s.startCluster c L else s

/-- The staged copy that a load reads: a parity error in it discards it (R459). -/
def State.readStaged (s : State) (L : Nat) (j : LoadJob) : Option (List (List Byte)) × State :=
  match j.staged with
  | none => (none, s)
  | some g =>
    let (bad, s) := s.ownRead L (s.badIn L g.units) .mesh false
    if bad then (none, s.fset FOL_CX_STATE.STAGED j.cx 0) else (some g.parts, s)

/-- CONFIGURATION_LOAD_COMPLETE (R192): from the staged copy, or from the image store. -/
def State.loadComplete (s : State) (L : Nat) : State :=
  match (s.cl L).loading with
  | none => s
  | some j =>
    let (parts, s) := s.readStaged L j
    let (bad, s) := s.loadConfig j.cx L j.folio parts
    let s := if bad then s.loadPoison j.cx L else s
    (s.updCl L fun k => { k with loading := none }).startIfReady j.cx L

def execConfigurationLoadComplete (cluster : Nat) (s : State) : Host.Outcome State Fault Refusal :=
  onUnit (okCluster cluster) (s.loadComplete cluster)

/-! ### States of a context -/

def folNone := 0
def folRunning := 1
def folDraining := 2
def folDrained := 3
def folSlipped := 4
def folDone := 5
def folStopped := 6

def State.folState (s : State) (c : Nat) : Nat := s.fget FOL_CX_STATE.STATE c

def State.setFol (s : State) (c n : Nat) : State := s.fset FOL_CX_STATE.STATE c n

/-- The contexts that the active licence enables (R1). -/
def State.cxLicensed (s : State) (c : Nat) : Bool :=
  s.fget LCS_STATE.STATE 0 != 4
    && (s.fget LIC_STATE.VARIANT 0 == 1 || (s.fget LIC_STATE.VARIANT 0 == 2 && decide (c < 4)))

/-- The target of a pending switch (R172): the host's, or the folio's NEXT. -/
def State.targetOf (s : State) (c : Nat) : Nat :=
  if s.fon FOL_CX_NEXT.VALID c then s.fget FOL_CX_NEXT.FOLIO c
  else ((s.image c).bind fun im => im.folios[s.activeFolio c]?).map (·.next) |>.getD 4095

/-- Whether the active folio's next segment is its last by REPEAT (R172). -/
def State.lastByRepeat (s : State) (c : Nat) : Bool :=
  match (s.image c).bind fun im => im.folios[s.activeFolio c]? with
  | some f => decide (f.repeat_ ≥ 1) && s.fget FOL_CX_COMMITTED.COUNT c == f.repeat_ - 1
  | none => false

/-! ### The switch (R191) -/

/-- Each cluster that the folio uses starts to load (R191 item 5): from its staged copy if it holds this folio's and the
cluster was not moved at this boundary (R193). -/
def State.startLoads (s : State) (c : Nat) (im : Image) (f : Nat) : State :=
  s.forEach (im.users f) fun u s => s.updCl u.cluster fun k => { k with
    loading := some ⟨c, f, k.staged.filter fun g => g.cx == c && g.folio == f && !k.moving⟩
    staged := none }

/-- A cluster whose instruction memories and lookup units were lost, or are to be written anew, loads its configuration
again (R103, R126, R192). -/
def State.loadAgain (s : State) (c L : Nat) : State :=
  if s.folState c ≠ folNone ∧ s.folState c ≠ folDone ∧ (s.folioClusters c).contains L then
    s.updCl L fun k => { k with loading := some ⟨c, s.activeFolio c, none⟩ }
  else s

/-- The drain was complete before the edge (R189). -/
def State.drainedBefore (s : State) (c : Nat) : Bool :=
  match (s.cx c).drainedAt with
  | some t => decide (t < s.tally.edge)
  | none => false

/-- The switch to folio `f` (R191); `first` is the entry of folio 0 under R170, with epoch 0, at which a request applied at
step 5 makes the segment that starts the last one (R172). -/
def State.switchTo (s : State) (c f : Nat) (first : Bool) : State :=
  match s.image c with
  | none => s
  | some im =>
    let s := if first then s.fset FOL_CX_STATE.EPOCH c 0
      else s.fset FOL_CX_STATE.EPOCH c ((s.fget FOL_CX_STATE.EPOCH c + 1) % 4)
    let s := s.leaveBindings c
    let s := (s.fset FOL_CX_STATE.ACTIVE c f).fset FOL_CX_COMMITTED.COUNT c 0
    let s := if first then s else s.fset FOL_CX_NEXT.VALID c 0
    let s := ((s.fset FOL_CX_STATE.TARGET c 0).fset FOL_CX_STATE.STAGED c 0).fset FOL_CX_DRAIN.CONSECUTIVE c 0
    let s := s.updCx c fun x => { x with
      lastSegment := false, switchDue := false, nextApplied := first && x.nextApplied, drainedAt := none, withheld := false }
    let s := s.setFol c (if s.lastByRepeat c || (s.cx c).nextApplied then folDraining else folRunning)
    let s := (s.installEndpoints c im f).joinBindings im f
    s.startLoads c im f

/-- The schedule has reached END (R173). -/
def State.enterDone (s : State) (c : Nat) : State :=
  let s := s.leaveBindings c
  let s := ((s.fset FOL_CX_NEXT.VALID c 0).fset FOL_CX_STATE.TARGET c 0).fset FOL_CX_DRAIN.CONSECUTIVE c 0
  (s.updCx c fun x => { x with
    lastSegment := false, switchDue := false, nextApplied := false, drainedAt := none, withheld := false }).setFol c folDone

/-! ### Draining (R188) -/

/-- A packet of the context is in a router, or a partial sum in a combining buffer. -/
def State.inMesh (s : State) (c : Nat) : Bool :=
  s.mesh.packets.any (fun p => p.cx == c) || s.mesh.combine.any fun e => e.2.any fun b => b.cx == c

/-- All that the drain detector waits for (R188 item 3). -/
def State.drainComplete (s : State) (c : Nat) : Bool :=
  (s.cx c).lastSegment && (s.cx c).withheld && !s.inMesh c
    && (s.folioClusters c).all (fun L => (s.cl L).eps.all fun e => match e.2 with
        | some x => x.send || x.held.isEmpty
        | none => true)
    && (s.inboundOf c).all fun k => (s.binding k).granted.isEmpty

/-- DRAINED (R188 item 4). A SLIPPED context shows DRAINED as well: DEDUCED from R190's worked example. -/
def State.drained (s : State) (c : Nat) : State :=
  if s.drainComplete c && (s.cx c).drainedAt.isNone && (s.folState c == folDraining || s.folState c == folSlipped) then
    (s.updCx c fun x => { x with drainedAt := some s.tally.time }).setFol c folDrained
  else s

def execDrained (cx : Nat) (s : State) : Host.Outcome State Fault Refusal := onUnit (okCx cx) (s.drained cx)

/-! ### Staging (R193) -/

/-- The bytes of a cluster's configuration (R202). -/
def Image.configBytes (im : Image) (u : FolioClusterRec) : Nat :=
  (u.segs.map fun n =>
    match im.segment n with
    | some g => g.length
    | none => 0).sum

/-- The free units of a cluster that its configuration takes, where they hold it beside extension slots and parked delay. -/
def State.stageAt (s : State) (im : Image) (u : FolioClusterRec) : Option (List Nat) :=
  let n := (im.configBytes u + 4095) / 4096
  let l := s.stagingUnits u.cluster
  if n ≤ l.length then some (l.take n) else none

/-- CONFIGURATION_STAGE: during a last segment whose target is known. A configuration that meets poison is not staged,
and is read again at the switch. -/
def State.stage (s : State) (c : Nat) : State :=
  match s.image c with
  | none => s
  | some im =>
    let t := s.targetOf c
    if (s.cx c).lastSegment && (s.cx c).segment && decide (t ≠ 4095) then
      let s := s.forEach (im.users t) fun u s =>
        match s.stageAt im u with
        | some units =>
          let (l, bad, s) := s.readConfig c im u
          if bad then s
          else (s.freshUnits u.cluster units).updCl u.cluster fun k => { k with staged := some ⟨c, t, l, units⟩ }
        | none => s
      s.fbit FOL_CX_STATE.STAGED c ((im.users t).all fun u => match (s.cl u.cluster).staged with
        | some g => g.cx == c && g.folio == t
        | none => false)
    else s

def execConfigurationStage (cx : Nat) (s : State) : Host.Outcome State Fault Refusal := onUnit (okCx cx) (s.stage cx)

/-! ### The host's request (R172, R173) -/

/-- A value waits for the next boundary (R7, R8). -/
def State.pend (s : State) (r : Reg) (i : Nat) (v : DWord) : State :=
  { s with rwt := mput (fun _ => none) s.rwt (regKey r i) (some v) }

/-- A request that is not applied (R173). -/
def State.nextRefused (s : State) (c folio : Nat) : State :=
  (s.folioCondition c 5).report sevInfo blkFOL 5 0xFFFF (some c) [BitVec.ofNat 32 folio]

/-- FOL_CX_NEXT_WRITE: a register of a context outside the licence ignores it; a request that is written while no image is
active is refused (R173). -/
def State.nextWrite (s : State) (c : Nat) (valid : Bool) (folio : Nat) : State :=
  if !s.cxLicensed c then s
  else if valid && s.fget IMG_CX_STATE.STATE c != 2 then s.nextRefused c (folio % 2 ^ 12)
  else s.pend .FOL_CX_NEXT c (BitVec.ofNat 64 (valid.toNat * 2 ^ 31 + folio % 2 ^ 12))

def execFolCxNextWrite (cx : Nat) (valid : Bool) (folio : Nat) (s : State) : Host.Outcome State Fault Refusal :=
  onUnit (okCx cx && okFolio folio) (s.writeTo .FOL_CX_NEXT cx fun s => s.nextWrite cx valid folio)

/-- A folio of the image, or END. -/
def State.folioKnown (s : State) (c folio : Nat) : Bool :=
  match s.image c with
  | some im => s.fget IMG_CX_STATE.STATE c == 2 && (folio == 4095 || decide (folio < im.folios.length))
  | none => false

/-- Step 5 of R33 for FOL_CX_NEXT: the request is applied, or refused and the register kept. A request makes the
segment that starts at this boundary the last one, unless a switch is due already, whose target it replaces (R172). -/
def State.applyNext (s : State) (c : Nat) (v : DWord) : State :=
  if fieldOf v 31 31 = 0 then s.rset .FOL_CX_NEXT c v
  else if s.folioKnown c (fieldOf v 11 0) then
    let s := s.rset .FOL_CX_NEXT c v
    if (s.cx c).lastSegment then s else s.updCx c fun x => { x with nextApplied := true }
  else s.nextRefused c (fieldOf v 11 0)

end Sys2Proof.Machine
end

