-- ==== Sys2Proof/Machine/Placement.lean ====
section
/-! DEFINITION. What the placer decides with (10_placement_and_self_healing.md): distances, fault regions, events, sites
for displaced clusters, moves, circuits and clearing trees, budgets against the period. -/
namespace Sys2Proof.Machine

open Sys2Proof

/-! ### Distances (R149) -/

def siteXY (n : Nat) : Nat × Nat := (n % 42, n / 42)

/-- The hops of a link: a seam link counts as three. -/
def linkHops (a b : Nat × Nat) : Nat :=
  if (decide (a.1 < 21) != decide (b.1 < 21)) || (decide (a.2 < 4) != decide (b.2 < 4)) then 3 else 1

/-- Hops between two routers. -/
def hops (a b : Nat × Nat) : Nat :=
  (max a.1 b.1 - min a.1 b.1) + (max a.2 b.2 - min a.2 b.2)
    + (if decide (a.1 < 21) != decide (b.1 < 21) then 2 else 0) + (if decide (a.2 < 4) != decide (b.2 < 4) then 2 else 0)

/-! ### Fault regions (R153, R154) -/

/-- The rings of two regions touch or overlap. -/
def ringsMeet (a b : Nat × Nat × Nat × Nat) : Bool :=
  decide (b.1 ≤ a.2.2.1 + 3) && decide (a.1 ≤ b.2.2.1 + 3) && decide (b.2.1 ≤ a.2.2.2 + 3) && decide (a.2.1 ≤ b.2.2.2 + 3)

/-- The smallest rectangle that covers both. -/
def joinRegions (a b : Nat × Nat × Nat × Nat) : Nat × Nat × Nat × Nat :=
  (min a.1 b.1, min a.2.1 b.2.1, max a.2.2.1 b.2.2.1, max a.2.2.2 b.2.2.2)

/-- A region joins those whose rings meet its own, at most `n` times over. -/
def absorbRegions : Nat → Nat × Nat × Nat × Nat → List (Nat × Nat × Nat × Nat) → List (Nat × Nat × Nat × Nat)
  | 0, r, l => r :: l
  | n + 1, r, l =>
    match l.find? (ringsMeet r) with
    | none => r :: l
    | some q => absorbRegions n (joinRegions r q) (l.erase q)

/-- The fault regions of a list of routers that cannot forward. -/
def faultRegions (bad : List (Nat × Nat)) : List (Nat × Nat × Nat × Nat) :=
  bad.foldl (fun acc q => absorbRegions acc.length (q.1, q.2, q.1, q.2) acc) []

/-- A region that spans all rows or all columns. -/
def spans (r : Nat × Nat × Nat × Nat) : Bool := (r.2.1 == 0 && r.2.2.2 == 7) || (r.1 == 0 && r.2.2.1 == 41)

/-! ### Events (R246) -/

/-- A placer event: PLC_EVENT, its count, and a record. -/
def State.plcEvent (s : State) (kind p : Nat) (L c : Option Nat) (severity : Nat) : State :=
  let s := s.rset .PLC_EVENT 0 (BitVec.ofNat 64
    (s.count32 * 2 ^ 32 + kind * 2 ^ 28 + p * 2 ^ 24 + L.getD 0 * 2 ^ 15 + c.getD 0 * 2 ^ 11))
  let s := s.finc PLC_EVENT_COUNT.COUNT 0
  s.report severity blkPLC kind (L.getD 0xFFFF) c
    (BitVec.ofNat 32 p :: (match L with | some L => s.siteDetail L | none => []))

/-- An event about a logical cluster. -/
def State.clEvent (s : State) (kind L severity : Nat) : State :=
  s.plcEvent kind (partOf L) (some L) (s.owner L) severity

/-- The most recent rejection or failure (PLC_STATUS). -/
def State.plcStatus (s : State) (folio c p code : Nat) : State :=
  (((s.fset PLC_STATUS.FOLIO 0 folio).fset PLC_STATUS.CONTEXT 0 c).fset PLC_STATUS.PARTITION 0 p).fset PLC_STATUS.CODE 0 code

/-! ### Budgets (R28, R37, R362) -/

/-- The tally period in force, in 10 ns: a fabric Follower takes it from its source's cells (R40). -/
def State.period (s : State) : Nat :=
  if s.fget TLY_SYNC.ROLE 0 = 3 then s.tally.cellPeriod.getD (s.fget TLY_PERIOD.PERIOD 0) else s.fget TLY_PERIOD.PERIOD 0

/-- The test window of a period for a LENGTH (R362), in 10 ns. -/
def windowOf (period length : Nat) : Nat :=
  if length = 0 then 0 else min (max length 100) (period / 4)

/-- The usable time of a tally in ns (R37). -/
def usableNs (period length : Nat) : Nat := 10 * (period - 20 - windowOf period length)

/-- The core clock commanded for a partition in MHz (R351, R352): while a change is in progress, that of the lower of its
current and target points. -/
def State.coreMHz (s : State) (p : Nat) : Nat :=
  1200 + 100 * (if s.fon PWR_PART_STATUS.CHANGING p then
    min (s.fget PWR_PART_STATUS.POINT p) (s.fget PWR_PART_STATUS.TARGET p) else s.fget PWR_PART_STATUS.POINT p)

/-- The lowest core clock of the partitions that hold a list of clusters. -/
def State.slowest (s : State) (l : List Nat) : Nat := (l.map fun L => s.coreMHz (s.hostPart L)).foldl min 2700

/-- A budget of `cycles` fits a usable time at a clock. -/
def budgetFits (cycles mhz usable : Nat) : Bool := decide (cycles * 1000 ≤ usable * mhz)

/-- A context has reserved both clusters of a doubled site (R235). -/
def State.doubledWithin (s : State) (l : List Nat) : Bool :=
  l.any fun L => match (s.cl L).site with
    | some n => decide ((s.site n).holds.length = 2) && (s.site n).holds.all fun M => l.contains M
    | none => false

/-- The budget of an image on the clusters it has (R37, R235). -/
def State.budgetOf (s : State) (im : Image) : Nat :=
  im.budget * (if s.doubledWithin (im.clusters.map (·.cluster)) then 2 else 1)

/-- Whether the budget of every loaded context fits a usable time. -/
def State.contextFits (s : State) (c usable : Nat) : Bool :=
  match s.image c with
  | some im => budgetFits (s.budgetOf im) (s.slowest (im.clusters.map (·.cluster))) usable
  | none => true

def State.usable (s : State) : Nat := usableNs s.period (s.fget BST_WINDOW.LENGTH 0)

/-- A context whose budget no longer fits is reported (R37, R40). -/
def State.checkBudget (s : State) (c : Nat) : State :=
  if s.contextFits c s.usable then s else s.report sevWarning blkTLY Uncoded.budget.code 0xFFFF (some c) []

/-- TLY_CX_BUDGET follows the placement; a doubling is checked at once (R235). -/
def State.syncBudget (s : State) (c : Nat) : State :=
  match s.image c with
  | some im =>
    let b := s.budgetOf im
    if b = s.fget TLY_CX_BUDGET.CYCLES c then s else (s.fset TLY_CX_BUDGET.CYCLES c b).checkBudget c
  | none => s

def contexts : List Nat := List.range 16

def State.syncBudgets (s : State) : State := s.forEach contexts fun c s => s.syncBudget c

/-! ### Sites -/

/-- A partition reset has gone through steps 2 to 6 (R383): the partition is placed at the next step 7. -/
def State.returning (s : State) (p : Nat) : Bool :=
  match mget (fun _ => none) s.recovery.parts p with
  | some r => r.ready
  | none => false

/-- A plan reserves the clusters held on the sites of its partitions (R373). -/
def State.planHolds (s : State) (L : Nat) : Bool :=
  match s.test.plan with
  | some t => (t.plan == 1 || t.plan == 2 || t.plan == 4) && t.mask.testBit (s.hostPart L) && (s.cl L).site.isSome
  | none => false

/-- The placer acts on a partition that is in service, or comes back into it at this boundary (R231, R383). -/
def State.partReady (s : State) (p : Nat) : Bool := s.up (domArr p) && (!s.fenced p || s.returning p)

def siteLt (origin : Nat × Nat) (a b : Nat) : Bool :=
  pairLt (hops origin (siteXY a), localIndex a) (hops origin (siteXY b), localIndex b)

/-- Sites of a partition in a state, nearest to a router first, ties to the lower local index (R233). -/
def State.nearSites (s : State) (p : Nat) (ok : Nat → Bool) (origin : Nat × Nat) : List Nat :=
  if s.partReady p then sortBy (siteLt origin) ((sitesOf p).filter ok) else []

/-- The partitions of the die to lend from, in order (R234); while the mesh is partitioned, then those of the other dies
(R245). -/
def State.lenders (s : State) (p : Nat) : List Nat :=
  let d := 3 * dieOfPart p
  let own := if p % 3 = 0 then [d + 1, d + 2] else if p % 3 = 1 then [d, d + 2] else [d + 1, d]
  if s.fon MSH_STATUS.PARTITIONED 0 then own ++ nat12.filter fun q => dieOfPart q != dieOfPart p else own

/-- Parked delay of a site, by loaded folios. -/
def State.parksAt (s : State) (n : Nat) : List DepthRec := s.placer.depths.filter fun d => d.parkSite == some n

/-- A site of partition `p` other than the rotating spare that can hold one parked delay and satisfies `ok` (R186, R239). -/
def State.parkFor (s : State) (d : DepthRec) (p : Nat) (ok : Nat → Bool) : Option Nat :=
  match s.image d.cx with
  | none => none
  | some im =>
    let used := (s.placer.depths.filter fun e => e.cx == d.cx && e.folio == d.folio && e.parkSite != d.parkSite).filterMap
      fun e => e.parkSite.map fun n => (n, e.parked)
    findPark used d.parked ((s.parkHosts d.cx im d.folio d.cluster p).filter fun h => ok h.1)

/-- Another site of the partition for a parked delay. -/
def State.newPark (s : State) (d : DepthRec) (not_ : Nat) : Option Nat := s.parkFor d (partOfSite not_) (· != not_)

/-- The order of R232: contexts by rotating priority, unreserved clusters after, lower numbers first. -/
def State.rank (s : State) (c : Option Nat) : Nat :=
  match c with
  | some c => (c + 16 - s.tally.count % 16) % 16
  | none => 16

def State.rankLt (s : State) (a b : Nat) : Bool := pairLt (s.rank (s.owner a), a) (s.rank (s.owner b), b)

/-- The order of R232 among endpoints that want free space for parked delay. -/
def State.depthLt (s : State) (a b : DepthRec) : Bool :=
  pairLt (s.rank (some a.cx), a.cluster) (s.rank (some b.cx), b.cluster)

/-- The parked delay of a site given other places one after the other, in the order of R232, and whether each found one
(R239). -/
def State.movedParks (s : State) (n : Nat) : State × Bool :=
  (sortBy s.depthLt (s.parksAt n)).foldl
    (fun (acc : State × Bool) d =>
      match acc.1.newPark d n with
      | none => (acc.1, false)
      | some m =>
        ({ acc.1 with placer := { acc.1.placer with
            depths := acc.1.placer.depths.map fun e => if e = d then { e with parkSite := some m } else e } }, acc.2))
    (s, true)

/-- A PARKED site can be taken: no context with delay there continues under Skip, and each delay finds another place
(R233 item 2, R239). -/
def State.relocatable (s : State) (n : Nat) : Bool :=
  ((s.parksAt n).all fun d => (s.cx d.cx).decision != .skip) && (s.movedParks n).2

/-- A site's state shows whether delay is parked there. -/
def State.syncParked (s : State) (n : Nat) : State :=
  s.updSite n fun x =>
    if x.state = .SPARE ∨ x.state = .PARKED then { x with state := if (s.parksAt n).isEmpty then .SPARE else .PARKED } else x

/-- The parked delay of a site moves to other sites (R239). -/
def State.moveParks (s : State) (n : Nat) : State :=
  let s := (s.movedParks n).1
  s.forEach (s.placer.depths.filterMap (·.parkSite)) fun m s => s.syncParked m

/-- Parked delay that has other sites than before a step 7: all of it takes its free space anew in the order of R232, whatever
sites it came from, where every part then has a place (R231 action 4, R239). -/
def State.rankParks (s : State) (before : List DepthRec) : State :=
  let same := fun (a b : DepthRec) => a.cx == b.cx && a.folio == b.folio && a.cluster == b.cluster && a.ep == b.ep
  let moved := s.placer.depths.filter fun d =>
    d.parkSite.isSome && before.any fun b => same d b && b.parkSite.isSome && b.parkSite != d.parkSite
  let away := fun (d : DepthRec) => if moved.contains d then { d with parkSite := none } else d
  let t := { s with placer := { s.placer with depths := s.placer.depths.map away } }
  let (t, ok) := (sortBy s.depthLt moved).foldl (fun (acc : State × Bool) d =>
    match acc.1.parkFor (away d) (partOfSite (d.parkSite.getD 0)) (fun _ => true) with
    | none => (acc.1, false)
    | some m =>
      ({ acc.1 with placer := { acc.1.placer with
          depths := acc.1.placer.depths.map fun e => if e = away d then { e with parkSite := some m } else e } }, acc.2))
    (t, true)
  if moved.isEmpty || !ok then s
  else t.forEach ((s.placer.depths ++ t.placer.depths).filterMap (·.parkSite)).dedup fun m t => t.syncParked m

/-- The 4 KiB units of a vault's regions in a tier of 1,024 units, as (first, count) within the tier (R129, R235). -/
def State.tierRegions (s : State) (L t : Nat) : List (Nat × Nat) :=
  (List.range 16).filterMap fun i =>
    let r := s.region L i
    let lo := max r.base (t * 4194304)
    let hi := min (r.base + r.span) ((t + 1) * 4194304)
    if r.kind = 0 ∨ hi ≤ lo then none else some (lo / 4096 - 1024 * t, (hi - lo) / 4096)

/-- The units of a cluster's extension slots in the active folio, in bytes, at most. -/
def State.extBytes (s : State) (L : Nat) : Nat :=
  4096 * ((((s.placer.depths.filter fun d => d.cluster == L && (s.owner L == some d.cx)
    && d.folio == s.activeFolio d.cx).map (·.ext)).sum + 11) / 12)

/-- A cluster's context continues its segment under Skip at this boundary, so its extension slots stay (R235). -/
def State.skipping (s : State) (L : Nat) : Bool :=
  match s.owner L with
  | some c => (s.cx c).decision == .skip
  | none => false

/-- The units of the extension slots that lie in a tier: the lowest free units (R175). -/
def State.extIn (s : State) (L t : Nat) : List (Nat × Nat) :=
  (((s.freeUnits L).take (s.extBytes L / 4096)).filter fun u => u / 1024 == t).map fun u => (u % 1024, 1)

/-- What a cluster occupies of a tier and cannot move from it. -/
def State.tierUse (s : State) (L t : Nat) : List (Nat × Nat) :=
  s.tierRegions L t ++ if s.skipping L then s.extIn L t else []

/-- Two ranges of a tier meet, the second moved by `d` units around it. -/
def unitsMeet (a b : Nat × Nat) (d : Nat) : Bool :=
  let x := (b.1 + d) % 1024
  decide ((x + 1024 - a.1) % 1024 < a.2) || decide ((a.1 + 1024 - x) % 1024 < b.2)

/-- The least move, in units of 16 stripes, by which ranges come to lie beside others in a tier. That rows are counted
modulo the tier's 16,384, and that the least move is taken, are DESIGN CHOICE (R235). -/
def tierShift (a b : List (Nat × Nat)) : Option Nat :=
  (List.range 1024).find? fun d => a.all fun x => b.all fun y => !unitsMeet x y d

/-- The row offsets of the tiers of the second cluster `M` beside `L`, or none where they do not fit (R235): in each tier
their regions and the extension slots that stay, and the other extension slots wherever the tiers leave room. -/
def State.offsetsFor (s : State) (L M : Nat) : Option (List Nat) :=
  let shifts := (List.range 3).map fun t => tierShift (s.tierUse L t) (s.tierUse M t)
  let used := ((List.range 3).map fun t => ((s.tierUse L t ++ s.tierUse M t).map (·.2)).sum).sum
  let loose := fun K => if s.skipping K then 0 else s.extBytes K / 4096
  if shifts.all (·.isSome) ∧ used + loose L + loose M ≤ 3072 then some (shifts.map fun d => 16 * d.getD 0) else none

def State.fitTogether (s : State) (L M : Nat) : Bool := (s.offsetsFor M L).isSome

/-- The class of a doubling partner (R235). -/
def State.partnerClass (s : State) (L n : Nat) : Nat :=
  match (s.site n).holds with
  | [M] => if (s.owner M).isNone then 0 else if s.owner M == s.owner L then 1 else 2
  | _ => 3

/-- A site to double on (R235). -/
def State.findDouble (s : State) (L : Nat) (origin : Nat × Nat) (parts : List Nat) : Option Nat :=
  parts.findSome? fun q =>
    let l := s.nearSites q (fun n => (s.site n).state == .HOLDING && (match (s.site n).holds with
      | [M] => s.fitTogether L M
      | _ => false)) origin
    [0, 1, 2].findSome? fun k => l.find? fun n => s.partnerClass L n == k

/-- Where a displaced cluster goes, and the event of it: 1 MOVE, 2 LEND, 3 DOUBLE (R233 to R235). -/
def State.findSite (s : State) (L : Nat) (origin : Nat × Nat) : Option (Nat × Nat) :=
  let p := partOf L
  let st := fun k n => (s.site n).state == k
  let free := fun n => st .SPARE n || (st .PARKED n && s.relocatable n)
  let lend := s.lenders p
  let first := fun (l : List Nat) (kind : Nat) => l.head?.map fun n => (n, kind)
  ((first (s.nearSites p (st .SPARE) origin) 1).orElse fun _ =>
    (first (s.nearSites p free origin) 1).orElse fun _ =>
    (first (s.nearSites p (st .ROTATING) origin) 1).orElse fun _ =>
    (first (lend.flatMap fun q => s.nearSites q free origin) 2).orElse fun _ =>
    (first (lend.flatMap fun q => s.nearSites q (st .ROTATING) origin) 2).orElse fun _ =>
    (s.findDouble L origin (p :: lend)).map fun n => (n, 3))

/-! ### Moving a cluster (R137, R238) -/

/-- The arrays of a site no longer hold what a test or raw access left there: their units are loaded again, and its vault has
another use (R365). -/
def State.ungrounded (s : State) (n : Nat) : State :=
  let s := s.updSite n fun x => { x with left := [], marched := false }
  { s with test := { s.test with cells := mkeep (fun k => decide (k / 2 ^ 14 / 32 ≠ n)) s.test.cells } }

/-- A cluster leaves its site; the array keeps what it held, and delay parked there makes the site PARKED. A move that was
under way ends (R236). -/
def State.leaveSite (s : State) (L : Nat) : State :=
  match (s.cl L).site with
  | none => s
  | some n =>
    let v := (s.cl L).vault
    let s := s.updSite n fun x =>
      let h := x.holds.filter (· != L)
      { x with holds := h, tag := h, tierOffsets := [0, 0, 0], tagOffsets := [0, 0, 0], turn := 0, bad := (s.cl L).bad,
               left := if x.marched then mputs x.ground [] v else v
               state := if h.isEmpty ∧ x.state = .HOLDING then .SPARE else x.state }
    ({ s with placer := { s.placer with leftSite := mput (fun _ => none) s.placer.leftSite L (some n) } }.syncParked n).updCl L
      fun k => { k with site := none, moving := false, copyFrom := none }

/-- A cluster takes a site, alone or beside another (R224, R225, R235). -/
def State.takeSite (s : State) (L n : Nat) : State :=
  let offsets := match (s.site n).holds with
    | M :: _ => (s.offsetsFor M L).getD [0, 0, 0]
    | [] => [0, 0, 0]
  (s.updSite n fun x => { x with
    bad := [], holds := x.holds ++ [L], tag := x.holds ++ [L], tierOffsets := offsets, tagOffsets := offsets
    state := .HOLDING }).updCl L
    fun k => { k with site := some n }

/-- The partition has lost its rotating spare: the lowest SPARE site becomes it, or in-service scan stops (R233, R242). -/
def State.fillRotating (s : State) (p : Nat) : State :=
  if (sitesOf p).any fun n => (s.site n).state == .ROTATING then s
  else
    match (sitesOf p).find? fun n => (s.site n).state == .SPARE with
    | some n => s.updSite n fun x => { x with state := .ROTATING }
    | none => s

/-- Ranges of a vault that a move copies (R137): current halves, constant and ring regions. -/
def State.copiedRanges (s : State) (L : Nat) : List (Nat × Nat) :=
  (List.range 16).filterMap fun i =>
    let r := s.region L i
    if r.kind = 2 then some (r.base + r.current * r.length, r.length)
    else if r.kind = 3 ∨ r.kind = 4 then some (r.base, r.length) else none

def inRanges (l : List (Nat × Nat)) (a : Nat) : Bool := l.any fun r => decide (r.1 ≤ a) && decide (a < r.1 + r.2)

def State.scanning (s : State) (p : Nat) : Option Nat := mget (fun _ => none) s.placer.scanSite p

/-- A scan of a site begins at pattern 0, or the scan of the partition ends (R367); a slice that failed once is not
repeated any more. -/
def State.setScan (s : State) (p : Nat) (n : Option Nat) : State :=
  let s := { s with placer := { s.placer with scanSite := mput (fun _ => none) s.placer.scanSite p n }
                    test := { s.test with
                      pattern := mput (fun _ => 0) s.test.pattern p 0
                      once := s.test.once.filter fun f => !(f.part == p && f.work.isScan) } }
  (s.fbit SCN_PART.ACTIVE p n.isSome).fset SCN_PART.PATTERN p 0

/-- The site under scan is taken: the scan ends without result (R368). -/
def State.scanLost (s : State) (n : Nat) : State :=
  if s.scanning (partOfSite n) = some n then (s.setScan (partOfSite n) none).finc SCN_PART.ABANDONED (partOfSite n) else s

/-- A site that a self-test has retired: its ledger entry has CAUSE 5 or 6 (R369). -/
def State.testedOut (s : State) (n : Nat) : Bool :=
  (s.placer.defects ++ s.placer.appends).any fun d => d.kind == 1 && (d.cause == 5 || d.cause == 6) && d.location == n

/-- A cluster that has finished and whose site a self-test has retired: its segment is not run again on this account (R369).
-/
def State.goesOn (s : State) (L : Nat) : Bool :=
  (s.cl L).inSegment && s.finished L && (mget (fun _ => none) s.placer.leftSite L).any s.testedOut

/-- A cluster goes to a site. Its copy is under way until MOVE_COPY_COMPLETE; one that no context has reserved has
nothing to copy, and its words are free space. A segment that it was running there is run again, but for R369. -/
def State.moveTo (s : State) (L n : Nat) : State :=
  let old := (s.cl L).site.orElse fun _ => mget (fun _ => none) s.placer.leftSite L
  let was := (s.site n).state
  let bad := (s.site n).bad
  let s := ((s.leaveSite L).moveParks n).scanLost n
  let s := s.takeSite L n
  let s := if was = .ROTATING then s.fillRotating (partOfSite n) else s
  match s.owner L with
  | none => s.updCl L fun k => { k with vault := mputs zeroByte [] (s.site n).left, bad := bad, moving := false }
  | some c =>
    let stays := s.goesOn L
    let s := if (s.cl L).inSegment && !stays then s.updCx c fun x => { x with rerunMark := true } else s
    let s := s.ungrounded n
    let s := if (s.cl L).staged.isSome then s.fset FOL_CX_STATE.STAGED c 0 else s
    s.updCl L fun k => { k with moving := true, copyFrom := old, loading := none, staged := none, inSegment := stays }

/-- A memory object that backs a constant region, and where in it (R199). -/
def State.backing (s : State) (c L r : Nat) : Option (Nat × Nat) :=
  (s.image c).bind fun im =>
    (im.clusters.find? fun k => k.cluster == L).bind fun k =>
      (k.regions[r]?).bind fun g =>
        if g.kind = 3 ∧ g.object ≠ 0 then
          (im.objects.find? fun o => o.object == g.object).map fun o => (o.base + g.offset, 4096 * g.length)
        else none

/-- Memory read into a constant region: poisoned blocks become zeros, and stop the context at the next boundary
(R458). Bytes of blocks that the mesh or their controllers answer FENCED are zeros as well (R24). -/
def State.fillFrom (s : State) (c L a n to_ : Nat) : State :=
  let (r, s) := s.memReadBy (.cluster L 0) c a n false
  let s := s.updCl L fun k => { k with
    vault := mrun zeroByte k.vault to_ r.bytes
    bad := mkeep (fun g => decide (8 * g + 8 ≤ to_) || decide (to_ + n ≤ 8 * g)) k.bad }
  if r.poison then s.loadPoison c L else s

/-- The descriptor table of the active folio, where it covers an address of a constant region with OBJECT 0 (R200). -/
def State.tableAt (s : State) (c L a n : Nat) : List Byte × Bool × State :=
  match (s.image c).bind fun im => ((im.users (s.activeFolio c)).find? fun u => u.cluster == L).map fun u => (im, u) with
  | none => (List.replicate n 0, false, s)
  | some (im, u) =>
    match im.segment u.descSeg with
    | none => (List.replicate n 0, false, s)
    | some g =>
      if u.descAddr ≤ a ∧ a + n ≤ u.descAddr + g.length then
        s.readStore c L (im.dataOffset + g.offset + (a - u.descAddr)) n
      else (List.replicate n 0, false, s)

/-- A word of a constant region is loaded again (R141, R200, R458). -/
def State.reloadGroup (s : State) (c L g : Nat) : State :=
  match s.regionAt L (8 * g) with
  | some (r, reg) =>
    match s.backing c L r with
    | some (a, _) => s.fillFrom c L (a + (8 * g - reg.base)) 8 (8 * g)
    | none =>
      let (b, bad, s) := s.tableAt c L (8 * g) 8
      let s := if bad then s.loadPoison c L else s
      s.updCl L fun k => { k with vault := mrun zeroByte k.vault (8 * g) b
                                  bad := mput (fun _ => false) k.bad g false }
  | none => s

/-- A group of a vault is written with zeros and good parity. -/
def State.zeroGroup (s : State) (L g : Nat) : State :=
  s.updCl L fun k => { k with vault := mrun zeroByte k.vault (8 * g) (List.replicate 8 0)
                              bad := mput (fun _ => false) k.bad g false }

/-- A failing group is put right (R141 item 4, R142): zeros, or the constant loaded again. A ring that lost a word is
emptied and counts its EPOCH on (R258). The failing word is taken to be the 8 bytes whose parity failed, and the rest of
its 32-byte bank word stays, DEDUCED, log entry 68. -/
def State.repairGroup (s : State) (L g : Nat) : State :=
  match s.owner L, s.regionAt L (8 * g) with
  | some c, some (i, r) =>
    if r.kind = 3 then s.reloadGroup c L g
    else if r.kind = 4 then
      let epoch := s.hdr L r.base ringEpoch
      ((s.zeroGroup L g).setHdr L r.base ringEpoch epoch).resetRing L i
    else s.zeroGroup L g
  | _, _ => s.zeroGroup L g

/-- The failing groups of a cluster, as reported in the tally, are put right before step 13 (R141). -/
def State.repairVault (s : State) (L : Nat) : State :=
  (s.forEach (s.cl L).failed fun g s => s.repairGroup L g).updCl L fun k => { k with failed := [] }

/-- A failing word found by a move or by a scrub: counted and reported as R97 and R141 give, without a rerun; the window of
site `old` advances; a constant is loaded again, committed data is lost (R143, R238). -/
def State.foundParity (s : State) (c L old g : Nat) (port : VPort) : State :=
  let s := ((s.parityCount L g port false).hwSend L .parity blkVLT 1 false (s.parityDetail L (8 * g))).noteSite old
  let s := if s.irreparable L g then
      ((s.finc VLT_PARITY.LOST L).report sevError blkVLT 5 L (some c) [BitVec.ofNat 32 (8 * g)]).markFault c 0x05
    else s
  (s.repairGroup L g).updCl L fun k => { k with failed := k.failed.filter (· != g) }

/-- Every constant region of a cluster is filled from what backs it (R217, R238, R458). -/
def State.fillConstants (s : State) (c L : Nat) : State :=
  s.forEach (List.range 16) fun r s =>
    let g := s.region L r
    if g.kind = 3 then
      match s.backing c L r with
      | some (a, n) => s.fillFrom c L a n g.base
      | none =>
        s.updCl L fun k => { k with
          vault := mkeep (fun x => decide (x < g.base) || decide (g.base + g.length ≤ x)) k.vault
          bad := mkeep (fun x => decide (8 * x + 8 ≤ g.base) || decide (g.base + g.length ≤ 8 * x)) k.bad }
    else s

/-- The vault of a cluster cannot be read at all: its carried and ring regions are lost, the rings' epochs count on, and its
constant regions are loaded again (R142, R238, R258). Nothing else is in its new vault. -/
def State.vaultUnread (s : State) (c L : Nat) : State :=
  let rings := (List.range 16).filter fun i => (s.region L i).kind == 4
  let epochs := rings.map fun i => (i, s.hdr L (s.region L i).base ringEpoch)
  let held := (List.range 16).any fun i => (s.region L i).kind == 2 || (s.region L i).kind == 4
  let s := s.updCl L fun k => { k with vault := [], bad := [] }
  let s := s.fillConstants c L
  let s := s.forEach epochs fun e s => (s.setHdr L (s.region L e.1).base ringEpoch e.2).resetRing L e.1
  if held then ((s.finc VLT_PARITY.LOST L).report sevError blkVLT 5 L (some c) []).markFault c 0x05 else s

/-- The copy of a move ends (R137, R238): current halves, constants and rings come over. Scratch regions and next halves read
as zero, since what the new site's array held may be another context's data (R426): DESIGN CHOICE, log entry 81. An old
site whose vault cannot be read loses the data of every cluster there. -/
def State.finishCopy (s : State) (c L : Nat) (readable : Bool) : State :=
  let ranges := s.copiedRanges L
  let k := s.cl L
  if readable then
    let failing := (k.bad.filter fun e => e.2 && inRanges ranges (8 * e.1)).map (·.1)
    let s := s.updCl L fun k => { k with vault := mkeep (inRanges ranges) k.vault, bad := k.bad.filter fun e => failing.contains e.1 }
    s.forEach failing fun g s => s.foundParity c L (k.copyFrom.getD ((k.site).getD 0)) g .mesh
  else
    let others := match k.copyFrom with
      | some m => ((s.site m).holds.filter (· != L)).filterMap fun M => (s.owner M).map fun d => (d, M)
      | none => []
    (s.forEach others fun e s => s.vaultUnread e.1 e.2).vaultUnread c L

/-- MOVE_COPY_COMPLETE (R238): the copy and the reload of the configuration have ended. -/
def State.moveComplete (s : State) (L : Nat) (readable : Bool) : State :=
  match (s.cl L).site, s.owner L with
  | some _, some c =>
    if (s.cl L).moving then
      let s := s.finishCopy c L readable
      let (bad, s) := if s.folState c = folNone then (false, s) else s.loadConfig c L (s.activeFolio c) none
      let s := if bad then s.loadPoison c L else s
      (s.updCl L fun k => { k with moving := false, copyFrom := none }).startIfReady c L
    else s
  | _, _ => s

/-- The cycles of a move's copy and load (R137, R192, R238). -/
def State.moveCycles (s : State) (L : Nat) : Nat :=
  let copy := ((s.copiedRanges L).map (·.2)).sum / 128
  match (s.owner L).bind s.image with
  | none => 0
  | some im =>
    let load := match (im.users (s.activeFolio ((s.owner L).getD 0))).find? fun u => u.cluster == L with
      | some u => 64 + (im.configBytes u + 15) / 16
      | none => 0
    max copy load

/-- A voluntary move may be made (R237): the context committed its segment or ran none, and the copy fits its slack. -/
def State.mayMove (s : State) (L : Nat) : Bool :=
  match s.owner L with
  | none => true
  | some c =>
    let x := s.cx c
    (x.decision == .commit || !x.segment) && !(s.cl L).moving
      && (match s.image c with
          | some im =>
            let mhz := s.slowest (im.clusters.map (·.cluster))
            decide ((s.moveCycles L + s.budgetOf im) * 1000 ≤ s.usable * mhz)
          | none => true)

/-! ### Circuits and trees (R156 to R158, R162, R240) -/

/-- The outputs of a path, each with the hops from the first: router, output port (R156). The last is the local one. -/
def pathOutputs (d : Nat × Nat) : Nat → Nat × Nat → Nat → List (Nat × Nat × Nat)
  | 0, _, _ => []
  | k + 1, q, h =>
    if q = d then [(42 * q.2 + q.1, portNum .here, h)]
    else
      let m := orderNext q d
      let out : Port := if m.1 > q.1 then .east else if m.1 < q.1 then .west else if m.2 > q.2 then .south else .north
      (42 * q.2 + q.1, portNum out, h) :: pathOutputs d k m (h + linkHops q m)

/-- The slots of circuit `r` at output (router, port): those at the first output shifted by the hops (R156). -/
def Circuit.slotsAt (r : Circuit) (router port : Nat) (hopsAt : Nat) : List Nat :=
  if r.outputs.contains (router, port) then r.slots.map fun x => (x + 2 * hopsAt) % 64 else []

/-- The hops along a circuit's path to an output. -/
def Circuit.hopsTo (r : Circuit) (router port : Nat) : Nat :=
  let l := r.outputs.takeWhile fun o => o != (router, port)
  let pts := l.map fun o => siteXY o.1
  ((pts.zip (pts.drop 1 ++ [siteXY router])).map fun e => linkHops e.1 e.2).sum

/-- Slots reserved at an output against a folio of a context: every folio of the other contexts, and the folio's own
circuits. Folios of one context never run together: DESIGN CHOICE. -/
def takenSlots (l : List Circuit) (c f router port : Nat) : List Nat :=
  ((l.filter fun r => (r.cx != c || r.folio == f)).flatMap fun r => r.slotsAt router port (r.hopsTo router port)).dedup

/-- The lowest `n` slots at the first output that are free at each output of a path, within the LIMIT of each (R158). -/
def State.findSlots (s : State) (l : List Circuit) (c f n : Nat) (outs : List (Nat × Nat × Nat)) : Option (List Nat) :=
  let taken := outs.map fun o => (o.2.2, takenSlots l c f o.1 o.2.1)
  let fits := (outs.zip taken).all fun e =>
    decide (e.2.2.length + n ≤ s.fget MSH_SLOT_LIMIT.LIMIT (partOfSite e.1.1))
  let free := (List.range 64).filter fun x => taken.all fun t => !t.2.contains ((x + 2 * t.1) % 64)
  if fits ∧ n ≤ free.length then some (free.take n) else none

/-- A path that no fault region cuts. -/
def State.clearPath (s : State) (a b : Nat × Nat) : Bool :=
  !(s.placer.regions.any fun r => regionHas r a || enters r a b)

/-- A circuit or halo of a folio placed beside those of `l`; with no slots it has none (R240). -/
def State.placeCircuit (s : State) (l : List Circuit) (c f : Nat) (halo : Bool) (id from_ to_ n : Nat) : Circuit :=
  let a := s.clusterXY from_
  let b := s.clusterXY to_
  let outs := pathOutputs b 60 a 0
  let slots := if s.clearPath a b then (s.findSlots l c f n outs).getD [] else []
  ⟨c, f, halo, id, outs.map fun o => (o.1, o.2.1), slots⟩

/-- The circuits and halos that a folio asks for: whether a halo, number, source, destination, slots. -/
def Image.wanted (im : Image) (f : Nat) : List (Bool × Nat × Nat × Nat × Nat) :=
  ((im.users f).flatMap fun u => ((im.epsOf u).filter fun e => !e.recv && e.circuit
      && (im.circuitOf f u.cluster e.endpoint false).isNone).map
    fun e => (false, u.cluster * 2048 + e.endpoint, u.cluster, e.peerCluster, e.slots))
    ++ ((im.halos.filter fun h => h.folio == f).map fun h => (true, h.halo, h.src, h.dst, h.slots))

/-- All circuits of a folio, beside those already placed. -/
def State.placeCircuits (s : State) (l : List Circuit) (c : Nat) (im : Image) (f : Nat) : List Circuit :=
  (im.wanted f).foldl (fun l w => l ++ [s.placeCircuit l c f w.1 w.2.1 w.2.2.1 w.2.2.2.1 w.2.2.2.2]) l

/-- The routers of a group's tree (R162). -/
def State.treeRouters (s : State) (g : ClearingRec) : List Nat :=
  let root := s.clusterXY g.root
  ((42 * root.2 + root.1) :: g.contributors.flatMap fun L =>
    let a := s.clusterXY L
    (42 * a.2 + a.1) :: (orderPath root 60 a).map fun q => 42 * q.2 + q.1).dedup

/-- Groups that use a router against a folio of a context (R162). -/
def treeUse (l : List Tree) (c f router : Nat) : Nat :=
  l.countP fun t => (t.cx != c || t.folio == f) && t.routers.contains router

/-- The trees of a folio; one that does not fit has no routers (R240). -/
def State.placeTrees (s : State) (l : List Tree) (c : Nat) (im : Image) (f : Nat) : List Tree :=
  (im.clearing.filter fun g => g.folio == f).foldl (fun l g =>
    let rs := s.treeRouters g
    l ++ [⟨c, f, g.tag, if rs.all fun r => decide (treeUse l c f r < 32) then rs else []⟩]) l

/-- Clusters of a folio that lie in different parts of a partitioned mesh, or whose objects' HOME does (R154). -/
def State.unreachable (s : State) (im : Image) (f : Nat) : Bool :=
  let l := (im.users f).map fun u => s.clusterXY u.cluster
  l.any fun a => l.any (fun b => s.parted a b)
    || im.objects.any fun o => o.interleave == 0 && s.parted a (s.unitXY (.channel o.home 0) a)

/-- The choices for one folio: circuits, trees, depths. -/
structure Plan where
  circuits : List Circuit
  trees : List Tree
  depths : List DepthRec

/-- One folio is placed beside `p`, or rejected with the code of R247; the order of the causes is DESIGN CHOICE. -/
def State.placeFolio (s : State) (c : Nat) (im : Image) (f : Nat) (p : Plan) : Except Nat Plan :=
  if (im.users f).any fun u => (s.cl u.cluster).site.isNone then .error 5
  else if s.unreachable im f then .error 4
  else
    (s.planDepths c im f).bind fun d =>
      let cs := s.placeCircuits p.circuits c im f
      let ts := s.placeTrees p.trees c im f
      if (cs.drop p.circuits.length).any fun r => r.slots.isEmpty then .error 2
      else if (ts.drop p.trees.length).any fun t => t.routers.isEmpty then .error 3
      else .ok ⟨cs, ts, p.depths ++ d⟩

/-- Every folio of an image is placed (R216 item 2): the folio and code of the first rejection. An image that names an
unplaced cluster is refused (R236). -/
def State.placeImage (s : State) (c : Nat) (im : Image) : Except (Nat × Nat) Plan :=
  if im.clusters.any fun r => (s.cl r.cluster).site.isNone then .error (0, 5)
  else (List.range im.folios.length).foldl (fun acc f => acc.bind fun p =>
    match s.placeFolio c im f p with
    | .ok q => .ok q
    | .error e => .error (f, e)) (.ok ⟨s.placer.circuits, s.placer.trees, s.placer.depths⟩)

/-- The plan takes effect with the load (R216). -/
def State.adopt (s : State) (p : Plan) : State :=
  let s := { s with placer := { s.placer with circuits := p.circuits, trees := p.trees, depths := p.depths } }
  s.forEach (p.depths.filterMap (·.parkSite)) fun n s => s.syncParked n

/-- The choices of a context's folios are dropped. -/
def State.dropPlan (s : State) (c : Nat) : State :=
  let sites := (s.placer.depths.filter fun d => d.cx == c).filterMap (·.parkSite)
  let s := { s with placer := { s.placer with
    circuits := s.placer.circuits.filter fun r => r.cx != c
    trees := s.placer.trees.filter fun t => t.cx != c
    depths := s.placer.depths.filter fun d => d.cx != c } }
  s.forEach sites fun n s => s.syncParked n

/-- A folio is placed again after a move (R240): what does not fit falls back, and nothing is rejected. -/
def State.replaceFolio (s : State) (c : Nat) (im : Image) (f : Nat) : State :=
  let cs := s.placer.circuits.filter fun r => !(r.cx == c && r.folio == f)
  let ts := s.placer.trees.filter fun t => !(t.cx == c && t.folio == f)
  let cs := s.placeCircuits cs c im f
  let ts := s.placeTrees ts c im f
  { s with placer := { s.placer with circuits := cs, trees := ts } }

/-- The endpoints of a folio are placed again on the placement of step 7 (R230): where their depth finds no room they stay
as they are. Those of the active folio are empty at a boundary, so they take the new depths with every credit. -/
def State.replaceDepths (s : State) (c : Nat) (im : Image) (f : Nat) : State :=
  match s.planDepths c im f with
  | .error _ => s
  | .ok l =>
    let old := s.placer.depths.filter fun d => d.cx == c && d.folio == f
    if l = old then s
    else
      let s : State := { s with placer := { s.placer with
        depths := (s.placer.depths.filter fun d => !(d.cx == c && d.folio == f)) ++ l } }
      let s := s.forEach ((old ++ l).filterMap (·.parkSite)) fun n s => s.syncParked n
      if s.folState c ≠ folNone ∧ s.activeFolio c = f then s.installEndpoints c im f else s

/-- The clusters of a site load their configuration again, after a row of its instruction memory was mapped (R103, R145).
-/
def State.reloadAt (s : State) (n : Nat) : State :=
  s.forEach (s.site n).holds fun L s => match s.owner L with
    | some c => s.loadAgain c L
    | none => s

/-- A context runs with the fallback routing of R240. -/
def State.degraded (s : State) (c : Nat) : Bool :=
  (s.placer.circuits.any fun r => r.cx == c && r.slots.isEmpty) || s.placer.trees.any fun t => t.cx == c && t.routers.isEmpty

/-- PLC_DEGRADED follows the choices; a context newly marked is reported (R240). -/
def State.syncDegraded (s : State) : State :=
  let old := s.fget PLC_DEGRADED.CONTEXTS 0
  let now := (contexts.map fun c => if s.degraded c then 2 ^ c else 0).sum
  let s := s.fset PLC_DEGRADED.CONTEXTS 0 now
  s.forEach contexts fun c s =>
    if now.testBit c && !old.testBit c then s.plcEvent 8 15 none (some c) sevWarning else s

/-! ### Slot tables (R157) -/

/-- The number of the router input by which a circuit enters each output of its path: the local input first. -/
def Circuit.inputs (r : Circuit) : List Nat :=
  portNum .here :: r.outputs.map fun o =>
    if o.2 = portNum .east then portNum .west else if o.2 = portNum .west then portNum .east
    else if o.2 = portNum .south then portNum .north else if o.2 = portNum .north then portNum .south else portNum .here

/-- Slot entries of a circuit: key (router, output, slot), input, circuit, context. -/
def Circuit.entries (r : Circuit) : List (Nat × Option (Nat × Nat × Nat)) :=
  (r.outputs.zip r.inputs).flatMap fun e =>
    (r.slotsAt e.1.1 e.1.2 (r.hopsTo e.1.1 e.1.2)).map fun x =>
      (((e.1.1 * 5 + e.1.2) * 64 + x), some (e.2, (if r.halo then 2 ^ 20 else 0) + r.id, r.cx))

/-- The circuits of the folios that are active. -/
def State.activeCircuits (s : State) : List Circuit :=
  s.placer.circuits.filter fun r => decide (s.folState r.cx ≠ folNone) && r.folio == s.activeFolio r.cx

/-- The entries of a context that continues under Skip, or whose switch slips, stay as they are (R157). -/
def State.keepsSlots (s : State) (c : Nat) : Bool :=
  (s.cx c).decision == .skip || ((s.cx c).switchDue && !s.drainedBefore c)

/-- The slot entries of the contexts that keep theirs. -/
def State.keptEntries (s : State) : List (Nat × Option (Nat × Nat × Nat)) :=
  s.mesh.slots.filter fun e => match e.2 with
    | some x => s.keepsSlots x.2.2
    | none => false

/-- The placer writes the shadow tables: entries that are kept are copied unchanged (R157, R231 action 8). -/
def State.writeShadow (s : State) : State :=
  { s with mesh := { s.mesh with
      shadow := mputs (fun _ => none) []
        (s.keptEntries ++ ((s.activeCircuits.filter fun r => !s.keepsSlots r.cx).flatMap (·.entries))) } }

/-- Step 9 makes the shadow tables active. -/
def State.swapSlots (s : State) : State := { s with mesh := { s.mesh with slots := s.mesh.shadow } }

/-- The most slots reserved at any output of a partition (R158): by each context the most of any of its folios. -/
def State.mostReserved (s : State) (p : Nat) : Nat :=
  let outs := ((s.placer.circuits.flatMap (·.outputs)).filter fun o => partOfSite o.1 == p).dedup
  (outs.map fun o =>
    (contexts.map fun c =>
      ((s.placer.circuits.filter fun r => r.cx == c).map (·.folio)).dedup.foldl (fun m f =>
        max m (((s.placer.circuits.filter fun r => r.cx == c && r.folio == f).flatMap fun r =>
          r.slotsAt o.1 o.2 (r.hopsTo o.1 o.2)).length)) 0).sum).foldl max 0

end Sys2Proof.Machine
end

