-- ==== Sys2Proof/Machine/Healing.lean ====
section
/-! DEFINITION. What the placer does (10_placement_and_self_healing.md): placement at bring-up, step 7 of R33 in the
order of R231, rotation, page migration, the ledgers. -/
namespace Sys2Proof.Machine

open Sys2Proof

/-! ### Retirement (R98, R231 action 1) -/

/-- Mismatching tallies of a site among the last AUD_WINDOW tallies of its partition, up to tally `last` (R98). -/
def State.windowHits (s : State) (n last : Nat) : Nat :=
  let w := s.fget MXC_AUDIT_POLICY.AUD_WINDOW (partOfSite n)
  (s.site n).window.countP fun t => w == 0 || decide (last < t + w)

/-- A site has reached AUD_RETIRE_COUNT by tally `last` (R98); 0 retires none. At step 7 the last tally is the one that the
boundary ended, whose number TLY_COUNT has passed. -/
def State.retireDue (s : State) (n last : Nat) : Bool :=
  let k := s.fget MXC_AUDIT_POLICY.AUD_RETIRE_COUNT (partOfSite n)
  k != 0 && decide (k ≤ s.windowHits n last) && (s.site n).state != .DEFECTIVE

/-- The site is to be retired at the next step 7, with the CAUSE of its ledger entry. -/
def State.retireSite (s : State) (n cause : Nat) : State :=
  s.updSite n fun x => if x.state = .DEFECTIVE then x else { x with retire := some (x.retire.getD cause) }

/-- AUDIT_RETIRE (R98). -/
def execAuditRetire (site : Nat) (s : State) : Host.Outcome State Fault Refusal :=
  onUnit (okSite site) (if s.retireDue site s.tally.count then s.retireSite site 2 else s)

/-- Clusters of a site lose it; parked delay there moves (R231). -/
def State.vacate (s : State) (n : Nat) (st : SiteState) : State :=
  let was := (s.site n).state
  let p := partOfSite n
  let s := s.forEach (s.site n).holds fun L s => s.leaveSite L
  let s := s.moveParks n
  let s := s.updSite n fun x => { x with
    state := st, retire := if st = .CUT then x.retire else none, holds := [], tag := [], tierOffsets := [0, 0, 0]
    tagOffsets := [0, 0, 0] }
  let s := if s.scanning p = some n then s.setScan p none else s
  if was = .ROTATING then
    let s := s.fillRotating p
    if (sitesOf p).any fun m => (s.site m).state == .ROTATING then s else s.plcEvent 6 p none none sevInfo
  else s

/-- A site is retired: DEFECTIVE at once, its entry on the way to flash (R228). -/
def State.failSite (s : State) (n cause : Nat) : State :=
  (s.vacate n .DEFECTIVE).ledgerAppend (if (s.site n).routerBad then 2 else 1) cause n

def allSites : List Nat := List.range Config.nSites

/-- The sites that action 1 marks failed, with their causes. -/
def State.failing (s : State) : List (Nat × Nat) :=
  allSites.filterMap fun n =>
    let x := s.site n
    if x.state = .DEFECTIVE ∨ !s.partReady (partOfSite n) then none
    else
      match x.retire with
      | some k => some (n, k)
      | none => if x.routerBad then some (n, 7) else if s.retireDue n (s.tally.count - 1) then some (n, 2) else none

/-! ### Fault regions and cut sites (R153, R154, R245) -/

/-- A fault region touches a partition: it has a site in its 7 columns and 4 rows. -/
def regionTouches (r : Nat × Nat × Nat × Nat) (p : Nat) : Bool :=
  let o := partOrigin p
  decide (r.1 ≤ o.1 + 6) && decide (o.1 ≤ r.2.2.1) && decide (r.2.1 ≤ o.2 + 3) && decide (o.2 ≤ r.2.2.2)

/-- The regions follow the routers that cannot forward (R231 action 2). -/
def State.rebuildRegions (s : State) : State :=
  let bad := (allSites.filter fun n => (s.site n).routerBad).map siteXY
  let rs := faultRegions bad
  let s := { s with placer := { s.placer with regions := rs } }
  let parted := rs.any spans
  let was := s.fon MSH_STATUS.PARTITIONED 0
  let s := s.forEach nat12 fun p s =>
    (s.fset MSH_STATUS.REGIONS p (min (rs.countP fun r => regionTouches r p) 15)).fbit MSH_STATUS.PARTITIONED p parted
  if parted && !was then s.report sevError blkMSH Uncoded.partitioned.code 0xFFFF none [] else s

/-- A partition's ledger array failed, and no array of the die has room for its entries (R226). -/
def State.ledgerless (s : State) (p : Nat) : Bool :=
  s.placer.ledgerFailed.contains p && (mget (fun _ => none) s.placer.ledgerHome p).isNone

/-- A site cannot be used: it lies in a part of the mesh without site (0, 1), or inside a fault region, or its partition has
no ledger array (R153, R226, R245). -/
def State.unusable (s : State) (n : Nat) : Bool :=
  s.parted (0, 1) (siteXY n) || s.ledgerless (partOfSite n)
    || s.placer.regions.any fun r => regionHas r (siteXY n) || (spans r && regionHas r (0, 1))

/-- Sites become CUT, or SPARE again once they are connected (R245); one event for each site that is cut, with the first of its
clusters (R246). -/
def State.cutSites (s : State) : State :=
  s.forEach allSites fun n s =>
    let x := s.site n
    if x.state = .DEFECTIVE ∨ !s.partReady (partOfSite n) then s
    else if s.unusable n then
      if x.state = .CUT then s
      else
        let s := s.vacate n .CUT
        match x.holds with
        | [] => s.plcEvent 12 (partOfSite n) none none sevError
        | L :: _ => s.clEvent 12 L sevError
    else if x.state = .CUT then s.updSite n fun x => { x with state := .SPARE }
    else s

/-! ### Displaced clusters (R232, R233, R236) -/

/-- A cluster without a site is offered one, or is unplaced, which is reported once (R233, R236). -/
def State.seek (s : State) (L : Nat) : State :=
  let origin := match mget (fun _ => none) s.placer.leftSite L with
    | some n => siteXY n
    | none => partOrigin (partOf L)
  match s.findSite L origin with
  | some (n, kind) =>
    let was := (s.site n).state
    let q := partOfSite n
    let s := (s.moveTo L n).clEvent kind L sevWarning
    let s := { s with placer := { s.placer with unplaced := s.placer.unplaced.filter (· != L) } }
    if was = .ROTATING ∧ !((sitesOf q).any fun m => (s.site m).state == .ROTATING) then
      s.plcEvent 6 q (some L) (s.owner L) sevInfo
    else s
  | none =>
    if s.placer.unplaced.contains L then s
    else
      let s := { s with placer := { s.placer with unplaced := L :: s.placer.unplaced } }
      let s := (s.plcStatus 0 ((s.owner L).getD 0) (partOf L) 5).clEvent 7 L sevError
      s.markClusterFault L 0x06

def allClusters : List Nat := List.range Config.nClusters

/-- Every cluster of a partition in service that has no site (R231 action 3). -/
def State.seekAll (s : State) : State :=
  let l := allClusters.filter fun L => (s.cl L).site.isNone && s.partReady (partOf L)
  s.forEach (sortBy s.rankLt l) fun L s => s.seek L

/-! ### Voluntary moves (R237) -/

def State.spareIn (s : State) (p : Nat) : Option Nat := (sitesOf p).find? fun n => (s.site n).state == .SPARE

/-- The voluntary move that partition `p` may make: undo a doubling, or bring a lent cluster back (R237), the first in the
order of R232. -/
def State.voluntary (s : State) (p : Nat) : Option Nat :=
  let own := (List.range 24).map (24 * p + ·)
  let doubled := own.filter fun L => match (s.cl L).site with
    | some n => (s.site n).holds.length == 2
    | none => false
  let lent := own.filter fun L => match (s.cl L).site with
    | some n => partOfSite n != p
    | none => false
  (sortBy s.rankLt doubled ++ sortBy s.rankLt lent).find? s.mayMove

/-- Action 5, first part: at most one voluntary move in each partition. Answers the partitions that made one. -/
def State.voluntaryMoves (s : State) : List Nat × State :=
  nat12.foldl (fun acc p =>
    let (done, s) := acc
    if s.partReady p then
      match s.spareIn p, s.voluntary p with
      | some n, some L => (p :: done, (s.moveTo L n).clEvent 4 L sevInfo)
      | _, _ => acc
    else acc) ([], s)

/-! ### Rotation (R242) -/

def State.rotateNext (s : State) (p : Nat) : Nat := mget (fun _ => 0) s.placer.rotateNext p

/-- The next site to visit: defective ones and the rotating spare are passed over. -/
def State.nextVisit (s : State) (p : Nat) : Option Nat :=
  ((List.range 28).map fun i => (s.rotateNext p + i) % 28).find? fun i =>
    let st := (s.site (siteOf p i)).state
    st == .SPARE || st == .PARKED || st == .HOLDING

/-- A visit is made: the counter and the event. -/
def State.visited (s : State) (p i : Nat) (L : Option Nat) : State :=
  let s := { s with placer := { s.placer with
    rotateNext := mput (fun _ => 0) s.placer.rotateNext p ((i + 1) % 28)
    rotateDue := s.placer.rotateDue.filter (· != p) } }
  ((s.finc PLC_PART_ROTATE.STEPS p).setScan p (some (siteOf p i))).plcEvent 5 p L (L.bind s.owner) sevInfo

/-- The rotation step of a partition whose visit is due (R242); it waits while it may not be made. Delay parked on the site that
becomes the rotating spare moves first, since that holds none (R186). -/
def State.rotate (s : State) (p : Nat) : State :=
  match s.nextVisit p, (sitesOf p).find? fun n => (s.site n).state == .ROTATING with
  | some i, some r =>
    let n := siteOf p i
    let x := s.site n
    if x.state = .HOLDING then
      if x.holds.all s.mayMove && s.relocatable n then
        let s := s.moveParks n
        let s := s.forEach x.holds fun L s => s.leaveSite L
        let s := s.updSite n fun y => { y with state := .ROTATING }
        let s := s.forEach x.holds fun L s => s.moveTo L r
        s.visited p i x.holds.head?
      else s
    else if s.relocatable n then
      ((s.moveParks n).syncParked n).visited p i none
    else s
  | _, _ => s

/-- Action 5, second part: not where a failure or a voluntary move was made, a scan still runs, or rotation is off or
waits for the pattern store (R368, R400). -/
def State.rotateAll (s : State) (busy : List Nat) : State :=
  s.forEach s.placer.rotateDue fun p s =>
    if s.partReady p && !busy.contains p && (s.scanning p).isNone && s.fon PLC_ROTATE.ENABLE 0
        && s.fon SCN_STATUS.STORED 0 && !s.fon SCN_STATUS.PATTERNS_INVALID 0 then s.rotate p else s

/-- ROTATION_VISIT: the interval has passed; the placer acts at step 7 (R230). -/
def State.rotationVisit (s : State) (p : Nat) : State :=
  if s.fon PLC_ROTATE.ENABLE 0 && !s.placer.rotateDue.contains p then
    { s with placer := { s.placer with rotateDue := s.placer.rotateDue ++ [p] } }
  else s

def execRotationVisit (part : Nat) (s : State) : Host.Outcome State Fault Refusal :=
  onUnit (okPart part) (s.rotationVisit part)

/-! ### Page migration (R243, R244) -/

/-- The memory object that holds a page of a context's address space. -/
def State.pageObject (s : State) (c page : Nat) : Option ObjectRec :=
  (s.image c).bind fun im => im.objects.find? fun o => decide (o.base / 2 ^ 21 ≤ page) && decide (page < o.base / 2 ^ 21 + o.pages)

/-- The pages of the pattern stores stand in the page map under a number that is no context: 24 for each partition (R368). -/
def storeCx : Nat := 16

/-- The partition that a page is placed in first (R274). -/
def State.homeOf (s : State) (c page : Nat) : Nat :=
  if c = storeCx then page / 24
  else match s.pageObject c page with
  | some o => if o.interleave = 0 then o.home else (page - o.base / 2 ^ 21) % 12
  | none => (page - 2 ^ 19) % 12

/-- Whether the page belongs to a HOME partition, outside which it counts as away. -/
def State.homed (s : State) (c page : Nat) : Bool :=
  match s.pageObject c page with
  | some o => o.interleave == 0
  | none => false

/-- A frame of GOOD channels of a partition (R243). -/
def State.goodFrame (s : State) (p : Nat) : Option (List (Nat × Nat × Nat) × State) :=
  if !s.partReady p || ((s.channelOrder p []).filter fun ch => s.chState p ch == chGood).length < 16 then none
  else s.newFrame p

/-- Where a page may go: HOME, then the die, then any partition (R243). -/
def migrationOrder (home : Nat) : List Nat :=
  home :: ((nat12.filter fun q => dieOfPart q == dieOfPart home && q != home)
    ++ nat12.filter fun q => dieOfPart q != dieOfPart home)

/-- A page of a context in the placer's keys. -/
def pageOfKey (k : Nat) : Nat × Nat := (k / 2 ^ 20, k % 2 ^ 20)

/-- A frame has a chunk on a DEGRADING channel. -/
def State.onDegrading (s : State) (f : List (Nat × Nat × Nat)) : Bool := f.any fun t => s.chState t.1 t.2.1 == chDegrading

/-- A page that lies outside its HOME while HOME has free frames (R244). -/
def State.away (s : State) (c page : Nat) (f : List (Nat × Nat × Nat)) : Bool :=
  s.homed c page && (f.any fun t => t.1 != s.homeOf c page) && (s.goodFrame (s.homeOf c page)).isSome

/-- Every partition of a frame is one on which the placer acts (R231). -/
def State.frameReady (s : State) (f : List (Nat × Nat × Nat)) : Bool := f.all fun t => s.partReady t.1

/-- Pages to migrate, in the order of R232. -/
def State.toMigrate (s : State) : List (Nat × Nat) :=
  let l := (s.memory.pages.filter fun e =>
    let (c, page) := pageOfKey e.1
    s.frameReady e.2 && (s.onDegrading e.2 || s.away c page e.2) && !(s.placer.migrations.any fun m => m.cx == c && m.page == page)).map
      fun e => pageOfKey e.1
  sortBy (fun a b => pairLt ((a.1 + 16 - s.tally.count % 16) % 16, a.2) ((b.1 + 16 - s.tally.count % 16) % 16, b.2)) l

/-- A page event: its context and owning partition. -/
def State.pageEvent (s : State) (kind c page severity : Nat) : State :=
  s.plcEvent kind (s.homeOf c page) none (if c = storeCx then none else some c) severity

/-- A migration starts, or is reported once as without room (R244). -/
def State.startMigration (s : State) (c page : Nat) : Bool × State :=
  match (migrationOrder (s.homeOf c page)).findSome? s.goodFrame with
  | some (f, t) => (true, { t with placer := { t.placer with
      migrations := t.placer.migrations ++ [⟨c, page, t.frame c page, f, false⟩] } })
  | none =>
    if s.placer.noRoom.contains (c, page) then (false, s)
    else
      let s := { s with placer := { s.placer with noRoom := s.placer.noRoom ++ [(c, page)] } }
      (false, (s.plcStatus 0 c (s.homeOf c page) 6).pageEvent 10 c page sevWarning)

/-- At most PLC_MIGRATE.PAGES new pages at a boundary (R243). -/
def State.startMigrations (s : State) : State :=
  (s.toMigrate.foldl (fun (acc : Nat × State) m =>
    if acc.1 = 0 then acc
    else
      let (ok, s) := acc.2.startMigration m.1 m.2
      (if ok then acc.1 - 1 else acc.1, s)) (s.fget PLC_MIGRATE.PAGES 0, s)).2

/-- The bytes and poison of a frame's chunks as another frame's: writes during the copy went to both (R243). A chunk of a
channel that has failed gives zeros with POISON, blocks that are counted as written with it (R286). -/
def State.copyFrame (s : State) (old new : List (Nat × Nat × Nat)) : State :=
  s.forEach (old.zip new) fun e s =>
    let a := blockKey e.1.1 e.1.2.1 (e.1.2.2 * 2048)
    let b := blockKey e.2.1 e.2.2.1 (e.2.2.2 * 2048)
    if !s.working e.1.1 e.1.2.1 then (s.wipeChunk e.2.1 e.2.2.1 e.2.2.2 true).fadd MEM_POISON.WRITTEN e.2.1 2048
    else
    let s := s.wipeChunk e.2.1 e.2.2.1 e.2.2.2 false
    let bytes := (s.memory.bytes.filter fun x => decide (64 * a ≤ x.1) && decide (x.1 < 64 * (a + 2048))).map
      fun x => (x.1 - 64 * a + 64 * b, x.2)
    let bad := (s.memory.poison.filter fun x => decide (a ≤ x.1) && decide (x.1 < a + 2048)).map fun x => (x.1 - a + b, x.2)
    s.setMem { s.memory with
      bytes := mputs zeroByte s.memory.bytes bytes, poison := mputs noBool s.memory.poison bad }

/-- A memory request is on its way under a frame of a page (R275). -/
def underFrame (p : Packet) (c page : Nat) : Bool :=
  (p.type == .READ_REQ || p.type == .WRITE_REQ) && p.cx == c && p.addr / 2 ^ 21 == page
    && (match p.dst with
        | .channel _ _ => true
        | _ => false)

/-- Requests that were translated under the frame of a page which is replaced keep the blocks that they were sent for
(R275). -/
def State.pinRequests (s : State) (c page : Nat) : State :=
  let pin (p : Packet) : Packet :=
    if underFrame p c page && p.block.isNone then { p with block := (s.place c p.addr).map fun x => x.2.2.1 } else p
  { s with mesh := { s.mesh with packets := s.mesh.packets.map pin } }

/-- A request translated under a frame that was replaced is outstanding. -/
def State.frameInUse (s : State) (f : List (Nat × Nat × Nat)) : Bool :=
  s.mesh.packets.any fun p => match p.dst, p.block with
    | .channel m ch, some b => f.any fun t => t.1 == m && t.2.1 == ch && t.2.2 == b / 2048
    | _, _ => false

/-- The map of a page whose copy has ended switches; the old frame is freed at the next boundary (R243, R275). A copy to a
channel that is DEGRADING or FAILED by then is abandoned, and the page is taken up again (R243, R286). -/
def State.switchPage (s : State) (m : Migration) : State :=
  let old := s.frame m.cx m.page
  let s := { s with placer := { s.placer with migrations := s.placer.migrations.filter (· != m) } }
  if old.isEmpty || m.new.any (fun t => s.chState t.1 t.2.1 != chGood) then s.freeFrame m.new
  else
    let s := ((s.copyFrame old m.new).pinRequests m.cx m.page).setFrame m.cx m.page m.new
    let s := { s with placer := { s.placer with
      freed := s.placer.freed ++ [old], noRoom := s.placer.noRoom.filter (· != (m.cx, m.page)) } }
    let s := s.pageEvent 9 m.cx m.page sevInfo
    if s.homed m.cx m.page && m.new.any (fun t => t.1 != s.homeOf m.cx m.page) then s.pageEvent 10 m.cx m.page sevWarning
    else s

/-- Action 6: frames of the boundary before are freed once no request under them is outstanding, ended copies switch, new ones
start; what lies in a partition in reset or fenced waits (R231, R275). -/
def State.migrate (s : State) : State :=
  let (wait, l) := s.placer.freed.partition fun f => s.frameInUse f || !s.frameReady f
  let s := { s with placer := { s.placer with freed := wait } }
  let s := s.forEach l fun f s => s.freeFrame f
  let s := s.forEach (s.placer.migrations.filter fun m => m.copied && s.frameReady (m.old ++ m.new)) fun m s => s.switchPage m
  let s := s.startMigrations
  s.fset PLC_MIGRATE.ACTIVE 0 s.placer.migrations.length

/-- The copy of a page crosses a die in reset or a parted mesh, and cannot end (R24, R154, R277). -/
def State.copyCutOff (s : State) (m : Migration) : Bool :=
  (m.old.zip m.new).any fun e => e.1.1 != e.2.1 && (s.askRefusal (.channel e.1.1 e.1.2.1) (.channel e.2.1 e.2.2.1)).isSome

/-- MIGRATION_COPY_COMPLETE (R243): a copy ends; the switch waits for step 7. -/
def State.migrationCopied (s : State) (i : Nat) : State :=
  match s.placer.migrations[i]? with
  | some m =>
    if s.copyCutOff m then s
    else { s with placer := { s.placer with migrations := s.placer.migrations.set i { m with copied := true } } }
  | none => s

def execMigrationCopyComplete (index : Nat) (s : State) : Host.Outcome State Fault Refusal :=
  onUnit true (s.migrationCopied index)

/-! ### The placement ledger (R225, R226, R145) -/

def noNat : Nat → Option Nat := fun _ => none

/-- The entries of a partition are written again from the site tags (R225). -/
def State.rebuildEntries (s : State) (p : Nat) : State :=
  s.forEach allSites fun n s =>
    if partOfSite n = p ∨ (s.site n).tag.any (fun L => partOf L == p) then
      s.updSite n fun x => { x with holds := x.tag, tierOffsets := x.tagOffsets }
    else s

/-- Contexts with a cluster of the partition, or on it. -/
def State.contextsOn (s : State) (p : Nat) : List Nat :=
  contexts.filter fun c => (s.clustersOf c).any fun L => partOf L == p || s.hostPart L == p

/-- LEDGER_UNCORRECTABLE (R225): entries rebuilt, the running segments of the partition's contexts rerun. -/
def State.ledgerUncorrectable (s : State) (p : Nat) : State :=
  let s := s.rebuildEntries p
  s.forEach (s.contextsOn p) fun c s =>
    if (s.cx c).segment then s.updCx c fun x => { x with rerunMark := true } else s

def execLedgerUncorrectable (part : Nat) (s : State) : Host.Outcome State Fault Refusal :=
  onUnit (okPart part) (s.ledgerUncorrectable part)

/-- Whether a ledger array holds the entries of a partition beside its own (R226). -/
def State.arrayTaken (s : State) (p q : Nat) : Bool := nat12.any fun r => r != p && mget noNat s.placer.ledgerHome r == some q

/-- The entries of a partition find an array (R226), or its sites are CUT (`ledgerless`). -/
def State.ledgerMove (s : State) (p : Nat) : State :=
  let d := 3 * dieOfPart p
  match [d, d + 1, d + 2].find? fun q => q != p && !s.placer.ledgerFailed.contains q && !s.arrayTaken p q with
  | some q =>
    ({ s with placer := { s.placer with ledgerHome := mput noNat s.placer.ledgerHome p (some q) } }.rebuildEntries p).plcEvent
      11 p none none sevWarning
  | none =>
    let s := { s with placer := { s.placer with ledgerHome := mput noNat s.placer.ledgerHome p none } }
    (s.plcStatus 0 0 p 7).plcEvent 11 p none none sevError

/-- A ledger array without spare rows fails: its own entries and those that it holds for another partition move. -/
def State.ledgerFail (s : State) (p : Nat) : State :=
  let guests := nat12.filter fun r => mget noNat s.placer.ledgerHome r == some p
  let s := { s with placer := { s.placer with ledgerFailed := p :: s.placer.ledgerFailed } }
  s.forEach ((p :: guests).filter s.partReady) fun r s => s.ledgerMove r

/-- Entries of partitions that have come back find the array that they waited for (R226, R231). -/
def State.ledgerMoves (s : State) : State :=
  s.forEach (nat12.filter fun r => s.partReady r && (match mget noNat s.placer.ledgerHome r with
    | some q => s.placer.ledgerFailed.contains q
    | none => false)) fun r s => s.ledgerMove r

/-- An array that needs a spare row and has none left has failed: a ledger array moves, a teller instruction memory
retires its site, a slot table fails its router, a fabric table its port (R126, R145, R157, R226, R323). -/
def State.arrayFail (s : State) (array cause : Nat) : State :=
  if array < 12 then s.ledgerFail array
  else if array < 1024 then s.retireSite (array - 256) cause
  else if array < 2048 then s.updSite (array - 1024) fun x => { x with routerBad := true }
  else
    let n := (array - 2048) / 4
    let s := s.portLeaves n portHeld 5
    { s with fabric := { s.fabric with spoiled := n :: s.fabric.spoiled } }

/-- A row gets a spare row, recorded in the defect ledger with its CAUSE (R145, R369); an array without one fails. -/
def State.mapRow (s : State) (array row cause : Nat) : State :=
  let used := mget (fun _ => 0) s.placer.spareRows array
  if used < spareRowsOf array then
    let s := { s with placer := { s.placer with spareRows := mput (fun _ => 0) s.placer.spareRows array (used + 1) } }
    (if 256 ≤ array ∧ array < 1024 then s.reloadAt (array - 256) else s).ledgerAppend 4 cause (array * 65536 + row)
  else s.arrayFail array cause

/-- The partition whose array it is, where it is one of a partition. -/
def arrayPart (array : Nat) : Option Nat :=
  if array < 12 then some array else if array < 1024 then some (partOfSite (array - 256))
  else if array < 2048 then some (partOfSite (array - 1024)) else none

/-- Rows due for a spare row get one; those of a partition in reset or fenced wait (R231). -/
def State.mapRows (s : State) : State :=
  let (l, wait) := s.placer.rowsDue.partition fun r => (arrayPart r.1).all s.partReady
  s.ledgerMoves.forEach l fun r t => { t with placer := { t.placer with rowsDue := wait } }.mapRow r.1 r.2 7

/-! ### The defect ledger in flash (R228) -/

/-- The first outstanding append reaches flash. -/
def State.appendDone (s : State) : State :=
  match s.placer.appends with
  | [] => s
  | e :: rest =>
    let s := { s with placer := { s.placer with appends := rest, defects := s.placer.defects ++ [e] } }
    s.syncLedger.fbit PLC_LEDGER.PENDING 0 (!rest.isEmpty)

def execLedgerAppendComplete (s : State) : Host.Outcome State Fault Refusal := onUnit true s.appendDone

/-- LEDGER_APPEND_RETRY: an append that fails sets WRITE_FAILED and stays outstanding; a retry may succeed (R228). -/
def execLedgerAppendRetry (ok : Bool) (s : State) : Host.Outcome State Fault Refusal :=
  onUnit true (if ok then s.appendDone
    else if s.placer.appends.isEmpty then s else s.fbit PLC_LEDGER.WRITE_FAILED 0 true)

/-! ### Step 7 (R231) -/

/-- Bring-up has placed the clusters (R229). -/
def State.placed (s : State) : Bool := decide (7 ≤ s.bringUp.done)

/-- Contexts whose folios use a cluster of a list. -/
def State.touched (s : State) (moved : List Nat) : List (Nat × Nat) :=
  contexts.flatMap fun c => match s.image c with
    | none => []
    | some im => ((List.range im.folios.length).filter fun f => (im.users f).any fun u => moved.contains u.cluster).map
        fun f => (c, f)

/-- Folios with a circuit or tree that fell back (R240). -/
def State.fallback (s : State) : List (Nat × Nat) :=
  (((s.placer.circuits.filter fun r => r.slots.isEmpty).map fun r => (r.cx, r.folio))
    ++ (s.placer.trees.filter fun t => t.routers.isEmpty).map fun t => (t.cx, t.folio)).dedup

/-- Folios with a circuit or tree through a fault region (R153, R231). -/
def State.crossing (s : State) : List (Nat × Nat) :=
  let cut := fun r => s.placer.regions.any fun g => regionHas g (siteXY r)
  (((s.placer.circuits.filter fun r => r.outputs.any fun o => cut o.1).map fun r => (r.cx, r.folio))
    ++ (s.placer.trees.filter fun t => t.routers.any cut).map fun t => (t.cx, t.folio)).dedup

/-- The clusters of a folio lie in partitions on which the placer acts (R231). -/
def State.folioReady (s : State) (c f : Nat) : Bool :=
  match s.image c with
  | some im => (im.users f).all fun u => (s.cl u.cluster).site.all fun n => s.partReady (partOfSite n)
  | none => true

/-- Action 7: circuits, trees and endpoints of the folios that actions 1 to 5 touched are placed again (R230, R240), in the order
of R232. Those of a context that keeps its entries (R157), or that has a cluster of the folio in a partition in reset or
fenced (R231), are owed it until that ends. -/
def State.replaceFolios (s : State) (moved : List Nat) : State :=
  let l := sortBy (fun a b => pairLt (s.rank (some a.1), a.2) (s.rank (some b.1), b.2))
    (s.placer.owed ++ s.touched moved ++ s.fallback ++ s.crossing).dedup
  let waits := fun (e : Nat × Nat) => s.keepsSlots e.1 || !s.folioReady e.1 e.2
  let s := { s with placer := { s.placer with owed := l.filter waits } }
  s.forEach (l.filter fun e => !waits e) fun e s =>
    match s.image e.1 with
    | some im => (s.replaceFolio e.1 im e.2).replaceDepths e.1 im e.2
    | none => s

/-- Partitions with a SPARE site. -/
def State.spareParts (s : State) : List Nat := nat12.filter fun p => (s.spareIn p).isSome

/-- Partitions whose last SPARE site has gone in a step 7 report SPARE_LOW (R246). -/
def State.spareLow (s : State) (before : List Nat) : State :=
  s.forEach (before.filter fun p => (s.spareIn p).isNone) fun p s => s.plcEvent 13 p none none sevInfo

/-- The placer reads its own records, in the last free unit of each placed vault; what fails its parity is rebuilt from
the placement ledger (R459). Where the records lie and when they are read the spec does not say: DESIGN CHOICE. -/
def State.ownRecords (s : State) : State :=
  s.forEach allClusters fun L s =>
    if (s.cl L).bad.isEmpty || !s.reachable L then s
    else match (s.freeUnits L).getLast? with
      | some u => (s.ownRead L (s.badIn L [u]) .mesh false).2
      | none => s

/-- Clusters with their sites. -/
def State.sitesNow (s : State) : List (Nat × Option Nat) := allClusters.map fun L => (L, (s.cl L).site)

/-- Every partition on which the placer acts and which has no rotating spare gets one, if a site there is SPARE (R242). -/
def State.fillAll (s : State) : State := s.forEach nat12 fun p s => if s.partReady p then s.fillRotating p else s

/-- Logical clusters of other dies that a die hosts. -/
def State.guests (s : State) (d : Nat) : List Nat :=
  allClusters.filter fun L => match (s.cl L).site with
    | some n => dieOfPart (partOfSite n) == d && dieOfPart (partOf L) != d
    | none => false

/-- Clusters of other dies that a die in reset hosts are displaced (R389). -/
def State.evict (s : State) : State :=
  s.forEach ((List.range 4).filter fun d => !s.up (domPlat d)) fun d s => s.forEach (s.guests d) fun L s => s.leaveSite L

/-- Step 7: chunks on failed channels are replaced, in the partitions on which the placer acts (R231, R286). -/
def State.replaceReady (s : State) : State :=
  s.forEach (s.memory.pages.filter fun e => s.frameReady e.2) fun e s => s.replaceIn e.1 e.2

/-- Actions 1 to 6, and the re-placing of action 7 (R231). -/
def State.heal (s : State) : State :=
  if !s.placed then s
  else
    let before := s.sitesNow
    let parks := s.placer.depths
    let s := s.ownRecords.mapRows
    let s := s.forEach s.failing fun e s => s.failSite e.1 e.2
    let s := s.rebuildRegions.cutSites.evict.fillAll
    let displaced := (before.filter fun e => e.2.isSome && (s.cl e.1).site.isNone).map (·.1)
    let middle := s.sitesNow
    let s := s.seekAll
    let placed := ((middle.zip s.sitesNow).filter fun e => e.1.2 != e.2.2).map fun e => e.1.1
    let (done, s) := (s.rankParks parks).fillAll.voluntaryMoves
    let s := s.fillAll.rotateAll (done ++ displaced.map partOf ++ placed.flatMap fun L => [partOf L, s.hostPart L])
    let s := s.fillAll.migrate.replaceReady
    let moved := ((before.zip s.sitesNow).filter fun e => e.1.2 != e.2.2).map fun e => e.1.1
    (s.replaceFolios moved).syncDegraded.syncBudgets

/-! ### Placement at bring-up (R229) -/

/-- The state of a site from the defect ledger, entries on their way to flash included. -/
def State.siteFromLedger (s : State) (n : Nat) : Site :=
  let l := (s.placer.defects ++ s.placer.appends).filter fun d => d.location == n && (d.kind == 1 || d.kind == 2)
  { (s.site n) with state := if l.isEmpty then .SPARE else .DEFECTIVE, holds := [], tag := [], turn := 0, tierOffsets := [0, 0, 0]
                    tagOffsets := [0, 0, 0], routerBad := l.any fun d => d.kind == 2, retire := none }

/-- The clusters of a partition in ascending order on its good sites, the next good site the rotating spare (R229). -/
def State.placePart (s : State) (p : Nat) : State :=
  let good := (sitesOf p).filter fun n => (s.site n).state == .SPARE
  let s := s.forEach (((List.range 24).map (24 * p + ·)).zip good) fun e s => s.takeSite e.1 e.2
  match good[24]? with
  | some n => s.updSite n fun x => { x with state := .ROTATING }
  | none => s

/-- Placement at bring-up of the clusters of some partitions: those that are lent out leave their sites, and those that are
left over are displaced (R229). The scan of a rotating spare that has been taken is lost (R368). -/
def State.placeParts (s : State) (ps : List Nat) : State :=
  let mine := allClusters.filter fun L => ps.contains (partOf L)
  let s := s.forEach mine fun L s =>
    let s := if ps.contains (s.hostPart L) then s else s.leaveSite L
    s.updCl L fun k => { k with site := none, moving := false, copyFrom := none }
  let s := s.forEach (ps.flatMap sitesOf) fun n s => s.setSite n (s.siteFromLedger n)
  let s := (s.rebuildRegions.cutSites).forEach ps fun p s => s.placePart p
  let s := s.forEach (sortBy s.rankLt (mine.filter fun L => (s.cl L).site.isNone)) fun L s => s.seek L
  let s := s.forEach ps fun p s => match s.scanning p with
    | some n => if (s.site n).state = .ROTATING then s else s.scanLost n
    | none => s
  s.writeShadow.swapSlots

/-- Placement at bring-up. -/
def State.placeAll (s : State) : State := s.placeParts nat12

end Sys2Proof.Machine
end

