-- ==== Sys2Proof/Machine/Security.lean ====
section
/-! DEFINITION. Security (19_security.md): envelopes and the command engine, entropy, the identity key, attestation. The
life-cycle token is with the resets that it ends in. -/
namespace Sys2Proof.Machine

open Sys2Proof

/-! ### Answers on the management paths (R424, R435) -/

/-- A body cut into datagrams of at most 1,400 B, at most `n` of them, with their offsets (R435). -/
def datagrams : Nat → Nat → List Byte → List (Nat × List Byte)
  | 0, _, _ => []
  | n + 1, off, b => if b.length ≤ 1400 then [(off, b)] else (off, b.take 1400) :: datagrams n (off + 1400) (b.drop 1400)

/-- A data object of the DOE mailbox: vendor, type, length in words, contents (R342). -/
def doeObject (vendor type : Nat) (body : List Byte) : List Byte :=
  let n := (body.length + 3) / 4
  leBytes 2 vendor ++ leBytes 1 type ++ [0] ++ leBytes 4 ((n + 2) % 2 ^ 18) ++ body ++ List.replicate (4 * n - body.length) 0

/-- The mailbox holds a response, and vector 17 has news; a request that was aborted has none. -/
def State.doeRespond (s : State) (obj : List Byte) : State :=
  if s.host.doeRequest.isSome then
    { s with host := { s.host with doeRequest := none, doeResponse := some obj
                                   gotRecord := mput (fun _ => false) s.host.gotRecord 17 true } }
  else s

/-- An answer goes back by the path of its request (R342, R424, R435, R437). -/
def State.reply (s : State) (source : Requester) (op status xid : Nat) (body : List Byte) : State :=
  match source with
  | .aihar a => s.forEach (datagrams (body.length / 1400 + 1) 0 body) fun d s => s.sendDatagram a op status xid d.1 d.2
  | .mctp => s.forEach (datagrams (body.length / 1400 + 1) 0 body) fun d s =>
    s.emit (.mctp (s.datagram op status xid d.1 d.2))
  | .malformed _ => s
  | .udp .. => s
  | .doe => s.doeRespond (doeObject Config.doeVendor.toNat Config.doeType.toNat body)

/-! ### Identity, log and challenge -/

/-- The identity key's public key: made at manufacture, with the transition to Development (R406, R420). -/
def State.identityBytes (s : State) : List Byte :=
  (List.range 60).map (if s.security.keyMade then Config.identityKey else Config.blankKey)

/-- DEVICE_ID (R420). -/
def State.deviceId (s : State) : List Byte := sha256 s.identityBytes

def State.lcs (s : State) : Nat := s.fget LCS_STATE.STATE 0

def State.setSec (s : State) (x : Security) : State := { s with security := x }

/-- The fuses of a life-cycle state, a thermometer code (R406). -/
def fusesOf (state : Nat) : Nat := 2 ^ state - 1

/-- The life-cycle state that the fuses read as: a pattern that is no thermometer code is Decommissioned (R406). -/
def lifeState (fuses : Nat) : Nat := ((List.range 5).find? fun n => fusesOf n == fuses % 16).getD 4

/-- The fuses of a life-cycle state are blown, and LCS_STATE shows what they read as. -/
def State.blowLife (s : State) (state : Nat) : State :=
  let n := s.security.lifeFuses ||| fusesOf state
  (s.setSec { s.security with lifeFuses := n }).fset LCS_STATE.STATE 0 (lifeState n)

/-- A measurement enters the log; beyond 1,024 entries LOG_FULL is set (R424). COMPONENT numbers are DESIGN CHOICE: the
KIND of a firmware component, 16 for an image. -/
def State.measure (s : State) (component svn tally : Nat) (digest : List Byte) : State :=
  if s.security.log.length < 1024 then
    s.setSec { s.security with log := s.security.log ++ [(component, svn, tally, digest)] }
  else s.fset SEC_STATUS.LOG_FULL 0 1

/-- The entropy source is not healthy: a test has failed, or the start-up test of this power-up has not passed yet (R419). -/
def State.unhealthy (s : State) : Bool := s.fon SEC_STATUS.ENTROPY_FAIL 0 || s.security.startTest

/-- A new challenge is drawn, or waits for a healthy source (R412, R419). -/
def State.drawChallenge (s : State) : State :=
  if s.unhealthy then
    let s := s.forEach (List.range 8) fun i s => s.rset .LCS_CHALLENGE i 0
    s.setSec { s.security with challengeValid := false, challengeDue := true }
  else
    let k := s.fresh
    let s := s.forEach (List.range 8) fun i s => s.rset .LCS_CHALLENGE i ((Config.entropy (k + i)).setWidth 64)
    { s with fresh := k + 8 }.setSec { s.security with challengeValid := true, challengeDue := false }

def State.challengeBytes (s : State) : List Byte :=
  (List.range 8).flatMap fun i => leBytes 4 (s.rget .LCS_CHALLENGE i).toNat

/-! ### Owner keys and policy (R417, R418) -/

def noKey : Nat → Option (List Byte) := fun _ => none

def State.ownerKey (s : State) (i : Nat) : Option (List Byte) := mget noKey s.security.ownerKeys i

def slots8 : List Nat := List.range 8

def State.anyOwner (s : State) : Bool := slots8.any fun i => (s.ownerKey i).isSome

/-- SEC_STATUS shows the slots and the policy. -/
def State.syncOwner (s : State) : State :=
  (s.fset SEC_STATUS.OWNER_SLOTS 0 ((slots8.map fun i => if (s.ownerKey i).isSome then 2 ^ i else 0).sum)).fset
    SEC_STATUS.REQUIRE_OWNER_SIG 0 (s.security.policy % 2)

def State.setOwnerKey (s : State) (i : Nat) (k : Option (List Byte)) : State :=
  (s.setSec { s.security with ownerKeys := mput noKey s.security.ownerKeys i k }).syncOwner

/-! ### Envelopes (R409, R410) -/

/-- An envelope as its bytes read. -/
structure Env where
  bytes : List Byte
  kind : Nat
  signer : Nat
  bodyLength : Nat
  sequence : Nat
  param : Nat
  deviceId : List Byte
  challenge : List Byte
  digest : List Byte
  body : List Byte
  sigLength : Nat
  signature : List Byte

def rd (b : List Byte) (off n : Nat) : Nat := leNat ((b.drop off).take n)
def rdBytes (b : List Byte) (off n : Nat) : List Byte := (b.drop off).take n

def Env.of (b : List Byte) : Env :=
  let n := rd b 12 4
  { bytes := b, kind := rd b 8 2, signer := rd b 10 2, bodyLength := n, sequence := rd b 16 4, param := rd b 20 4
    deviceId := rdBytes b 32 32, challenge := rdBytes b 64 32, digest := rdBytes b 96 32, body := rdBytes b 128 n
    sigLength := rd b (128 + n) 4, signature := rdBytes b (132 + n) (rd b (128 + n) 4) }

def zeros (n : Nat) : List Byte := List.replicate n 0

/-- An HSS public key that an owner may have: one to three levels, heights and widths of R410. -/
def ownerKeyForm (k : List Byte) : Bool :=
  k.length == 60 && decide (1 ≤ beRead k 0 4 ∧ beRead k 0 4 ≤ 3) && (treeHeight (beRead k 4 4)).isSome
    && (OneTime.ofCode (beRead k 8 4)).isSome

/-- SEC_FORMAT (R409, R413, R418, R425): MAGIC, KIND, lengths, reserved fields, fields that a KIND leaves 0, PARAM, body
and BODY_DIGEST. -/
def Env.badFormat (e : Env) : Bool :=
  rd e.bytes 0 8 != 0x45534E41524F5645 || decide (e.kind < 1 ∨ e.kind > 8) || decide (e.sigLength > 16384)
    || e.bytes.length != 132 + e.bodyLength + e.sigLength || rd e.bytes 24 8 != 0
    || (decide (e.kind > 4) && e.sequence != 0) || (decide (e.kind < 5) && e.param != 0)
    || (decide (e.kind < 5) && e.challenge != zeros 32)
    || (e.kind == 4 && (e.bodyLength != 16 || (rd e.body 0 1 != 1 && rd e.body 0 1 != 2) || rd e.body 1 15 != 0))
    || (e.kind == 5 && (decide (e.param ≥ 8) || (e.bodyLength != 0 && !ownerKeyForm e.body)))
    || (e.kind == 6 && decide (e.param ≥ 2))
    || (e.kind == 8 && decide (e.param < 1 ∨ e.param > 86400))
    || e.digest != sha256 e.body

/-- A vendor root that is not revoked. -/
def rootOk (r : Nat) : Bool := !Config.rootRevoked r

/-- The signer may sign this KIND in this state (R406, R410, R417). -/
def State.signerOk (s : State) (e : Env) : Bool :=
  let owner := decide (16 ≤ e.signer ∧ e.signer < 24) && (s.ownerKey (e.signer - 16)).isSome
  let unsigned := e.signer == 0xFFFF && !s.anyOwner
  if e.kind ≤ 3 then (e.signer == 0 && rootOk 0) || (e.signer == 1 && rootOk 1 && decide (s.lcs ≤ 1))
  else if e.kind = 4 then e.signer == 2 && rootOk 2
  else if e.kind = 5 then owner || (unsigned && e.bodyLength != 0)
  else if e.kind = 6 then owner
  else if e.kind = 7 then
    if e.param = 1 then e.signer == Config.manufacturingSigner.toNat
    else (e.signer == 3 && rootOk 3) || (e.param == 4 && (owner || unsigned))
  else e.signer == 3 && rootOk 3

/-- The signature over the header verifies (R409). -/
def State.signatureOk (s : State) (e : Env) : Bool :=
  let m := e.bytes.take 128
  if e.kind = 7 ∧ e.param = 1 then Config.manufacturingTest e.bytes
  else if e.signer = 0xFFFF then true
  else if e.signer < 16 then hssVerify (rootKey e.signer) m e.signature
  else match s.ownerKey (e.signer - 16) with
    | some k => hssVerify k m e.signature
    | none => false

def noEnv : Nat → Option Envelope := fun _ => none

/-- SEC_ROLLBACK (R413, R416, R425). -/
def State.rollback (s : State) (e : Env) : Bool :=
  if e.kind ≤ 3 then decide (e.sequence < mget (fun _ => 0) s.security.svn e.kind)
  else if e.kind = 4 then match mget noEnv s.security.active 4 with
    | some l => decide (e.sequence < l.sequence)
    | none => false
  else false

/-- A context holds a LOADED or ACTIVE image. -/
def State.anyImage (s : State) : Bool := (List.range 16).any fun c => s.fget IMG_CX_STATE.STATE c != 0

/-- The transition exists (R406), and no image is loaded (R407). -/
def State.transitionOk (s : State) (target : Nat) : Bool :=
  ((s.lcs == 0 && target == 1) || (s.lcs == 1 && target == 2) || (s.lcs == 2 && target == 3) || (decide (s.lcs ≤ 3) && target == 4)) && !s.anyImage

/-- The state of the device refuses the command: SEC_STATE (R407, R410), SEC_LOCKOUT (R417). -/
def State.stateRefusal (s : State) (e : Env) : Option Nat :=
  if e.kind = 7 ∧ !s.transitionOk e.param then some 0x09
  else if e.kind = 8 ∧ s.lcs ≠ 3 then some 0x09
  else if e.kind = 5 ∧ e.bodyLength = 0 ∧ s.security.policy % 2 = 1
      ∧ slots8.all (fun i => i == e.param || (s.ownerKey i).isNone) then some 0x0A
  else none

/-- The first check that fails, in ascending order of the codes (R413). -/
def State.envRefusal (s : State) (fetched : Bool) (e : Env) : Option Nat :=
  if !fetched then some 0x02
  else if e.badFormat then some 0x03
  else if e.deviceId ≠ s.deviceId ∧ !(e.kind ≤ 3 ∧ e.deviceId = zeros 32) then some 0x04
  else if e.kind ≥ 5 ∧ !(s.security.challengeValid && e.challenge == s.challengeBytes) then some 0x05
  else if !s.signerOk e then some 0x06
  else if !s.signatureOk e then some 0x07
  else if s.rollback e then some 0x08
  else s.stateRefusal e

/-- The envelope of the command: that of the command that runs, or SEC_CMD_LEN bytes at SEC_CMD_ADDR. -/
def State.submitted (s : State) : Env :=
  let at_ := s.security.command.getD (s.fget SEC_CMD_ADDR.ADDR 0 * 64, s.fget SEC_CMD_LEN.LENGTH 0)
  Env.of (s.hostRead at_.1 at_.2)

/-- The engine takes a command (R413): the endpoint is ready. -/
def State.secServes (s : State) : Bool := s.barsOn && s.up (domPlat 0)

/-- SEC_CMD_CTRL.GO (R413): a command starts with the envelope that the registers name now, or is refused with SEC_BUSY
while one runs. -/
def State.secGo (s : State) : State :=
  if !s.secServes then s
  else if s.security.command.isSome then s.fset SEC_CMD_STATUS.CODE 0 0x01
  else (s.setSec { s.security with
    command := some (s.fget SEC_CMD_ADDR.ADDR 0 * 64, s.fget SEC_CMD_LEN.LENGTH 0) }).fset SEC_CMD_STATUS.BUSY 0 1

/-- The command has ended. -/
def State.secEnd (s : State) (kind code : Nat) : State :=
  let s := (s.setSec { s.security with command := none }).fset SEC_CMD_STATUS.BUSY 0 0
  ((s.fset SEC_CMD_STATUS.DONE 0 1).fset SEC_CMD_STATUS.KIND 0 kind).fset SEC_CMD_STATUS.CODE 0 code

/-- An envelope carries the current challenge (R412). -/
def State.carries (s : State) (e : Env) : Bool := s.security.challengeValid && e.challenge == s.challengeBytes

/-- A new challenge is drawn after a command that carried the current one (R412). -/
def State.afterCommand (s : State) (carried : Bool) : State := if carried then s.drawChallenge else s

/-- The slots of a firmware or pattern KIND in flash: the offsets of slots A and B, and the size of each (R414). -/
def flashSlots (kind : Nat) : Option (Nat × Nat × Nat) :=
  match kind with
  | 1 => some (0x00900000, 0x02900000, 0x02000000)
  | 2 => some (0x00100000, 0x00500000, 0x00400000)
  | 3 => some (0x04900000, 0x08900000, 0x04000000)
  | _ => none

/-- The offset in flash of the slot that is active, or of the other one, which takes the next envelope (R414, R416). -/
def State.slotAddr (s : State) (kind : Nat) (active : Bool) : Option Nat :=
  (flashSlots kind).map fun f => if mget noFlag s.security.inSlotB kind == active then f.2.1 else f.1

/-- An envelope fits the slot of its KIND; the write of a longer one to flash fails, DEDUCED, log entry 82. -/
def Env.fits (e : Env) : Bool := (flashSlots e.kind).all fun f => decide (e.bytes.length ≤ f.2.2)

/-- A command of the engine ends: an envelope of the row's KIND, or one whose form names none. It is the command that
runs, or, where none does, one whose GO is written now. `apply` writes what it sets; its write to flash may fail
(R413). -/
def State.secCommand (s : State) (kind : Nat) (fetched written : Bool) (apply : Env → State → State) : State :=
  let e := s.submitted
  if (!s.secServes && s.security.command.isNone) || (fetched && !e.badFormat && e.kind != kind) then s
  else
    let carried := fetched && s.carries e
    let s := match s.envRefusal fetched e with
      | some code => s.secEnd (if fetched then e.kind % 16 else 0) code
      | none => if written && e.fits then (apply e s).secEnd e.kind 0 else s.secEnd e.kind 0x0B
    s.afterCommand carried

def Env.stored (e : Env) : Envelope :=
  { kind := e.kind, signer := e.signer, sequence := e.sequence, digest := e.digest, variant := rd e.body 0 1 }

/-- A firmware or pattern envelope goes to the inactive slot, which is then pending (R416). -/
def State.storePending (e : Env) (s : State) : State :=
  s.setSec { s.security with pendingSlot := mput noEnv s.security.pendingSlot e.kind (some e.stored) }

/-- A licence replaces a pending one of lower or equal SEQUENCE (R425). -/
def State.storeLicence (e : Env) (s : State) : State :=
  let keep := match mget noEnv s.security.pendingSlot 4 with
    | some l => decide (e.sequence < l.sequence)
    | none => false
  if keep then s else (State.storePending e s).fset LIC_STATE.PENDING 0 1

/-- An owner key slot is written or emptied (R417). -/
def State.storeOwner (e : Env) (s : State) : State := s.setOwnerKey e.param (if e.bodyLength = 0 then none else some e.body)

/-- The policy (R418). -/
def State.storePolicy (e : Env) (s : State) : State := (s.setSec { s.security with policy := e.param }).syncOwner

/-- An unlock for PARAM seconds (R427). -/
def State.unlock (e : Env) (s : State) : State :=
  ((s.setSec { s.security with unlockEnd := some (s.tally.time + e.param * 10 ^ 8) }).fset LCS_STATE.UNLOCKED 0 1).fset
    LCS_STATE.UNLOCK_LEFT 0 e.param

def execPlatformFirmware (fetched written : Bool) (s : State) : Host.Outcome State Fault Refusal :=
  onUnit true (s.secCommand 1 fetched written State.storePending)

def execNoseFirmware (fetched written : Bool) (s : State) : Host.Outcome State Fault Refusal :=
  onUnit true (s.secCommand 2 fetched written State.storePending)

def execScanPatterns (fetched written : Bool) (s : State) : Host.Outcome State Fault Refusal :=
  onUnit true (s.secCommand 3 fetched written State.storePending)

def execLicence (fetched written : Bool) (s : State) : Host.Outcome State Fault Refusal :=
  onUnit true (s.secCommand 4 fetched written State.storeLicence)

def execOwnerKey (fetched written : Bool) (s : State) : Host.Outcome State Fault Refusal :=
  onUnit true (s.secCommand 5 fetched written State.storeOwner)

def execPolicy (fetched written : Bool) (s : State) : Host.Outcome State Fault Refusal :=
  onUnit true (s.secCommand 6 fetched written State.storePolicy)

def execUnlockToken (fetched : Bool) (s : State) : Host.Outcome State Fault Refusal :=
  onUnit true (s.secCommand 8 fetched true State.unlock)

/-- An unlock token is in force: its PARAM seconds have not passed (R427). -/
def State.unlocked (s : State) : Bool := s.security.unlockEnd.any fun t => decide (s.tally.time < t)

/-- No unlock is in force any more. -/
def State.unlockOver (s : State) : State :=
  ((s.setSec { s.security with unlockEnd := none }).fset LCS_STATE.UNLOCKED 0 0).fset LCS_STATE.UNLOCK_LEFT 0 0

/-- The unlock ends, not before its seconds have passed (R427). -/
def State.unlockExpire (s : State) : State := if s.security.unlockEnd.isNone || s.unlocked then s else s.unlockOver

def execUnlockExpire (s : State) : Host.Outcome State Fault Refusal := onUnit true s.unlockExpire

/-- RWL registers take writes (R427). -/
def State.rwlOpen (s : State) : Bool := decide (s.lcs ≤ 1) || (s.lcs == 3 && s.unlocked)

/-! ### The entropy source (R419) -/

/-- A health test fails. -/
def execEntropyHealthFail (s : State) : Host.Outcome State Fault Refusal :=
  onUnit true ((s.fset SEC_STATUS.ENTROPY_FAIL 0 1).fset SEC_STATUS.ENTROPY_DEGRADED 0 1)

/-- 1,024 samples pass, those of the start-up test among them: a challenge that waited is drawn. -/
def State.entropyPass (s : State) : State :=
  if s.unhealthy then
    let s := (s.setSec { s.security with startTest := false }).fset SEC_STATUS.ENTROPY_FAIL 0 0
    if s.security.challengeDue then s.drawChallenge else s
  else s

def execEntropyHealthPass (s : State) : Host.Outcome State Fault Refusal := onUnit true s.entropyPass

/-! ### Attestation (R422 to R424) -/

/-- An entry of the defect ledger as its 16 bytes (R227). -/
def Defect.toBytes (d : Defect) : List Byte :=
  leBytes 1 d.kind ++ leBytes 1 d.cause ++ leBytes 2 0 ++ leBytes 4 d.location ++ leBytes 8 d.tally

def State.measureOf (s : State) (k : Nat) : List Byte :=
  match mget noEnv s.security.running k with
  | some e => e.digest
  | none => zeros 32

/-- Bytes 0 to 831 of a report (R422, R423). The bytes that the LEDGER and OWNER digests cover are DESIGN CHOICE: the
entries in flash; slots of 60 bytes, zeros where empty, then the policy. -/
def State.reportBody (s : State) (nonce : List Byte) : List Byte :=
  let up := s.up (domPlat 0)
  let flags := up.toNat + 2 * s.fget LIC_STATE.PENDING 0 + 4 * s.fget SEC_STATUS.ENTROPY_DEGRADED 0
    + 8 * s.fget SEC_STATUS.LOG_FULL 0
  let svn := fun k => mget (fun _ => 0) s.security.svn k
  let lic := (List.range 8).flatMap fun i => leBytes 4 (s.rget .LIC_DIGEST i).toNat
  let ledger := sha256 (s.placer.defects.flatMap Defect.toBytes)
  let owner := sha256 ((slots8.flatMap fun i => (s.ownerKey i).getD (zeros 60)) ++ leBytes 4 s.security.policy)
  let held := if up then ((List.range 16).map fun c => if s.fget IMG_CX_STATE.STATE c = 0 then 0 else 2 ^ c).sum else 0
  let images := if up then
      (List.range 128).flatMap fun i => leBytes 4 (s.rget .IMG_CX_DIGEST i).toNat
    else zeros 512
  leBytes 8 0x54414E41524F5645 ++ leBytes 2 1 ++ leBytes 1 s.lcs ++ leBytes 1 flags ++ leBytes 4 Config.bootRom.toNat
    ++ s.deviceId ++ nonce ++ leBytes 8 (if up then s.tally.count else 0) ++ leBytes 4 (s.fget ATT_KEY.TOP_LEAF 0)
    ++ leBytes 2 (svn 1) ++ leBytes 2 (svn 2) ++ s.measureOf 1 ++ s.measureOf 2 ++ s.measureOf 3 ++ lic ++ ledger ++ owner
    ++ leBytes 4 s.security.policy ++ leBytes 2 held ++ zeros 26 ++ images

/-- A signed report (R421, R422): the bottom counter advances first; the 1,024th leaf leaves no tree ready. -/
def State.signReport (s : State) (nonce : List Byte) : List Byte × State :=
  let s := s.fset ATT_KEY.BOTTOM_USED 0 (s.fget ATT_KEY.BOTTOM_USED 0 + 1)
  let body := s.reportBody nonce
  let sig := (List.range 5396).map fun i =>
    Config.signatureByte (s.fget ATT_KEY.TOP_LEAF 0) (s.fget ATT_KEY.BOTTOM_USED 0 - 1) body i
  let s := s.finc ATT_COUNT.REPORTS 0
  let s := if s.fget ATT_KEY.BOTTOM_USED 0 ≥ 1024 then s.fset SEC_STATUS.KEY_READY 0 0 else s
  (body ++ leBytes 4 5396 ++ sig, s)

/-! ### Requests to the Nose (R431, R436) -/

/-- The Aihar requests of the last second. -/
def State.recentRequests (s : State) : List (Nat × Nat) :=
  s.nose.requests.filter fun e => decide (s.tally.time < e.2 + 10 ^ 8)

/-- The sources that the Nose tracks: 32 of the last second. -/
def State.trackedSources (s : State) : List Nat := (s.recentRequests.map (·.1)).eraseDups.take 32

/-- A source shares the allowance of source `a`: it is `a`, or both are sources beyond those that the Nose tracks. -/
def State.sharesWith (s : State) (a b : Nat) : Bool :=
  let known := s.trackedSources
  if known.contains a || decide (known.length < 32) then b == a else !known.contains b

/-- The requests of the last second that count against a source. -/
def State.requestsOf (s : State) (a : Nat) : Nat := s.recentRequests.countP fun e => s.sharesWith a e.1

/-- The requests outstanding that count against a source. -/
def State.outstandingOf (s : State) (a : Nat) : Nat :=
  s.security.waiting.countP fun r => match r.source with
    | .aihar b => s.sharesWith a b
    | _ => false

/-- The path of a request as the Nose takes it: an Aihar datagram is one that arrives whole at MGT_CTRL.PORT (R434). -/
def State.seen (s : State) (source : Requester) : Requester :=
  match source with
  | .udp a port whole => if whole && port == s.fget MGT_CTRL.PORT 0 then .aihar a else .udp a port whole
  | q => q

/-- A request reaches the Nose, or the security engine by DOE: an Aihar request of a source beyond its allowance is dropped
and counted; with ALLOW_ONLY, one of a source that is no collector is dropped. A malformed datagram is dropped and
counted; one to another UDP port, and a fragment, is dropped. -/
def State.admitTo (s : State) (source : Requester) (act : State → State) : State :=
  let running := s.fon NOS_STATUS.RUNNING 0 || s.fon NOS_STATUS.MINIMAL 0
  match source with
  | .doe => act s
  | .mctp => if running then act s else s
  | .malformed _ => if running && s.aiharOn then s.finc MGT_STATS.BAD 0 else s
  | .udp .. => s
  | .aihar a =>
    if !running || !s.aiharOn then s
    else if s.fon MGT_CTRL.ALLOW_ONLY 0 && !(s.collectors.any fun k => s.collectorAddr k == a) then s
    else if 64 ≤ s.requestsOf a ∨ 16 ≤ s.outstandingOf a then
      s.finc MGT_STATS.RATE_DROPPED 0
    else act { s with nose := { s.nose with requests := s.recentRequests ++ [(a, s.tally.time)] } }

/-- The Aihar operation that carries attestation (R435). -/
def opAttest := 0x05

def State.attAnswer (s : State) (source : Requester) (xid status : Nat) (payload : List Byte) : State :=
  s.reply source opAttest 0 xid (leBytes 4 status ++ payload)

/-- A KIND 7 command runs. -/
def State.lifeCommand (s : State) : Bool := s.security.command.isSome && s.submitted.kind == 7

/-- An attestation request is answered ATT_BUSY while a KIND 7 command runs (R424). -/
def State.unlessBusy (s : State) (source : Requester) (xid : Nat) (act : State → State) : State :=
  if s.lifeCommand then s.attAnswer source xid 1 [] else act s

/-- A request for a report: answered, refused, or waiting for a bottom tree (R420 to R424). -/
def State.attestReport (s : State) (nonce : List Byte) (source : Requester) (xid : Nat) : State :=
  if nonce.length ≠ 32 then s.attAnswer source xid 5 []
  else if s.fon SEC_STATUS.KEY_EXHAUSTED 0 then s.attAnswer source xid 2 []
  else if s.fon SEC_STATUS.KEY_STATE_FAIL 0 then s.attAnswer source xid 3 []
  else if s.fon SEC_STATUS.KEY_READY 0 then
    let (r, s) := s.signReport nonce
    s.attAnswer source xid 0 r
  else s.setSec { s.security with waiting := s.security.waiting ++ [⟨1, nonce, source, xid⟩] }

/-- The public key is answered; in a Blank part there is none, and the STATUS of the answer is a free value. -/
def State.attestKey (s : State) (source : Requester) (xid : Nat) : State :=
  if s.security.keyMade then s.attAnswer source xid 0 (s.deviceId ++ s.identityBytes)
  else s.attAnswer source xid Config.noKeyStatus.toNat []

def State.attestLog (s : State) (source : Requester) (xid : Nat) : State :=
  s.attAnswer source xid 0 (s.security.log.flatMap fun e => leBytes 4 e.1 ++ leBytes 4 e.2.1 ++ leBytes 8 e.2.2.1 ++ e.2.2.2)

/-- A request for an attestation is taken up, or answered ATT_BUSY. -/
def State.asked (s : State) (a : Asker) (act : State → State) : State :=
  s.admitTo a.source fun s => s.unlessBusy a.source a.xid act

/-- The request as the Nose takes it. -/
def State.seenAsker (s : State) (a : Asker) : Asker := ⟨s.seen a.source, a.xid⟩

def execAttestReport (nonce : List Byte) (asker : Asker) (s : State) : Host.Outcome State Fault Refusal :=
  let a := s.seenAsker asker
  onUnit asker.source.ok (s.asked a fun s => s.attestReport nonce a.source a.xid)

def execAttestPublicKey (asker : Asker) (s : State) : Host.Outcome State Fault Refusal :=
  let a := s.seenAsker asker
  onUnit asker.source.ok (s.asked a fun s => s.attestKey a.source a.xid)

def execAttestLog (asker : Asker) (s : State) : Host.Outcome State Fault Refusal :=
  let a := s.seenAsker asker
  onUnit asker.source.ok (s.asked a fun s => s.attestLog a.source a.xid)

/-- ATT_ENTROPY: a request has waited 1 s for a healthy source (R419). -/
def State.attEntropy (s : State) : State :=
  match s.security.waiting with
  | [] => s
  | r :: rest =>
    if s.unhealthy then (s.setSec { s.security with waiting := rest }).attAnswer r.source r.xid 4 [] else s

def execAttEntropy (s : State) : Host.Outcome State Fault Refusal := onUnit true s.attEntropy

/-! ### The identity key's state (R420, R421) -/

/-- The higher NEXT of the valid copies. -/
def bestCopy (l : List (Option Nat)) : Option Nat :=
  l.foldl (fun a c => match a, c with
    | some x, some y => some (max x y)
    | some x, none => some x
    | none, y => y) none

/-- The leaf that a new bottom tree takes and the epochs then blown; none when the epochs are used up (R420). -/
def nextLeaf (copies : List (Option Nat)) (F : Nat) : Option (Nat × Nat) :=
  let (n, F) := match bestCopy copies with
    | some n => if n + 1024 < 1024 * F ∨ F = 0 then (1024 * F, F + 1) else (n, F)
    | none => (1024 * F, F + 1)
  let F := if n = 1024 * F then F + 1 else F
  if F ≤ 1024 then some (n, F) else none

/-- Requests that waited for the tree are answered in order. -/
def State.answerWaiting (s : State) : State :=
  let l := s.security.waiting
  s.setSec { s.security with waiting := [] } |>.forEach l fun r s => s.attestReport r.nonce r.source r.xid

/-- BOTTOM_TREE_READY (R420, R421): `written` is whether the key state was written and read back. -/
def State.bottomTree (s : State) (written : Bool) : State :=
  if s.fon SEC_STATUS.KEY_READY 0 || s.fon SEC_STATUS.KEY_EXHAUSTED 0 || s.fon SEC_STATUS.KEY_STATE_FAIL 0
      || s.unhealthy || !s.security.keyMade then s
  else
    match nextLeaf s.security.keyCopies (s.fget ATT_EPOCH.EPOCHS 0) with
    | none => (s.fset SEC_STATUS.KEY_EXHAUSTED 0 1).answerWaiting
    | some (n, F) =>
      let s := s.fset ATT_EPOCH.EPOCHS 0 F
      if written then
        let s := s.setSec { s.security with keyCopies := [some (n + 1), some (n + 1)] }
        let s := ((s.fset ATT_KEY.TOP_LEAF 0 n).fset ATT_KEY.BOTTOM_USED 0 0).fset SEC_STATUS.KEY_READY 0 1
        s.answerWaiting
      else (s.fset SEC_STATUS.KEY_STATE_FAIL 0 1).answerWaiting

def execBottomTreeReady (written : Bool) (s : State) : Host.Outcome State Fault Refusal :=
  onUnit true (s.bottomTree written)

end Sys2Proof.Machine
end

