-- ==== Sys2Proof/Machine/ImageFormat.lean ====
section
/-! DEFINITION. The structure image as bytes: its layout, and the checks that need nothing but the image
(09_structure_images.md R195 to R215, R465). -/
namespace Sys2Proof.Machine

open Sys2Proof

/-! ### Layout -/

/-- An entry of the section directory (R197). -/
structure DirEnt where
  at_ : Nat
  type : Nat
  count : Nat
  off : Nat
  len : Nat
  deriving DecidableEq, Repr

/-- Record sizes (R197); DATA has none. -/
def recordSize : Nat → Option Nat
  | 0x01 => some 64 | 0x02 => some 272 | 0x03 => some 16 | 0x04 => some 32 | 0x05 => some 16 | 0x06 => some 16
  | 0x07 => some 32 | 0x08 => some 64 | 0x09 => some 32 | 0x0A => some 16 | 0x0B => some 48 | 0x0C => some 32
  | 0x0D => some 8 | _ => none

def requiredSections : List Nat := [0x01, 0x02, 0x03, 0x04, 0x05, 0x0E]

def imgSigned (b : List Byte) : Nat := rd b 0x18 8
def imgFlags (b : List Byte) : Nat := rd b 0x20 4

/-- Entries of the directory, and where it ends. -/
def imgDir (b : List Byte) : List DirEnt :=
  (List.range (rd b 0x24 2)).map fun i =>
    let o := 0x40 + 16 * i
    ⟨o, rd b o 2, rd b (o + 4) 4, rd b (o + 8) 4, rd b (o + 12) 4⟩

def imgDirEnd (b : List Byte) : Nat := 0x40 + 16 * rd b 0x24 2

def imgSect (b : List Byte) (t : Nat) : Option DirEnt := (imgDir b).find? fun e => e.type == t

/-- Offsets of the records of a section. -/
def imgRecs (b : List Byte) (t : Nat) : List Nat :=
  match imgSect b t, recordSize t with
  | some e, some n => (List.range e.count).map fun i => e.off + n * i
  | _, _ => []

def imgData (b : List Byte) : Nat := ((imgSect b 0x0E).map (·.off)).getD 0
def imgDataLen (b : List Byte) : Nat := ((imgSect b 0x0E).map (·.len)).getD 0

/-- The offset of the CONTEXT record. -/
def imgCtx (b : List Byte) : Nat := ((imgSect b 0x01).map (·.off)).getD 0

/-- The set bits of a bitmap of 288 bits (R198). -/
def bitmapAt (b : List Byte) (o : Nat) : List Nat := (List.range 288).filter fun n => (rd b (o + n / 8) 1).testBit (n % 8)

/-! ### Records -/

def regionRecAt (b : List Byte) (o : Nat) : RegionRec :=
  { base := rd b o 2, length := rd b (o + 2) 2, kind := rd b (o + 4) 1, object := rd b (o + 6) 2, offset := rd b (o + 8) 4 }

def clusterRecAt (b : List Byte) (o : Nat) : ClusterRec :=
  { cluster := rd b o 2
    regions := (List.range (min 16 (rd b (o + 2) 1))).map fun i => regionRecAt b (o + 16 + 16 * i) }

def folioRecAt (b : List Byte) (o : Nat) : FolioRec :=
  { repeat_ := rd b o 2, next := rd b (o + 2) 2, first := rd b (o + 4) 4, count := rd b (o + 8) 2 }

def folioClusterAt (b : List Byte) (o : Nat) : FolioClusterRec :=
  { cluster := rd b o 2, entry := rd b (o + 2) 2, tellerSeg := rd b (o + 4) 2
    vecSeg := [rd b (o + 6) 2, rd b (o + 8) 2], lutSeg := [rd b (o + 10) 2, rd b (o + 12) 2]
    descSeg := rd b (o + 14) 2, descAddr := rd b (o + 16) 4, epFirst := rd b (o + 20) 4, epCount := rd b (o + 24) 2 }

def segmentAt (b : List Byte) (o : Nat) : SegmentRec :=
  { kind := rd b o 1, length := rd b (o + 4) 4, offset := rd b (o + 8) 4 }

def endpointAt (b : List Byte) (o : Nat) : EndpointRec :=
  { endpoint := rd b o 2, flags := rd b (o + 2) 2, peerCluster := rd b (o + 4) 2, peerEp := rd b (o + 6) 2
    count := rd b (o + 8) 3, slots := rd b (o + 11) 1, depth := rd b (o + 12) 2, skew := rd b (o + 14) 2 }

def haloAt (b : List Byte) (o : Nat) : HaloRec :=
  { folio := rd b o 2, halo := rd b (o + 2) 2, src := rd b (o + 4) 2, dst := rd b (o + 6) 2, srcAddr := rd b (o + 8) 4
    dstAddr := rd b (o + 12) 4, length := rd b (o + 16) 4, slots := rd b (o + 20) 1, dstEp := rd b (o + 22) 2 }

def clearingAt (b : List Byte) (o : Nat) : ClearingRec :=
  { folio := rd b o 2, tag := rd b (o + 2) 2, contributions := rd b (o + 4) 2, root := rd b (o + 6) 2
    rows := rd b (o + 8) 4, base := rd b (o + 12) 4, rootEp := rd b (o + 16) 2, contributors := bitmapAt b (o + 20) }

def fabricRecAt (b : List Byte) (o : Nat) : FabricRec :=
  { folio := rd b o 2, inbound := (rd b (o + 2) 1).testBit 0, clearing := (rd b (o + 2) 1).testBit 1
    circuit := rd b (o + 4) 2, port := rd b (o + 6) 1, cluster := rd b (o + 8) 2, endpoint := rd b (o + 10) 2
    cells := rd b (o + 12) 4, skew := rd b (o + 16) 2 }

def ringRecAt (b : List Byte) (o : Nat) : RingRec :=
  { ring := rd b o 2, cluster := rd b (o + 2) 2, region := rd b (o + 4) 1, maxMsg := rd b (o + 6) 2 }

def windowRecAt (b : List Byte) (o : Nat) : WindowRec :=
  { window := rd b o 2, object := rd b (o + 2) 2, ops := rd b (o + 4) 2, key := rd b (o + 8) 4
    offset := rd b (o + 16) 8, length := rd b (o + 24) 8
    ranges := (List.range (min 4 (rd b (o + 6) 2))).map fun i => (rd b (o + 32 + 4 * i) 2, rd b (o + 34 + 4 * i) 2) }

def objectAt (b : List Byte) (o : Nat) : ObjectRec :=
  { object := rd b o 2, interleave := rd b (o + 2) 1, home := rd b (o + 3) 1, pages := rd b (o + 4) 4, base := rd b (o + 8) 8
    init := rd b (o + 16) 1, initOffset := rd b (o + 20) 4, initLength := rd b (o + 24) 4 }

def useAt (b : List Byte) (o : Nat) : UseRec := { folio := rd b o 2, object := rd b (o + 2) 2, use := rd b (o + 4) 1 }

/-- The image as its records read, for context `c`. -/
def Image.of (b : List Byte) (c : Nat) : Image :=
  let o := imgCtx b
  { context := c, steady := rd b (o + 1) 1 == 1, budget := rd b (o + 4) 4, pages := rd b (o + 8) 4
    fabricPorts := rd b (o + 12) 3
    clusters := (imgRecs b 0x02).map (clusterRecAt b), folios := (imgRecs b 0x03).map (folioRecAt b)
    folioClusters := (imgRecs b 0x04).map (folioClusterAt b), segments := (imgRecs b 0x05).map (segmentAt b)
    endpoints := (imgRecs b 0x06).map (endpointAt b), halos := (imgRecs b 0x07).map (haloAt b)
    clearing := (imgRecs b 0x08).map (clearingAt b), fabric := (imgRecs b 0x09).map (fabricRecAt b)
    rings := (imgRecs b 0x0A).map (ringRecAt b), windows := (imgRecs b 0x0B).map (windowRecAt b)
    objects := (imgRecs b 0x0C).map (objectAt b), uses := (imgRecs b 0x0D).map (useAt b)
    dataOffset := imgData b, fabricAt := ((imgSect b 0x09).map (·.off)).getD 0
    signedLength := imgSigned b, imageLength := rd b 0x10 8, ownerSigned := (imgFlags b).testBit 0
    digest := rdBytes b (imgSigned b + 8) 32 }

/-! ### Refusals -/

/-- Why a load is refused: IMG_STATUS.CODE, IMG_DETAIL, IMG_DETAIL_CODE (R215, R222). -/
structure ImgRefusal where
  code : Nat
  off : Nat
  sub : Nat
  deriving DecidableEq, Repr

/-- The first of a list of breaches, each with its offset. -/
def breach (code : Nat) (l : List (Nat × Bool)) : Option ImgRefusal := (l.find? (·.2)).map fun e => ⟨code, e.1, 0⟩

def noOffset : Nat := 0xFFFFFFFF

/-! ### Header, lengths, digest, signature (R196, R212, R213, R465) -/

def imgMagic (b : List Byte) : Option ImgRefusal := breach 0x03 [(0, rd b 0 8 != 0x4D494E41524F5645)]

def imgVersion (b : List Byte) : Option ImgRefusal :=
  breach 0x04 [(0x08, rd b 0x08 2 != 1), (0x0A, rd b 0x0A 2 != 0), (0x0C, rd b 0x0C 2 != 4),
    (0x0E, decide (rd b 0x0E 2 > 0xA1))]

/-- The lengths agree with IMG_SRC_LEN `n` and with each other (R465). -/
def imgLengths (b : List Byte) (n : Nat) : Option ImgRefusal :=
  let sl := imgSigned b
  let sig := rd b (sl + 44) 4
  breach 0x05 [(0x10, rd b 0x10 8 != n || decide (n > 2 ^ 30)),
    (0x18, sl % 64 != 0 || decide (sl < imgDirEnd b) || decide (sl + 64 > rd b 0x10 8)),
    (sl + 44, decide (sig > 16384)), (0x10, rd b 0x10 8 != sl + 64 + sig)]

def imgSigMagic (b : List Byte) : Option ImgRefusal :=
  breach 0x03 [(imgSigned b, rd b (imgSigned b) 8 != 0x47534E41524F5645)]

def imgDigest (b : List Byte) : Option ImgRefusal :=
  breach 0x06 [(imgSigned b + 8, rdBytes b (imgSigned b + 8) 32 != sha256 (b.take (imgSigned b)))]

/-- The owner signature (R213); `policy`: unsigned images are refused. -/
def imgSignature (b : List Byte) (keys : Nat → Option (List Byte)) (policy : Bool) : Option ImgRefusal :=
  let o := imgSigned b
  let key := rd b (o + 40) 4
  let n := rd b (o + 44) 4
  if (imgFlags b).testBit 0 then
    breach 0x07 [(o + 40, decide (key ≥ 8) || (keys key).isNone), (o + 44, n == 0),
      (o + 64, !(match keys key with
        | some k => hssVerify k (rdBytes b (o + 8) 32) (rdBytes b (o + 64) n)
        | none => false))]
  else breach 0x07 [(o + 40, key != 0xFFFFFFFF), (o + 44, n != 0), (0x20, policy)]

/-- The context that the image must occupy (R216), where its record can be found. -/
def imgContext (b : List Byte) (c : Nat) : Option ImgRefusal :=
  match imgSect b 0x01 with
  | some e => breach 0x08 [(e.off, decide (e.off + 64 ≤ imgSigned b) && decide (rd b e.off 1 < 16) && rd b e.off 1 != c)]
  | none => none

/-! ### Directory and sections (R195 to R197) -/

/-- A section's entry is out of order by itself. -/
def DirEnt.bad (b : List Byte) (e : DirEnt) : Bool :=
  (match recordSize e.type with
    | some n => e.len != n * e.count
    | none => e.type != 0x0E || e.count != 0 || e.len % 64 != 0)
    || e.off % 64 != 0 || decide (e.off < imgDirEnd b) || decide (e.off + e.len > imgSigned b)
    || (e.type == 0x01 && e.count != 1)

/-- The first nonzero byte of [lo, hi). -/
def nonzeroIn (b : List Byte) (lo hi : Nat) : Option Nat := (((b.drop lo).take (hi - lo)).findIdx? (· != 0)).map (lo + ·)

/-- The bytes from the directory to the signature block that no section covers, and sections that overlap, in ascending
order of offset: the offset of the first breach. -/
def imgGaps (b : List Byte) : Nat → List DirEnt → Option Nat
  | pos, [] => nonzeroIn b pos (imgSigned b)
  | pos, e :: t => if e.off < pos then some e.off else (nonzeroIn b pos e.off).orElse fun _ => imgGaps b (e.off + e.len) t

/-- Records that carry a FOLIO field are sorted by it (R197). -/
def unsortedFolio (b : List Byte) : List Nat → List (Nat × Bool)
  | x :: y :: t => (y, decide (rd b y 2 < rd b x 2)) :: unsortedFolio b (y :: t)
  | _ => []

def dupType : List DirEnt → List (Nat × Bool)
  | [] => []
  | e :: t => dupType t ++ (t.filter fun x => x.type == e.type).map fun x => (x.at_, true)

def imgSections (b : List Byte) : Option ImgRefusal :=
  let dir := imgDir b
  let fab := (imgSect b 0x09).map (·.count)
  (breach 0x09 ([(0x24, decide (dir.length < 6) || decide (dir.length > 14)), (0x28, rd b 0x28 4 != 0x40)]
    ++ dir.map (fun e => (e.at_, e.bad b)) ++ dupType dir
    ++ requiredSections.map (fun t => (0x40, (imgSect b t).isNone))
    ++ [(0x20, fab.isSome != (imgFlags b).testBit 1 || fab == some 0)])).orElse fun _ =>
  (((imgGaps b (imgDirEnd b) (sortBy (fun a c => decide (a.off < c.off)) (dir.filter fun e => e.len != 0))).map
    fun o => (⟨0x09, o, 0⟩ : ImgRefusal))).orElse fun _ =>
  breach 0x09 ([0x07, 0x08, 0x09, 0x0D].flatMap (fun t => unsortedFolio b (imgRecs b t))
    ++ [(0x20, (imgFlags b).testBit 2 != (imgRecs b 0x09).any fun o => (fabricRecAt b o).clearing)])

/-! ### Reserved fields and values (R214) -/

/-- Offsets `lo` to `hi` - 1 within a record, where nothing is allowed. -/
def span (lo hi : Nat) : List (Nat × Nat) := (List.range (hi - lo)).map fun i => (lo + i, 0)

/-- The bytes of a record of each section that hold reserved bits, with the bits that are not reserved. -/
def reservedBytes : Nat → List (Nat × Nat)
  | 0x01 => span 15 16 ++ span 54 64
  | 0x02 => span 3 16
  | 0x03 => span 10 16
  | 0x04 => span 26 32
  | 0x05 => span 1 4 ++ span 12 16
  | 0x06 => (2, 0x1F) :: span 3 4
  | 0x07 => span 21 22 ++ span 24 32
  | 0x08 => span 18 20 ++ span 56 64
  | 0x09 => (2, 0x03) :: span 3 4 ++ span 7 8 ++ span 18 32
  | 0x0A => span 5 6 ++ span 8 16
  | 0x0B => (4, 0x03) :: span 5 6 ++ span 12 16
  | 0x0C => span 17 20 ++ span 28 32
  | 0x0D => span 5 8
  | _ => []

def reservedIn (b : List Byte) (o : Nat) (l : List (Nat × Nat)) : List (Nat × Bool) :=
  l.map fun e => (o + e.1, rd b (o + e.1) 1 &&& (0xFF - e.2) != 0)

/-- Region entries of a CLUSTERS record that are described: their reserved bytes and values. -/
def reservedRegions (b : List Byte) (o : Nat) : List (Nat × Bool) :=
  (List.range (min 16 (rd b (o + 2) 1))).flatMap fun i =>
    let r := o + 16 + 16 * i
    reservedIn b r (span 5 6 ++ span 12 16) ++ [(r + 4, decide (5 ≤ rd b (r + 4) 1) && decide (rd b (r + 4) 1 ≤ 7))]

/-- Reserved bits are 0, and the KIND of a segment or region is no reserved value (R133, R203). -/
def imgReserved (b : List Byte) : Option ImgRefusal :=
  breach 0x0A (reservedIn b 0 ((0x20, 0x07) :: span 0x21 0x24 ++ span 0x26 0x28)
    ++ (imgDir b).flatMap (fun e => reservedIn b e.at_ (span 2 4))
    ++ (((List.range 13).map (· + 1)).flatMap fun t => (imgRecs b t).flatMap fun o =>
      reservedIn b o (reservedBytes t) ++ (if t = 0x02 then reservedRegions b o else [])
        ++ (if t = 0x05 then [(o, decide (rd b o 1 > 3))] else []))
    ++ reservedIn b (imgSigned b) (span 48 64))

/-! ### Licence (R1, R3) -/

/-- `cxOk`, `portOk`, `clearOk`: what the active licence enables. -/
def imgLicence (b : List Byte) (cxOk portOk : Nat → Bool) (clearOk : Bool) : Option ImgRefusal :=
  let o := imgCtx b
  breach 0x0B ([(o, decide (rd b o 1 < 16) && !cxOk (rd b o 1)),
    (o + 12, (List.range 24).any fun n => (rd b (o + 12) 3).testBit n && !portOk n)]
    ++ (imgRecs b 0x09).map fun r => (r, (fabricRecAt b r).clearing && !clearOk))

/-! ### Numbers, indices, counts and sums (R198 to R211) -/

/-- Records of a section with their offsets. -/
def recsAt {α : Type} (b : List Byte) (t : Nat) (f : List Byte → Nat → α) : List (Nat × α) := (imgRecs b t).map fun o => (o, f b o)

/-- Elements whose key some earlier element has. -/
def repeated {α : Type} (key : α → Nat) : List Nat → List (Nat × α) → List (Nat × Bool)
  | _, [] => []
  | seen, e :: t => (e.1, seen.contains (key e.2)) :: repeated key (key e.2 :: seen) t

/-- FOLIO_CLUSTERS records of a folio, with their offsets. -/
def usersAt (b : List Byte) (f : FolioRec) : List (Nat × FolioClusterRec) :=
  ((recsAt b 0x04 folioClusterAt).drop f.first).take f.count

/-- A folio uses every cluster of a list. -/
def Image.inFolio (im : Image) (f : Nat) (l : List Nat) : Bool :=
  decide (f < im.folios.length) && l.all fun L => (im.users f).any fun u => u.cluster == L

def rangeContext (b : List Byte) (im : Image) : List (Nat × Bool) :=
  let o := imgCtx b
  let n := rd b (o + 2) 2
  let ports := ((im.fabric.map (·.port)).dedup.map fun p => 2 ^ p).sum
  let set := bitmapAt b (o + 16)
  [(o, decide (rd b o 1 ≥ 16) && rd b o 1 != 0xFF), (o + 1, decide (rd b (o + 1) 1 > 1)),
   (o + 2, decide (n < 1) || decide (n > 4095) || n != im.folios.length), (o + 4, im.budget == 0),
   (o + 8, im.pages != (im.objects.map (·.pages)).sum), (o + 12, im.fabricPorts != ports),
   (o + 52, rd b (o + 52) 2 != set.length || rd b (o + 52) 2 != im.clusters.length)]

def rangeClusters (b : List Byte) : List (Nat × Bool) :=
  (((imgRecs b 0x02).zip (bitmapAt b (imgCtx b + 16))).flatMap fun e =>
    [(e.1, rd b e.1 2 != e.2), (e.1 + 2, decide (rd b (e.1 + 2) 1 > 16))])

/-- FOLIO_CLUSTERS records of a folio that do not rise by CLUSTER. -/
def unsortedUsers : List (Nat × FolioClusterRec) → List (Nat × Bool)
  | x :: y :: t => (y.1, decide (y.2.cluster ≤ x.2.cluster)) :: unsortedUsers (y :: t)
  | _ => []

def rangeFolios (b : List Byte) (im : Image) : List (Nat × Bool) :=
  (recsAt b 0x03 folioRecAt).flatMap fun e =>
    [(e.1 + 2, decide (e.2.next ≥ im.folios.length) && e.2.next != 4095),
     (e.1 + 8, decide (e.2.count < 1) || decide (e.2.count > 288)),
     (e.1, decide (e.2.first + e.2.count > im.folioClusters.length))] ++ unsortedUsers (usersAt b e.2)

def rangeUsers (b : List Byte) (im : Image) : List (Nat × Bool) :=
  let n := im.segments.length
  (recsAt b 0x04 folioClusterAt).flatMap fun e =>
    [(e.1, !(im.clusters.any fun r => r.cluster == e.2.cluster)), (e.1 + 4, decide (e.2.tellerSeg ≥ n) || e.2.tellerSeg == noSeg)]
      ++ (e.2.segs.drop 1).zipIdx.map (fun x => (e.1 + 6 + 2 * x.2, x.1 != noSeg && decide (x.1 ≥ n)))
      ++ [(e.1 + 24, decide (e.2.epCount > 2048)), (e.1, decide (e.2.epFirst + e.2.epCount > im.endpoints.length))]

def rangeHalos (b : List Byte) (im : Image) : List (Nat × Bool) :=
  ((recsAt b 0x07 haloAt).flatMap fun e =>
    let h := e.2
    [(e.1, !im.inFolio h.folio [h.src, h.dst] || h.src == h.dst), (e.1 + 8, h.srcAddr % 32 != 0),
     (e.1 + 12, h.dstAddr % 32 != 0), (e.1 + 16, h.length % 32 != 0 || h.length == 0),
     (e.1 + 20, decide (h.slots < 1) || decide (h.slots > 60))])
    ++ repeated (fun h => h.folio * 65536 + h.halo) [] (recsAt b 0x07 haloAt)

def rangeClearing (b : List Byte) (im : Image) : List (Nat × Bool) :=
  ((recsAt b 0x08 clearingAt).flatMap fun e =>
    let g := e.2
    [(e.1, !im.inFolio g.folio (g.root :: g.contributors)),
     (e.1 + 4, decide (g.contributions < 1) || decide (g.contributions > 4096)),
     (e.1 + 8, decide (g.rows < 1) || decide (g.rows > 65536)), (e.1 + 12, g.base % 32 != 0)])
    ++ repeated (·.tag) [] (recsAt b 0x08 clearingAt)

/-- Circuit numbers have 12 bits, as circuit cells carry them (R294); CELLS is at least 8 (R310). -/
def rangeFabric (b : List Byte) (im : Image) : List (Nat × Bool) :=
  (recsAt b 0x09 fabricRecAt).flatMap fun e =>
    [(e.1, !im.inFolio e.2.folio [e.2.cluster]), (e.1 + 4, decide (e.2.circuit ≥ 4096)),
     (e.1 + 6, decide (e.2.port > 23)), (e.1 + 12, decide (e.2.cells < 8))]

/-- The region that a RINGS record names, if it is that ring's (R208). -/
def Image.ringRegion (im : Image) (r : RingRec) : Option RegionRec :=
  (im.clusters.find? fun k => k.cluster == r.cluster).bind fun k =>
    (k.regions[r.region]?).bind fun g => if g.kind = 4 ∧ g.object = r.ring then some g else none

def rangeRings (b : List Byte) (im : Image) : List (Nat × Bool) :=
  ((recsAt b 0x0A ringRecAt).flatMap fun e =>
    [(e.1, decide (e.2.ring > 4095) || (im.ringRegion e.2).isNone),
     (e.1 + 6, decide (e.2.maxMsg < 32) || decide (e.2.maxMsg > 256) || e.2.maxMsg % 32 != 0
        || (match im.ringRegion e.2 with
          | some g => decide (2 * e.2.maxMsg > 4096 * g.length - 64)
          | none => false))]) ++ repeated (·.ring) [] (recsAt b 0x0A ringRecAt)

def ObjectRec.bytes (o : ObjectRec) : Nat := 0x200000 * o.pages

def badObject (dataLen : Nat) (o : ObjectRec) : Bool :=
  decide (o.object < 1) || decide (o.object > 4095) || decide (o.interleave > 1) || decide (o.home > 11)
    || (o.interleave == 1 && o.home != 0) || o.pages == 0 || o.base % 0x200000 != 0 || decide (o.base + o.bytes > 2 ^ 40)
    || decide (o.init > 1)
    || (if o.init = 1 then o.initOffset % 64 != 0 || decide (o.initLength > o.bytes)
          || decide (o.initOffset + o.initLength > dataLen)
        else o.initOffset != 0 || o.initLength != 0)

/-- Objects that overlap an earlier one. -/
def overlapping : List ObjectRec → List (Nat × ObjectRec) → List (Nat × Bool)
  | _, [] => []
  | seen, e :: t =>
    (e.1, seen.any fun o => decide (o.base < e.2.base + e.2.bytes) && decide (e.2.base < o.base + o.bytes))
      :: overlapping (e.2 :: seen) t

def rangeMemory (b : List Byte) (im : Image) : List (Nat × Bool) :=
  let objs := recsAt b 0x0C objectAt
  objs.map (fun e => (e.1, badObject (imgDataLen b) e.2)) ++ repeated (·.object) [] objs ++ overlapping [] objs
    ++ (recsAt b 0x0D useAt).flatMap (fun e =>
      [(e.1, decide (e.2.folio ≥ im.folios.length) || !(im.objects.any fun o => o.object == e.2.object)),
       (e.1 + 4, decide (e.2.use < 1) || decide (e.2.use > 3))])
    ++ repeated (fun u => u.folio * 65536 + u.object) [] (recsAt b 0x0D useAt)

def imgRange (b : List Byte) (im : Image) : Option ImgRefusal :=
  breach 0x0C (rangeContext b im ++ rangeClusters b ++ rangeFolios b im ++ rangeUsers b im
    ++ (imgRecs b 0x06).map (fun o => (o, decide (rd b o 2 > 2047))) ++ rangeHalos b im ++ rangeClearing b im
    ++ rangeFabric b im ++ rangeRings b im ++ rangeMemory b im)

/-! ### Regions (R199, R200) -/

def RegionRec.units (g : RegionRec) : Nat := if g.kind = 2 then 2 * g.length else g.length

/-- What a region entry says of itself: length, kind, end, OBJECT and OFFSET. -/
def Image.badRegion (im : Image) (L i : Nat) (g : RegionRec) : Bool :=
  g.length == 0 || decide (g.kind < 1) || decide (g.kind > 4) || decide (g.base + g.units > 3072)
    || (if g.kind = 3 ∧ g.object ≠ 0 then g.offset % 4096 != 0 || (match im.objects.find? fun o => o.object == g.object with
          | some o => decide (g.offset + 4096 * g.length > o.bytes)
          | none => true)
        else if g.kind = 4 then g.offset != 0
          || !(im.rings.any fun r => r.cluster == L && r.region == i && r.ring == g.object)
        else g.object != 0 || g.offset != 0)

def regionsMeet (a b : RegionRec) : Bool := decide (a.base < b.base + b.units) && decide (b.base < a.base + a.units)

def imgRegion (b : List Byte) (im : Image) : Option ImgRefusal :=
  breach 0x0D ((recsAt b 0x02 clusterRecAt).flatMap fun e =>
    (List.range 16).map fun i =>
      let o := e.1 + 16 + 16 * i
      (o, match e.2.regions[i]? with
        | some g => im.badRegion e.2.cluster i g || (e.2.regions.take i).any (regionsMeet g)
        | none => (nonzeroIn b o (o + 16)).isSome))

/-! ### Segments and the entries that name them (R202, R203) -/

def badSegment (dataLen : Nat) (g : SegmentRec) : Bool :=
  let ok := match g.kind with
    | 0 => decide (4 ≤ g.length) && decide (g.length ≤ 65536) && g.length % 4 == 0
    | 1 => decide (4 ≤ g.length) && decide (g.length ≤ 32768) && g.length % 4 == 0
    | 2 => decide (4 ≤ g.length) && decide (g.length ≤ 16384) && g.length % 4 == 0
    | _ => decide (64 ≤ g.length) && g.length % 64 == 0
  !ok || g.offset % 64 != 0 || decide (g.offset + g.length > dataLen)

/-- Spans of a cluster within which a static access may lie whole: regions, or halves of carried ones, in bytes, with
kind and OBJECT. -/
def ClusterRec.places (k : ClusterRec) (halves : Bool) : List (Nat × Nat × Nat × Nat) :=
  k.regions.flatMap fun g =>
    if g.kind = 2 ∧ halves then
      [(4096 * g.base, 4096 * g.length, 2, 0), (4096 * (g.base + g.length), 4096 * g.length, 2, 0)]
    else [(4096 * g.base, 4096 * g.units, g.kind, g.object)]

def Image.places (im : Image) (L : Nat) (halves : Bool) : List (Nat × Nat × Nat × Nat) :=
  match im.clusters.find? fun k => k.cluster == L with
  | some k => k.places halves
  | none => []

/-- [a, a+n) lies in one place of one of the kinds. -/
def Image.within (im : Image) (L a n : Nat) (halves : Bool) (kinds : List Nat) : Bool :=
  (im.places L halves).any fun p => kinds.contains p.2.2.1 && decide (p.1 ≤ a) && decide (a + n ≤ p.1 + p.2.1)

def segKinds : List Nat := [0, 1, 1, 2, 2, 3]

def Image.segLength (im : Image) (n : Nat) : Nat := ((im.segment n).map (·.length)).getD 0

/-- The descriptor table lies in a constant region with OBJECT 0 (R202). -/
def Image.tableOk (im : Image) (u : FolioClusterRec) : Bool :=
  if u.descSeg = noSeg then u.descAddr == 0
  else u.descAddr % 64 == 0 && (im.places u.cluster false).any fun p => p.2.2.1 == 3 && p.2.2.2 == 0
    && decide (p.1 ≤ u.descAddr) && decide (u.descAddr + im.segLength u.descSeg ≤ p.1 + p.2.1)

def imgSegment (b : List Byte) (im : Image) : Option ImgRefusal :=
  breach 0x0E ((recsAt b 0x05 segmentAt).map (fun e => (e.1, badSegment (imgDataLen b) e.2))
    ++ (recsAt b 0x04 folioClusterAt).flatMap fun e =>
      ((e.2.segs.zip segKinds).zipIdx.map fun x =>
        (e.1 + 4 + 2 * x.2, x.1.1 != noSeg && (im.segment x.1.1).map (·.kind) != some x.1.2))
      ++ [(e.1 + 2, decide (e.2.entry ≥ im.segLength e.2.tellerSeg / 4)), (e.1 + 16, !im.tableOk e.2)])

/-! ### Descriptors of tables (R206, R214) -/

/-- The descriptors of every table of every folio: folio, cluster's record, offset in the image, words. -/
def imgDescs (b : List Byte) (im : Image) : List (Nat × FolioClusterRec × Nat × List Word) :=
  (List.range im.folios.length).flatMap fun f => (im.users f).flatMap fun u =>
    match im.segment u.descSeg with
    | some g => (List.range (g.length / 64)).map fun i =>
        let o := im.dataOffset + g.offset + 64 * i
        (f, u, o, wordsOf (rdBytes b o 64) 16)
    | none => []

/-- DEST_ID against the folio that holds the table (R80, R206). -/
def Image.destOk (im : Image) (f : Nat) (u : FolioClusterRec) (d : List Word) : Bool :=
  let id := dfield d 13 31 16
  match descDest d with
  | 1 => (im.epsOf u).any fun e => e.endpoint == id && !e.recv && e.kindCode == 0
  | 2 => im.clearing.any fun g => g.folio == f && g.tag == id && g.contributors.contains u.cluster
  | _ => true

def imgDescriptor (b : List Byte) (im : Image) : Option ImgRefusal :=
  (imgDescs b im).findSome? fun x =>
    (descCheck false (im.destOk x.1 x.2.1 x.2.2.2) x.2.2.2).map fun code => ⟨0x0F, x.2.2.1, code⟩

/-! ### Static addresses (R134, R205, R206, R214) -/

/-- [a, a+n) touches no free space: every 4 KiB unit of it lies in a region. -/
def Image.covered (im : Image) (L a n : Nat) : Bool :=
  (unitsOf a n).all fun x => (im.places L false).any fun p => decide (p.1 ≤ x) && decide (x < p.1 + p.2.1)

/-- The ranges that an operand takes: the rows of its elements, and those of its scale array. -/
def Operand.rowRanges (o : Operand) : List (Nat × Nat) :=
  (List.range o.rows).map (fun i => (o.addr + i * o.pitch, o.rowLen))
    ++ (List.range o.scaleGrid.1).map fun i => (o.saddr + i * o.scalePitch, o.scaleGrid.2 * o.sfmt.bytes)

/-- Reads row by row; the elements and the scale array of a destination each as one range. -/
def Image.descStatic (im : Image) (L : Nat) (d : List Word) : Bool :=
  (([opA d, opB d] ++ if descCin d then [opC d] else []).all fun o => o.rowRanges.all fun r => im.covered L r.1 r.2)
    && (descDest d != 0 ||
      (im.within L (opO d).addr ((opO d).elemEnd - (opO d).addr) true [1, 2]
        && ((opO d).gran == 0 || im.within L (opO d).saddr ((opO d).scaleEnd - (opO d).saddr) true [1, 2])))

def imgStatic (b : List Byte) (im : Image) : Option ImgRefusal :=
  breach 0x10 ((imgDescs b im).map (fun x => (x.2.2.1, !im.descStatic x.2.1.cluster x.2.2.2))
    ++ (recsAt b 0x07 haloAt).map (fun e =>
      (e.1, !(im.within e.2.src e.2.srcAddr e.2.length false [1, 2, 3] && im.within e.2.dst e.2.dstAddr e.2.length true [1, 2])))
    ++ (recsAt b 0x08 clearingAt).map fun e => (e.1, !im.within e.2.root e.2.base (288 * e.2.rows) true [1, 2]))

/-! ### Endpoints (R174, R204, R310) -/

/-- The endpoint records of a cluster's record, with their offsets. -/
def epsAt (b : List Byte) (u : FolioClusterRec) : List (Nat × EndpointRec) :=
  ((recsAt b 0x06 endpointAt).drop u.epFirst).take u.epCount

def Image.ep (im : Image) (f L q : Nat) : Option EndpointRec :=
  ((im.users f).find? fun u => u.cluster == L).bind fun u => (im.epsOf u).find? fun e => e.endpoint == q

/-- The COUNTs of the in-package producers of an endpoint (R204). -/
def Image.sumOf (im : Image) (f L q : Nat) : Nat :=
  ((im.producers f L q).map fun p => ((im.ep f p.1 p.2).map (·.count)).getD 0).sum

/-- A halo circuit or a clearing group of the folio names a RECV DONE endpoint. -/
def Image.doneNamed (im : Image) (f L q : Nat) : Bool :=
  (im.halos.any fun h => h.folio == f && h.dst == L && h.dstEp == q)
    || im.clearing.any fun g => g.folio == f && g.root == L && g.rootEp == q

/-- What a record must say of itself, be it in a folio's table or not (R204): the combination of DIR, KIND, ROUTE and FABRIC,
and the ranges that follow from it. -/
def EndpointRec.comboOk (e : EndpointRec) : Bool :=
  (if e.circuit then decide (1 ≤ e.slots) && decide (e.slots ≤ 60) else e.slots == 0)
    && (e.kindCode == 0 || (!e.circuit && !e.fabric))
    && if e.recv then
        e.peerCluster == 0 && e.peerEp == 0 && decide (2 ≤ e.depth) && decide (e.depth ≤ 4096) && decide (e.skew ≤ 4091)
          && (e.kindCode == 0 || e.kindCode == 2)
      else !e.fabric && e.depth == 0 && e.skew == 0 && (e.kindCode == 0 || (e.kindCode == 1 && e.peerEp == 0))

/-- What the record of an endpoint of cluster `L` in folio `f` names (R204). The endpoint of an outbound circuit has no peer
(R310). -/
def Image.epOk (im : Image) (f L : Nat) (e : EndpointRec) : Bool :=
  if e.recv then
        (match e.kindCode with
            | 0 => if e.fabric then decide (e.count ≥ im.sumOf f L e.endpoint) else e.count == im.sumOf f L e.endpoint
            | 2 => im.doneNamed f L e.endpoint
            | _ => false)
      else
        (match e.kindCode with
            | 0 =>
              if (im.circuitOf f L e.endpoint false).isSome then e.peerCluster == 0 && e.peerEp == 0
              else match im.ep f e.peerCluster e.peerEp with
                | some r => r.recv && r.kindCode == 0
                | none => false
            | 1 => im.clearing.any fun g => g.folio == f && g.tag == e.peerCluster && g.contributors.contains L
            | _ => false)

/-- A RECV DONE endpoint. -/
def Image.isDone (im : Image) (f L q : Nat) : Bool :=
  match im.ep f L q with
  | some e => e.recv && e.kindCode == 2
  | none => false

/-- What a FABRIC_CIRCUITS record names (R207, R310): an endpoint is bound to at most one inbound circuit. -/
def Image.fabricOk (im : Image) (r : FabricRec) : Bool :=
  match im.ep r.folio r.cluster r.endpoint with
  | some e =>
    e.kindCode == 0 && e.recv == r.inbound && (!r.inbound || e.fabric)
      && (!r.inbound || decide ((im.fabric.countP fun x => x.folio == r.folio && x.cluster == r.cluster
          && x.endpoint == r.endpoint && x.inbound) = 1))
  | none => false

def imgEndpoint (b : List Byte) (im : Image) : Option ImgRefusal :=
  breach 0x11 ((recsAt b 0x06 endpointAt).map (fun e => (e.1, !e.2.comboOk))
    ++ (recsAt b 0x04 folioClusterAt).flatMap (fun u => repeated (·.endpoint) [] (epsAt b u.2))
    ++ (List.range im.folios.length).flatMap (fun f => match im.folios[f]? with
      | some fr => (usersAt b fr).flatMap fun u => (epsAt b u.2).map fun e => (e.1, !im.epOk f u.2.cluster e.2)
      | none => [])
    ++ (recsAt b 0x07 haloAt).map (fun h => (h.1, !im.isDone h.2.folio h.2.dst h.2.dstEp))
    ++ (recsAt b 0x08 clearingAt).map (fun g => (g.1, g.2.rootEp != 0xFFFF && !im.isDone g.2.folio g.2.root g.2.rootEp))
    ++ (recsAt b 0x09 fabricRecAt).map fun r => (r.1, !im.fabricOk r.2))

/-! ### Cycles (R184) -/

/-- The token edges of a folio: offset of the record, source, destination. -/
def edgesAt (b : List Byte) (im : Image) (f : Nat) : List (Nat × Nat × Nat) :=
  match im.folios[f]? with
  | some fr => (usersAt b fr).flatMap fun u => ((epsAt b u.2).filter fun e =>
      !e.2.recv && e.2.kindCode == 0 && (im.circuitOf f u.2.cluster e.2.endpoint false).isNone).map
      fun e => (e.1, u.2.cluster, e.2.peerCluster)
  | none => []

/-- The clusters reached from a list along edges, in at most `n` rounds. -/
def reached (edges : List (Nat × Nat × Nat)) : Nat → List Nat → List Nat
  | 0, l => l
  | n + 1, l =>
    let new := ((edges.filter fun e => l.contains e.2.1 && !l.contains e.2.2).map (·.2.2)).dedup
    if new.isEmpty then l else reached edges n (l ++ new)

def imgCycle (b : List Byte) (im : Image) : Option ImgRefusal :=
  breach 0x12 ((List.range im.folios.length).flatMap fun f =>
    let edges := edgesAt b im f
    edges.map fun e => (e.1, (reached edges 288 [e.2.2]).contains e.2.1))

/-! ### Windows (R209) -/

def Image.badWindow (im : Image) (o : Nat) (b : List Byte) (w : WindowRec) : Bool :=
  decide (w.window > 255) || w.ops == 0 || decide (rd b (o + 6) 2 < 1) || decide (rd b (o + 6) 2 > 4) || w.key == 0
    || w.offset % 64 != 0 || w.length % 64 != 0 || w.length == 0
    || (match im.objects.find? fun x => x.object == w.object with
      | some x => decide (w.offset + w.length > x.bytes)
      | none => true)
    || (w.ranges.any fun r => decide (r.1 > r.2))
    || (nonzeroIn b (o + 32 + 4 * w.ranges.length) (o + 48)).isSome
    || (w.ops.testBit 1 && im.uses.any fun u => u.object == w.object && u.use == 1)

def imgWindow (b : List Byte) (im : Image) : Option ImgRefusal :=
  breach 0x13 ((recsAt b 0x0B windowRecAt).map (fun e => (e.1, im.badWindow e.1 b e.2))
    ++ repeated (·.window) [] (recsAt b 0x0B windowRecAt))

/-! ### The checks that need the image and the device's keys, policy and licence, in order (R215) -/

def State.imageRefusal (s : State) (c n : Nat) (policy : Bool) (b : List Byte) : Option ImgRefusal :=
  let im := Image.of b c
  let checks : List (Unit → Option ImgRefusal) :=
    [fun _ => imgMagic b, fun _ => imgVersion b, fun _ => imgLengths b n, fun _ => imgSigMagic b, fun _ => imgDigest b,
     fun _ => imgSignature b s.ownerKey policy, fun _ => imgContext b c, fun _ => imgSections b, fun _ => imgReserved b,
     fun _ => imgLicence b s.cxLicensed s.portLicensed s.clearingLicensed, fun _ => imgRange b im,
     fun _ => imgRegion b im, fun _ => imgSegment b im, fun _ => imgDescriptor b im, fun _ => imgStatic b im,
     fun _ => imgEndpoint b im, fun _ => imgCycle b im, fun _ => imgWindow b im]
  checks.findSome? fun f => f ()

end Sys2Proof.Machine
end

