-- ==== Sys2Proof/Machine/Images.lean ====
section
/-! DEFINITION. The commands of the IMG block: LOAD, ACTIVATE, UNLOAD, ABORT and their effect (09_structure_images.md R210,
R214 to R220). -/
namespace Sys2Proof.Machine

open Sys2Proof

def imgLoad := 1
def imgActivate := 2
def imgUnload := 3
def imgAbort := 4

def imgEmpty := 0
def imgLoaded := 1
def imgActive := 2

def State.imgState (s : State) (c : Nat) : Nat := s.fget IMG_CX_STATE.STATE c

def State.setJob (s : State) (j : ImageJob) : State := { s with imageJob := j }

/-- A command ends (R222). -/
def State.imgEnd (s : State) (code off sub : Nat) : State :=
  let s := (((s.setJob .idle).fset IMG_STATUS.BUSY 0 0).fset IMG_STATUS.DONE 0 1).fset IMG_STATUS.CODE 0 code
  (s.fset IMG_DETAIL.OFFSET 0 off).fset IMG_DETAIL_CODE.SUB 0 sub

def State.imgRefuse (s : State) (r : ImgRefusal) : State := s.imgEnd r.code r.off r.sub

def State.imgOk (s : State) : State := s.imgEnd 0 noOffset 0

/-- A command is written while none is in progress: OP and CONTEXT show it (R220). -/
def State.imgBegin (s : State) (op c : Nat) (j : ImageJob) : State :=
  (((s.setJob j).fset IMG_STATUS.OP 0 op).fset IMG_STATUS.CONTEXT 0 c).fset IMG_STATUS.BUSY 0 1

/-- IMG_CTRL is written with an OP other than ABORT: refused while BUSY, with IMG_STATE before step 9 of bring-up (R403), or
for the reason given; else started (R215, R216, R220). -/
def State.imgCommand (s : State) (op c : Nat) (refusal : Option Nat) (j : ImageJob) : State :=
  if s.fon IMG_STATUS.BUSY 0 then s.fset IMG_STATUS.REFUSED 0 1
  else
    let s := s.imgBegin op c j
    match if s.bringUp.done < 9 then some 0x01 else refusal with
    | some code => s.imgEnd code noOffset 0
    | none => s

/-! ### LOAD -/

def State.loadRefusal (s : State) (c : Nat) : Option Nat :=
  if !s.cxLicensed c then some 0x0B else if s.imgState c ≠ imgEmpty then some 0x01 else none

/-- LOAD (R216): what the command alone shows is checked; then the fetch starts. -/
def State.load (s : State) (c : Nat) : State :=
  s.imgCommand imgLoad c (s.loadRefusal c)
    (.fetch c (s.fget IMG_SRC_ADDR.ADDR 0 * 64) (s.fget IMG_SRC_LEN.LENGTH 0) (s.security.policy.testBit 0))

def execLoad (cx : Nat) (s : State) : Host.Outcome State Fault Refusal :=
  onUnit (okCx cx) (s.writeTo .IMG_CTRL 0 fun s => s.load cx)

/-! ### Memory of an image (R210, R274) -/

def pagesFor (bytes : Nat) : Nat := (bytes + 0x1FFFFF) / 0x200000

/-- The page of the context's map where the image store begins: the store lies outside the logical address space. -/
def storePage : Nat := 2 ^ 19

/-- The pages of an image: number, preferred partition, whether another partition may give the frame: the image store as
INTERLEAVE 1, the objects, and the logs of fabric circuits, 320 B for each token of two halves, in the partition of the
port (R312). Their place in the page map is the model's own. -/
def Image.pageList (im : Image) : List (Nat × Nat × Bool) :=
  let store := (List.range (pagesFor im.signedLength)).map fun i => (storePage + i, i % 12, true)
  let objs := im.objects.flatMap fun o => (List.range o.pages).map fun i =>
    (o.base / 0x200000 + i, if o.interleave = 1 then i % 12 else o.home, o.interleave == 1)
  let logs := im.fabric.flatMap fun r => (List.range (pagesFor (640 * (r.cells / 8)))).map fun _ => (r.port / 2)
  store ++ objs ++ logs.zipIdx.map fun e => (storePage + store.length + e.2, e.1, false)

/-- Frames for a list of pages, zero-filled: none if there are too few. -/
def State.allocPages (s : State) (c : Nat) (l : List (Nat × Nat × Bool)) : Option State :=
  l.foldl (fun acc e => acc.bind fun s =>
    (if e.2.2 then s.newFrameFrom e.2.1 else s.newFrame e.2.1).map fun r => (r.2.wipeFrame r.1).setFrame c e.1 r.1) (some s)

/-- The pages of a context are released (R219): a page is zero-filled before it is used again. -/
def State.releasePages (s : State) (c : Nat) : State :=
  let mine := fun (k : Nat) => decide (pageKey c 0 ≤ k) && decide (k < pageKey (c + 1) 0)
  let s := s.forEach (s.memory.pages.filter fun e => mine e.1) fun e s => s.freeFrame e.2
  let s := s.forEach (s.placer.migrations.filter fun m => m.cx == c) fun m s => s.freeFrame m.new
  let s := s.setMem { s.memory with pages := mkeep (fun k => !mine k) s.memory.pages }
  { s with placer := { s.placer with
      migrations := s.placer.migrations.filter fun m => m.cx != c, noRoom := s.placer.noRoom.filter fun e => e.1 != c } }

/-! ### The checks at load (R214, R215) -/

/-- Budget, clusters, memory, placement: what depends on the state of the package. -/
def State.packageRefusal (s : State) (c : Nat) (im : Image) (b : List Byte) : Option ImgRefusal :=
  if !budgetFits (s.budgetOf im) (s.slowest (im.clusters.map (·.cluster))) s.usable then some ⟨0x14, imgCtx b + 4, 0⟩
  else match (imgRecs b 0x02).find? fun o => (s.owner (rd b o 2)).isSome || s.planHolds (rd b o 2) with
    | some o => some ⟨0x15, o, 0⟩
    | none =>
      if (s.allocPages c im.pageList).isNone then some ⟨0x16, imgCtx b + 8, 0⟩
      else match s.placeImage c im with
        | .error e => some ⟨0x17, noOffset, e.2⟩
        | .ok _ => none

/-- The rejection of a folio shows in PLC_STATUS (R158, R247). -/
def State.placeRejected (s : State) (c : Nat) (im : Image) : State :=
  match s.placeImage c im with
  | .error e => s.plcStatus e.1 c 15 e.2
  | .ok _ => s

/-- IMAGE_FETCH_COMPLETE: the image is here, or its read failed or brought poison (R216). -/
def State.fetchComplete (s : State) (ok : Bool) : State :=
  match s.imageJob with
  | .fetch c addr n policy =>
    if !ok then s.imgEnd 0x02 noOffset 0
    else
      let b := s.hostRead addr n
      match s.imageRefusal c n policy b with
      | some r => s.imgRefuse r
      | none =>
        let im := Image.of b c
        match s.packageRefusal c im b with
        | some r => (if r.code = 0x17 then s.placeRejected c im else s).imgRefuse r
        | none => s.setJob (.checked c b)
  | _ => s

def execImageFetchComplete (ok : Bool) (s : State) : Host.Outcome State Fault Refusal := onUnit true (s.fetchComplete ok)

/-! ### The commit of a load (R216 item 3) -/

/-- The image store and the objects receive their contents. -/
def State.fillObjects (s : State) (c : Nat) (im : Image) (b : List Byte) : State :=
  let s := (s.memWrite c (storeAddr 0) (b.take im.signedLength) false).2
  s.forEach (im.objects.filter fun o => o.init == 1) fun o s =>
    (s.memWrite c o.base (rdBytes b (im.dataOffset + o.initOffset) o.initLength) false).2

def State.setDigest (s : State) (c : Nat) (d : List Byte) : State :=
  s.forEach (List.range 8) fun w s => s.fset IMG_CX_DIGEST.DIGEST (8 * c + w) (rd d (4 * w) 4)

/-- The image of a context is LOADED. A measurement of it enters the log (R424). -/
def State.adoptImage (s : State) (c : Nat) (im : Image) (b : List Byte) (p : Plan) : State :=
  let s := s.forEach im.clusters fun r s => s.setOwner r.cluster (some c)
  let s := (s.setCx c { Ctx.init with image := some im }).adopt p
  let s := s.fillObjects c im b
  let s := ((s.fset TLY_CX_BUDGET.CYCLES c im.budget).setDigest c im.digest).syncBudget c
  let s := (s.fset IMG_CX_STATE.CLUSTERS c im.clusters.length).fset IMG_CX_STATE.STATE c imgLoaded
  s.measure 16 c s.tally.count im.digest

/-- Step 7: a checked LOAD is placed again and committed. It waits while a partition that holds one of its clusters is in
reset or fenced (R231), and is refused where a plan accepted since its check has reserved one of them (R373). The budget was
compared at IMAGE_FETCH_COMPLETE: a TLY_PERIOD applied or a clock lowered since then
leads to no second comparison or report here (R37), DESIGN CHOICE, log entry 28. -/
def State.commitLoad (s : State) : State :=
  match s.imageJob with
  | .checked c b =>
    let im := Image.of b c
    if im.clusters.any fun r => (s.cl r.cluster).site.isSome && !s.partReady (s.hostPart r.cluster) then s
    else match (imgRecs b 0x02).find? fun o => s.planHolds (rd b o 2) with
    | some o => s.imgEnd 0x15 o 0
    | none => match s.placeImage c im with
      | .error e => (s.plcStatus e.1 c 15 e.2).imgEnd 0x17 noOffset e.2
      | .ok p =>
        match s.allocPages c im.pageList with
        | none => s.imgEnd 0x16 (imgCtx b + 8) 0
        | some s => (s.adoptImage c im b p).imgOk
  | _ => s

/-! ### ACTIVATE (R217) -/

/-- Frames of a tally (R307). -/
def framesOf (period : Nat) : Nat := (period * 100 - 2128) / 2048

/-- Slots of a frame that an outgoing circuit holds at a port (R307). -/
def State.circuitSlots (s : State) (n circuit : Nat) : Nat :=
  (s.fp n).scur.countP fun e => e.2.testBit 31 && bitsOf e.2 11 0 == circuit

/-- The cells per tally that a binding provides (R310). -/
def State.bindCells (s : State) (k : Nat) : Nat :=
  let cells := s.fget FAB_BIND_B.CELLS k
  if s.fon FAB_BIND_A.DIR k then cells
  else min cells (s.circuitSlots (k / 256) (s.fget FAB_BIND_A.CIRCUIT k) * framesOf s.period)

/-- A fabric circuit record is matched by a binding of the context. -/
def State.fabricBound (s : State) (c : Nat) (r : FabricRec) : Bool :=
  match s.bindingOf r.port r.inbound r.circuit with
  | some k => s.fget FAB_BIND_A.CONTEXT k == c && decide (r.cells ≤ s.bindCells k)
  | none => false

/-- ACTIVATE: state, then fabric circuits. -/
def State.activate (s : State) (c : Nat) : State :=
  let s' := s.imgCommand imgActivate c (if s.imgState c ≠ imgLoaded then some 0x01 else none) (.activate c)
  match s'.imageJob, s.image c with
  | .activate d, some im =>
    if d ≠ c ∨ s.imageJob ≠ .idle then s'
    else match (im.fabric.zipIdx).find? fun e => !s.fabricBound c e.1 with
      | some e => s'.imgEnd 0x18 (im.fabricAt + 32 * e.2) 0
      | none => s'
  | _, _ => s'

def execActivate (cx : Nat) (s : State) : Host.Outcome State Fault Refusal :=
  onUnit (okCx cx) (s.writeTo .IMG_CTRL 0 fun s => s.activate cx)

/-- VLT_REGION of a cluster from its region entries, CURRENT 0. -/
def State.writeRegions (s : State) (L : Nat) (l : List RegionRec) : State :=
  s.forEach (List.range 16) fun i s =>
    let k := 16 * L + i
    let s := s.rset .VLT_REGION k 0
    match l[i]? with
    | some g => ((s.fset VLT_REGION.BASE k g.base).fset VLT_REGION.LENGTH k g.length).fset VLT_REGION.KIND k g.kind
    | none => s

/-- Scratch and carried regions are zero-filled, and so are rings, headers (R253) and what lies behind them, so that no core
reads an earlier context's data (R426): DESIGN CHOICE, log entry 81; constant regions are filled from what backs them, or
zero-filled. The vault of the site holds no test's background any more. -/
def State.initRegions (s : State) (c L : Nat) : State :=
  let zeroed := ((List.range 16).map (s.region L)).filter fun g => g.kind == 1 || g.kind == 2 || g.kind == 4
  let out := fun (a : Nat) => zeroed.all fun g => decide (a < g.base) || decide (g.base + g.span ≤ a)
  let s := s.updCl L fun k => { k with vault := mkeep out k.vault, bad := mkeep (fun g => out (8 * g)) k.bad }
  let s := match (s.cl L).site with
    | some n => s.ungrounded n
    | none => s
  s.fillConstants c L

/-- ACTIVATE_COMPLETE: regions are written, windows and rings open, and the image is ACTIVE. A cluster that is unplaced takes
its contents with it to its next site (R238). -/
def State.activateComplete (s : State) : State :=
  match s.imageJob with
  | .activate c =>
    match s.image c with
    | none => s.imgOk
    | some im =>
      let s := s.updCx c fun x => { x with activatedAt := some s.tally.time }
      let s := s.forEach im.clusters fun r s =>
        (s.writeRegions r.cluster r.regions).initRegions c r.cluster
      let s := s.updRing c fun r => { r with committed := 0 }
      (s.fset IMG_CX_STATE.STATE c imgActive).imgOk
  | _ => s

def execActivateComplete (s : State) : Host.Outcome State Fault Refusal := onUnit true s.activateComplete

/-! ### UNLOAD (R219) -/

def State.unloadAllowed (s : State) (c : Nat) : Bool :=
  s.imgState c == imgLoaded
    || (s.imgState c == imgActive && (s.folState c == folDone || s.folState c == folStopped))

def State.unload (s : State) (cx : Nat) : State :=
  s.imgCommand imgUnload cx (if s.unloadAllowed cx then none else some 0x01) (.unload cx)

def execUnload (cx : Nat) (s : State) : Host.Outcome State Fault Refusal :=
  onUnit (okCx cx) (s.writeTo .IMG_CTRL 0 fun s => s.unload cx)

/-- The clusters of a context are released: nothing of the context runs, waits or is staged there. -/
def State.releaseClusters (s : State) (im : Image) : State :=
  s.forEach im.clusters fun r s =>
    let s := (s.setOwner r.cluster none).writeRegions r.cluster []
    s.updCl r.cluster fun k => { Cluster.init with
      site := k.site, vault := k.vault, bad := k.bad, cores := k.cores.map fun x => { x with run := .idle, wait := none }
      matrix := { Matrix.init with serial := k.matrix.serial } }

/-- The image of a context goes: windows and rings close, clusters and pages are released, the context is EMPTY, and a
submission ring in its memory is disabled (R334). -/
def State.dropImage (s : State) (c : Nat) : State :=
  match s.image c with
  | none => s
  | some im =>
    let s := ((s.sweepMesh c true).leaveBindings c).releaseClusters im
    let s := (s.releasePages c).dropPlan c
    let s := (s.setCx c Ctx.init).rset .FOL_CX_STATE c 0
    let s := ((s.rset .TLY_CX_BUDGET c 0).setDigest c []).rset .IMG_CX_STATE c 0
    let s := (((s.rset .RST_CX_STATUS c 0).rset .HNG_CX_WAIT c 0)).rset .PWR_CX_THROTTLE c (regDefault (regKey .PWR_CX_THROTTLE c))
    if s.fon SUB_CX_SQ.LOC c then s.fset SUB_CX_SQ.ENABLE c 0 else s

/-- Step 7: an accepted UNLOAD takes effect. -/
def State.commitUnload (s : State) : State :=
  match s.imageJob with
  | .unload c => (s.dropImage c).imgOk
  | _ => s

/-! ### ABORT (R220) -/

/-- ABORT stops a LOAD that has not been committed, and has no effect otherwise; before step 9 of bring-up it is refused with
IMG_STATE as every command is (R403). -/
def State.abort (s : State) : State :=
  if s.bringUp.done < 9 then s.imgEnd 0x01 noOffset 0
  else match s.imageJob with
  | .fetch .. => s.imgEnd 0x19 noOffset 0
  | .checked .. => s.imgEnd 0x19 noOffset 0
  | _ => s

def execAbort (s : State) : Host.Outcome State Fault Refusal :=
  onUnit true (s.writeTo .IMG_CTRL 0 State.abort)

/-- IMG_CTRL is written (R220): an OP value that is reserved is refused. -/
def State.imgCtrl (s : State) (op c : Nat) : State :=
  if op = 0 then s
  else if op = imgLoad then s.load c
  else if op = imgActivate then s.activate c
  else if op = imgUnload then s.unload c
  else if op = imgAbort then s.abort
  else s.imgCommand op c (some 0x01) .idle

/-- Step 7 of R33 for the IMG block. -/
def State.commitImages (s : State) : State := s.commitLoad.commitUnload

end Sys2Proof.Machine
end

