-- ==== Sys2Proof/Machine/HostIf.lean ====
section
/-! DEFINITION. The host interface (14_host_interface.md R329 to R343): configuration, the BAR2 aperture, submission and
completion rings, MSI-X, the DOE mailbox, Function Level Reset. -/
namespace Sys2Proof.Machine

open Sys2Proof

def State.setHost (s : State) (h : HostIf) : State := { s with host := h }


/-! ### Configuration (R329, R330, R450) -/

def blockPCI : List Reg := [.PCI_LINK, .PCI_ACCESS_ERR, .PCI_WINDOW]

/-- Every instance of a list of registers returns to its reset value. -/
def State.resetRegs (s : State) (l : List Reg) : State :=
  let out := fun (k : Nat) => match regOfKey k with
    | some r => !l.contains r
    | none => true
  { s with regs := mkeep out s.regs, rwt := mkeep out s.rwt, low := mkeep out s.low }

/-- Configuration space, the MSI-X table and BAR2's size at their reset values (R343). -/
def HostIf.unconfigured (h : HostIf) : HostIf :=
  { h with memorySpace := false, bar2Log := 0, d3 := false, msixOn := false, bars := [], msixAddr := [], msixData := [], msixMask := [],
           msixPending := [] }

def State.pcieOff (s : State) : Bool := s.domain domPcie == .off

/-- PCIE_PERST_N is asserted, which resets PD_PCIE only, or deasserted (R450); PD_PCIE stays off where it is off. READY shows
again what bring-up has declared (R330). -/
def State.perst (s : State) (asserted : Bool) : State :=
  if asserted then
    let s := s.setHost { s.host.unconfigured with
      ready := false, perst := true, doeRequest := none, doeResponse := none, doeError := false }
    (if s.pcieOff then s else s.setDomain domPcie .reset).resetRegs blockPCI
  else
    let s := s.setHost { s.host with perst := false }
    if s.pcieOff then s else (s.setDomain domPcie .on).fbit PCI_LINK.READY 0 (decide (9 ≤ s.bringUp.done))

def execPciePerst (asserted : Bool) (s : State) : Host.Outcome State Fault Refusal := onUnit true (s.perst asserted)

/-- CONFIGURATION_READY: the endpoint's configuration has been loaded from fuses (R330). -/
def State.configReady (s : State) : State :=
  if s.host.perst || !s.up domPcie then s else s.setHost { s.host with ready := true }

def execConfigurationReady (s : State) : Host.Outcome State Fault Refusal := onUnit true s.configReady

/-- Bits [hi:lo] of a word take a value. -/
def putBits (w : Nat) (e : Nat × Nat × Nat) : Nat :=
  w - bitsOf w e.1 e.2.1 * 2 ^ e.2.1 + e.2.2 % 2 ^ (e.1 + 1 - e.2.1) * 2 ^ e.2.1

/-- A 64-bit BAR of `log2` bytes, as its two registers hold it. -/
def HostIf.bar64 (h : HostIf) (i log2 : Nat) : Nat :=
  (mget (fun _ => 0) h.bars i % 2 ^ 32 + 2 ^ 32 * mget (fun _ => 0) h.bars (i + 1)) % 2 ^ 64 / 2 ^ log2 * 2 ^ log2

/-- What R329 and R330 fix of the header, by number of the 32-bit word: Memory Space Enable and the capability list, BAR0
(64-bit, non-prefetchable, 64 MiB), BAR2 (64-bit, prefetchable), no other BAR. The places are those of PCI Express: PRESUMED,
log entry 38. -/
def HostIf.header (h : HostIf) (w : Nat) : Option (List (Nat × Nat × Nat)) :=
  let b0 := h.bar64 0 26
  let b2 := h.bar64 2 (30 + h.bar2Log)
  match w with
  | 1 => some [(20, 20, 1), (1, 1, h.memorySpace.toNat)]
  | 4 => some [(31, 0, b0 + 0b0100)]
  | 5 => some [(31, 0, b0 / 2 ^ 32)]
  | 6 => some [(31, 0, b2 + 0b1100)]
  | 7 => some [(31, 0, b2 / 2 ^ 32)]
  | 8 => some [(31, 0, 0)]
  | 9 => some [(31, 0, 0)]
  | 12 => some [(31, 0, 0)]
  | _ => none

/-- What R329 fixes of word `w` of capability `k`: its identifier; D0 or D3hot; 18 vectors and MSI-X Enable; 512 B payloads,
Function Level Reset, ×16 at 64 GT/s; 1 GiB to 1 TiB for BAR2 and its size. PRESUMED, log entry 38. -/
def HostIf.capability (h : HostIf) (k w : Nat) : List (Nat × Nat × Nat) :=
  match k, w with
  | 0, 0 => [(7, 0, 0x01)]
  | 0, 1 => [(1, 0, if h.d3 then 3 else 0)]
  | 1, 0 => [(31, 31, h.msixOn.toNat), (26, 16, 17), (7, 0, 0x11)]
  | 2, 0 => [(23, 20, 0), (7, 0, 0x10)]
  | 2, 1 => [(28, 28, 1), (2, 0, 2)]
  | 2, 3 => [(9, 4, 16), (3, 0, 6)]
  | 3, 0 => [(15, 0, 0x0001)]
  | 4, 0 => [(15, 0, 0x0003)]
  | 5, 0 => [(15, 0, 0x0015)]
  | 5, 1 => [(31, 4, 0x7FF * 2 ^ 10)]
  | 5, 2 => [(13, 8, 10 + h.bar2Log), (7, 5, 1), (2, 0, 2)]
  | 6, 0 => [(15, 0, 0x002E)]
  | _, _ => []

/-- A word of configuration space: what the spec fixes of it, over bits that are left open. -/
def HostIf.configWord (h : HostIf) (off : Nat) : Nat :=
  let a := off / 4 * 4
  let l := match h.header (a / 4) with
    | some l => l
    | none => match (List.range 7).find? fun k => decide (Config.capAt k ≤ a) && decide (a < Config.capAt k + 16) with
      | some k => h.capability k ((a - Config.capAt k) / 4)
      | none => []
  l.foldl putBits (Config.configSpace a).toNat

/-- A configuration request (R330). -/
def State.configRequest (s : State) (r : ConfigRequest) : State :=
  if s.host.perst || !s.up domPcie then s
  else if !s.host.ready then s.emit .retryStatus
  else match r with
    | .memorySpace on => s.setHost { s.host with memorySpace := on }
    | .resizeBar2 n => if s.host.memorySpace || decide (n > 10) then s else s.setHost { s.host with bar2Log := n }
    | .powerState d3 => s.setHost { s.host with d3 := d3 }
    | .msixEnable on => s.setHost { s.host with msixOn := on }
    | .bar i a => if i < 4 then s.setHost { s.host with bars := mput (fun _ => 0) s.host.bars i (a % 2 ^ 32) } else s
    | .read off => s.emit (.readData (leBytes 4 (s.host.configWord off)) 0)

def execConfigurationRequest (req : ConfigRequest) (s : State) : Host.Outcome State Fault Refusal :=
  onUnit true (s.configRequest req)

/-! ### The aperture (R332) -/

def rdOk := 0
def rdUnsupported := 1
def rdAbort := 2
def rdPoisoned := 3

/-- The size of a window: a sixteenth of BAR2, of 1 GiB and up. -/
def State.windowSize (s : State) : Nat := 2 ^ (30 + s.host.bar2Log) / 16

/-- The context and logical address that a range of BAR2 reaches; none where the request is unsupported. It is translated page
by page: the range may cross from one memory object to the next (R275). -/
def State.aperture (s : State) (off n : Nat) : Option (Nat × Nat) :=
  let w := s.windowSize
  let c := off / w
  let a := s.fget PCI_WINDOW.BASE c * 2 ^ 26 / w * w + off % w
  if s.barsOn && s.fon PCI_LINK.READY 0 && decide (c < 16) && decide (off % w + n ≤ w) && s.fon PCI_WINDOW.ENABLE c
      && s.cxLicensed c && decide (s.imgState c ≠ imgEmpty) && ((blockPieces a n).all fun e => (s.objectOf c e.1 e.2).isSome) then some (c, a) else none

/-- A block takes no write of the PCIe endpoint: its partition is fenced, in reset or beyond reach, or its channel has
FAILED (R24, R152, R154). -/
def State.blockLost (s : State) (c a : Nat) : Bool :=
  match s.place c a with
  | some (p, ch, _, _) => (s.askRefusal .pcie (.channel p ch)).isSome || !s.working p ch
  | none => true

/-- Nor does a read bring data where the answer cannot come back. -/
def State.blockDumb (s : State) (c a : Nat) : Bool := s.blockLost c a || (s.memRefusal .pcie c a).isSome

def State.rangeLost (s : State) (c a n : Nat) : Bool := (blockPieces a n).any fun pc => s.blockLost c pc.1

def State.rangeDumb (s : State) (c a n : Nat) : Bool := (blockPieces a n).any fun pc => s.blockDumb c pc.1

/-- While the platform of CD0 is in reset every memory request is completed with Completer Abort, and counted (R331). -/
def State.aborting (s : State) : Bool := s.barsOn && !s.up (domPlat 0)

def State.apertureRead (s : State) (off n : Nat) : State :=
  if s.aborting then (s.finc PCI_ACCESS_ERR.FENCED 0).emit (.readData [] rdAbort)
  else match s.aperture off n with
  | none => (s.finc PCI_ACCESS_ERR.UR 0).emit (.readData [] rdUnsupported)
  | some (c, a) =>
    if s.rangeDumb c a n then (s.finc PCI_ACCESS_ERR.FENCED 0).emit (.readData [] rdAbort)
    else
      let (r, s) := s.memRead c a n true
      if r.poison then (s.finc PCI_ACCESS_ERR.POISON 0).emit (.readData r.bytes rdPoisoned)
      else s.emit (.readData r.bytes rdOk)

def execApertureRead (offset length : Nat) (s : State) : Host.Outcome State Fault Refusal :=
  onUnit true (s.apertureRead offset length)

def State.apertureWrite (s : State) (off : Nat) (data : List Byte) : State :=
  if s.aborting then s.finc PCI_ACCESS_ERR.FENCED 0
  else match s.aperture off data.length with
  | none => s.finc PCI_ACCESS_ERR.UR 0
  | some (c, a) =>
    if s.rangeLost c a data.length then s.finc PCI_ACCESS_ERR.FENCED 0 else (s.memWrite c a data false).2

def execApertureWrite (offset : Nat) (data : List Byte) (s : State) : Host.Outcome State Fault Refusal :=
  onUnit true (s.apertureWrite offset data)

/-! ### Submission records (R335, R336) -/

def Command.word (c : Command) (i : Nat) : Nat := rd c.bytes (4 * i) 4
def Command.op (c : Command) : Nat := bitsOf (c.word 0) 7 4
def Command.order (c : Command) : Bool := (c.word 0).testBit 1
def Command.tag (c : Command) : Nat := bitsOf (c.word 0) 31 16
def Command.arg (c : Command) : Nat := c.word 1
def Command.host (c : Command) : Nat := rd c.bytes 8 8
def Command.dev (c : Command) : Nat := rd c.bytes 16 8

def opNop := 1
def opCopyIn := 2
def opCopyOut := 3
def opMsg := 4
def opNext := 5
def opStop := 6
def opResume := 7

/-- A command that acts at a boundary. -/
def Command.atBoundary (c : Command) : Bool := decide (4 ≤ c.op) && decide (c.op ≤ 7)
def Command.reservedOp (c : Command) : Bool := c.op == 0 || decide (c.op > 7)
def Command.isCopy (c : Command) : Bool := c.op == opCopyIn || c.op == opCopyOut

def stCmdOp := 0x20
def stCmdAlign := 0x21
def stCmdRange := 0x22
def stCmdState := 0x23
def stCmdPoison := 0x24
def stCmdFenced := 0x25

/-- Words that hold a field which the operation does not use, or reserved bits, and are not 0: the first. -/
def Command.badWord (c : Command) : Option Nat :=
  let op := c.op
  let none4 := op == opNop || op == opNext || op == opStop || op == opResume
  let bad : List (Nat × Bool) :=
    [(0, c.reservedOp || bitsOf (c.word 0) 3 2 != 0 || bitsOf (c.word 0) 15 8 != 0),
     (1, ((op == opNop || op == opStop || op == opResume) && c.arg != 0) || (op == opNext && bitsOf c.arg 31 12 != 0)),
     (2, none4 && c.word 2 != 0), (3, none4 && c.word 3 != 0),
     (4, (none4 || op == opMsg) && c.word 4 != 0), (5, (none4 || op == opMsg) && c.word 5 != 0)]
      ++ ((List.range 10).map fun i => (6 + i, c.word (6 + i) != 0))
  (bad.find? (·.2)).map (·.1)

/-- Alignments and lengths of the record table: the word of the first that is broken. -/
def Command.badAlign (c : Command) : Option Nat :=
  if c.isCopy then
    if c.arg % 64 ≠ 0 ∨ c.arg < 64 ∨ c.arg > 2 ^ 31 then some 1
    else if c.host % 64 ≠ 0 then some 2 else if c.dev % 64 ≠ 0 then some 4 else none
  else if c.op = opMsg then
    if c.arg % 32 ≠ 0 ∨ c.arg < 32 ∨ c.arg > 256 then some 1 else if c.host % 64 ≠ 0 then some 2 else none
  else none

/-- The status and word with which a command is refused as it arrives, in ascending order of the codes. -/
def State.cmdRefusal (s : State) (cx : Nat) (c : Command) : Option (Nat × Nat) :=
  match c.badWord, c.badAlign with
  | some w, _ => some (stCmdOp, w)
  | none, some w => some (stCmdAlign, w)
  | none, none => if c.isCopy && (s.objectOf cx c.dev c.arg).isNone then some (stCmdRange, 4) else none

/-! ### Finishing a command -/

/-- Command `i` of a ring's queue finishes: its completion record is due at the next step 11 (R339). -/
def State.finishCmd (s : State) (cx i status detail : Nat) : State :=
  s.updRing cx fun r =>
    match r.queue[i]? with
    | some c => { r with queue := r.queue.eraseIdx i
                         due := r.due ++ [⟨0, status, c.tag, 0, 0, detail⟩] }
    | none => r

/-- The place of the next command that starts as it arrives: the first of its kind that has not started (R336). -/
def Rings.nextInTally (r : Rings) : Option (Nat × Command) :=
  (r.queue.findIdx? fun c => !c.atBoundary && !c.started).bind fun i => (r.queue[i]?).map fun c => (i, c)

/-- The place of the next boundary command that has not been taken over. -/
def Rings.nextBoundary (r : Rings) : Option (Nat × Command) :=
  (r.queue.findIdx? fun c => c.atBoundary && !c.started).bind fun i => (r.queue[i]?).map fun c => (i, c)

/-- ORDER 1 waits for every earlier command of the ring. -/
def Command.waits (c : Command) (i : Nat) : Bool := c.order && i != 0

def markStarted (i : Nat) (r : Rings) : Rings := { r with queue := r.queue.modify i fun c => { c with started := true } }

/-- Records with a reserved OP are refused as they arrive, in ring order. -/
def State.refuseReserved (s : State) (cx : Nat) : Nat → State
  | 0 => s
  | n + 1 =>
    match (s.ring cx).nextInTally with
    | some (i, c) => if c.reservedOp && !c.waits i then (s.finishCmd cx i stCmdOp 0).refuseReserved cx n else s
    | none => s

def State.sweepReserved (s : State) (cx : Nat) : State := s.refuseReserved cx (s.ring cx).queue.length

/-- The next command of a ring that acts on arrival, if it is an `op`: it is refused, or `start` says what it does. -/
def State.startCmd (s : State) (cx op : Nat) (start : Nat → State → State) : State :=
  match (s.ring cx).nextInTally with
  | some (i, c) =>
    if c.op ≠ op ∨ c.waits i then s
    else (match s.cmdRefusal cx c with
      | some (st, w) => s.finishCmd cx i st w
      | none => start i s).sweepReserved cx
  | none => s

/-- NOP completes. -/
def State.nop (s : State) (cx : Nat) : State := s.startCmd cx opNop fun i s => s.finishCmd cx i 0 0

def execNop (cx : Nat) (s : State) : Host.Outcome State Fault Refusal := onUnit (okCx cx) (s.nop cx)

/-- A copy starts; its bytes move when it completes: DESIGN CHOICE. -/
def State.startCopy (s : State) (cx op : Nat) : State := s.startCmd cx op fun i s => s.updRing cx (markStarted i)

def execCopyIn (cx : Nat) (s : State) : Host.Outcome State Fault Refusal := onUnit (okCx cx) (s.startCopy cx opCopyIn)

def execCopyOut (cx : Nat) (s : State) : Host.Outcome State Fault Refusal := onUnit (okCx cx) (s.startCopy cx opCopyOut)

/-- The blocks of a copy: whether any met a fence or a FAILED channel, whether any was poisoned (R263, R336). A block that the
host holds as poisoned data is stored poisoned, and the command completes as for one read from context memory: DEDUCED, log
entry 39. -/
def State.copyBlocks (s : State) (cx : Nat) (c : Command) : Bool × Bool × State :=
  (List.range (c.arg / 64)).foldl (fun acc i =>
    let (lost, bad, s) := acc
    let a := c.dev + 64 * i
    let h := c.host + 64 * i
    if s.blockLost cx a then (true, bad, s)
    else if c.op = opCopyIn then
      let p := s.hostPoisoned h 64
      let (f, s) := s.memWrite cx a (s.hostRead h 64) p
      (lost || f, bad || p, s)
    else
      let (r, s) := s.memRead cx a 64 true
      (lost || r.fenced, bad || r.poison, s.hostPut h r.bytes r.poison)) (false, false, s)

/-- COPY_COMPLETE: the `k`-th copy in progress of the ring finishes. -/
def State.copyEnds (s : State) (cx k : Nat) : State :=
  match ((s.ring cx).queue.zipIdx.filter fun e => e.1.isCopy && e.1.started)[k]? with
  | some (c, i) =>
    if (s.objectOf cx c.dev c.arg).isNone then (s.finishCmd cx i stCmdRange 4).sweepReserved cx
    else
      let (lost, bad, s) := s.copyBlocks cx c
      (s.finishCmd cx i (if lost then stCmdFenced else if bad then stCmdPoison else 0) 0).sweepReserved cx
  | none => s

def execCopyComplete (cx index : Nat) (s : State) : Host.Outcome State Fault Refusal :=
  onUnit (okCx cx) (s.copyEnds cx index)

/-! ### Commands that act at a boundary (R336 to R338) -/

/-- The next boundary command of a ring, if it is an `op`, is taken over to act at its step of the next boundary, or is
refused. -/
def State.takeOver (s : State) (cx op : Nat) : State :=
  match (s.ring cx).nextBoundary with
  | some (i, c) =>
    if c.op ≠ op ∨ c.waits i then s
    else match s.cmdRefusal cx c with
      | some (st, w) => (s.finishCmd cx i st w).sweepReserved cx
      | none => s.updRing cx (markStarted i)
  | none => s

def execMsg (cx : Nat) (s : State) : Host.Outcome State Fault Refusal := onUnit (okCx cx) (s.takeOver cx opMsg)

def execNext (cx : Nat) (s : State) : Host.Outcome State Fault Refusal := onUnit (okCx cx) (s.takeOver cx opNext)

def execStop (cx : Nat) (s : State) : Host.Outcome State Fault Refusal := onUnit (okCx cx) (s.takeOver cx opStop)

def execResume (cx : Nat) (s : State) : Host.Outcome State Fault Refusal := onUnit (okCx cx) (s.takeOver cx opResume)

/-- At a boundary every boundary command fetched at an earlier poll has arrived; one with ORDER 1 whose earlier commands have
all finished, at this boundary or before it, acts with the others (R336). -/
def State.takeOverAll (s : State) (cx : Nat) : Nat → State
  | 0 => s
  | n + 1 =>
    match (s.ring cx).nextBoundary with
    | some (_, c) => if c.boundary ≤ s.tally.passed then (s.takeOver cx c.op).takeOverAll cx n else s
    | none => s

def State.arrive (s : State) (cx : Nat) : State := s.takeOverAll cx (s.ring cx).queue.length

/-- The boundary command that is next to act, in ring order. -/
def State.leading (s : State) (cx : Nat) : Option (Nat × Command) :=
  ((s.ring cx).queue.findIdx? fun c => c.atBoundary).bind fun i =>
    ((s.ring cx).queue[i]?).bind fun c => if c.started then some (i, c) else none

def State.leadingIs (s : State) (cx op : Nat) : Bool :=
  match s.leading cx with
  | some (_, c) => c.op == op
  | none => false

def State.imageActive (s : State) (cx : Nat) : Bool := s.imgState cx == imgActive

/-- Boundary commands that lead the queue and are an `op` act in turn; `act` gives status and DETAIL, or none to wait. -/
def State.actLeading (s : State) (cx op : Nat) (act : Command → State → Option (Nat × Nat) × State) : Nat → State
  | 0 => s
  | n + 1 =>
    let s := s.arrive cx
    match s.leading cx with
    | some (i, c) =>
      if c.op ≠ op then s
      else if !s.imageActive cx then (s.finishCmd cx i stCmdState 0).actLeading cx op act n
      else match act c s with
        | (some (st, d), s) => ((s.finishCmd cx i st d).sweepReserved cx).actLeading cx op act n
        | (none, s) => s
    | none => s

/-- A host message is placed in the ring that its head names, committed at once (R337). Where the ring's cluster cannot
be reached (R380), it waits as for space: DESIGN CHOICE. -/
def placeHostMsg (cx : Nat) (c : Command) (s : State) : Option (Nat × Nat) × State :=
  let m := s.hostRead c.host c.arg
  if msgMailbox m || msgBytes m != c.arg then (some (0x28, 2), s)
  else match s.msgRefusal cx 0 m, s.ringRec cx (msgDest m) with
    | some _, _ => (some (0x28, 2), s)
    | none, none => (some (0x28, 2), s)
    | none, some r =>
      let L := r.cluster
      let g := s.region L r.region
      let D := g.length - 64
      let later := (none, s.updRing cx fun q => { q with msgWaits := true })
      if (s.askRefusal .pcie (.cluster L 1)).isSome then later else
      let s := s.readHdr L g.base
      let epoch := bitsOf (s.hdr L g.base ringEpoch) 7 0
      let dropped := s.setHdr L g.base ringDropped (s.hdr L g.base ringDropped + 1)
      if s.hdr L g.base ringClosedCmt ≠ 0 then (some (0x26, epoch), dropped)
      else if msgEpoch m ≠ epoch then (some (0x27, epoch), dropped)
      else match s.allocate L g.base D m 511 with
        | some s => (some (0, epoch), s.setHdr L g.base ringCmtTail (s.hdr L g.base ringPubTail))
        | none => (none, s.updRing cx fun q => { q with msgWaits := true })

/-- Step 4 for host messages. -/
def State.placeMsgs (s : State) (cx : Nat) : State :=
  let s := s.updRing cx fun q => { q with msgWaits := false }
  s.actLeading cx opMsg (placeHostMsg cx) (s.ring cx).queue.length

/-- Step 5 for NEXT: as a write of FOL_CX_NEXT with VALID 1 (R172, R173). -/
def State.actNext (s : State) (cx : Nat) : State :=
  s.actLeading cx opNext (fun c s =>
    let f := bitsOf c.arg 11 0
    (some (if s.folioKnown cx f then (0, 0) else (stCmdState, 1)), s.applyNext cx (BitVec.ofNat 64 (2 ^ 31 + f))))
    (s.ring cx).queue.length

/-! ### Completion (R339) -/

def State.compBytes (s : State) (cx : Nat) (r : CompRec) (phase : Bool) : List Byte :=
  leBytes 4 (phase.toNat + 2 * r.type + 2 ^ 8 * r.status + 2 ^ 16 * r.tag)
    ++ leBytes 4 (s.fget SUB_CX_STATE.SQ_HEAD cx + 2 ^ 16 * r.folio + 2 ^ 28 * cx)
    ++ leBytes 8 s.tally.count ++ leBytes 8 r.committed ++ leBytes 4 r.detail ++ leBytes 4 0

/-- A record written at the tail of a completion ring; none where there is no free entry, or no ring. -/
def State.writeComp (s : State) (cx : Nat) (r : CompRec) : Option State :=
  let size := s.fget SUB_CX_CQ.SIZE cx
  let n := ringEntries size
  let tail := s.fget SUB_CX_STATE.CQ_TAIL cx
  if !s.fon SUB_CX_CQ.ENABLE cx || decide (size > 12) || !s.up domPcie || (tail + 1) % n == s.fget SUB_CX_CQ_HEAD.HEAD cx then none
  else
    let s := s.hostWrite (64 * s.fget SUB_CX_CQ.ADDR cx + 32 * tail) (s.compBytes cx r (s.ring cx).cqPhase)
    let s := s.updRing cx fun q => { q with cqPhase := if tail + 1 = n then !q.cqPhase else q.cqPhase }
    let s := s.fset SUB_CX_STATE.CQ_TAIL cx ((tail + 1) % n)
    some (s.setHost { s.host with gotRecord := mput noFlag s.host.gotRecord (1 + cx) true })

/-- Records go out in order; the first that cannot be written, and all behind it, are held. Beyond 64 held, a segment
record is dropped (R339). -/
def State.writeComps (s : State) (cx : Nat) : List (Bool × CompRec) → State
  | [] => s
  | (old, r) :: t =>
    let blocked := !(s.ring cx).held.isEmpty
    match (if blocked then none else s.writeComp cx r) with
    | some s => s.writeComps cx t
    | none =>
      if !old && r.type == 1 && decide ((s.ring cx).held.length ≥ 64) then (s.finc SUB_CX_LOST.LOST cx).writeComps cx t
      else (s.updRing cx fun q => { q with held := q.held ++ [r] }).writeComps cx t

/-- Step 11 for the completion ring of a context. A record carries the FOLIO and COMMITTED of the boundary that made it. -/
def State.completions (s : State) (cx : Nat) : State :=
  let q := s.ring cx
  let f := s.activeFolio cx
  let made := (if q.segDone && s.fon SUB_CX_CQ.SEG_RECORDS cx then [(⟨1, 0, 0, f, q.committed, 0⟩ : CompRec)] else [])
    ++ (q.conditions.map fun st => ⟨2, st, 0, f, q.committed, 0⟩)
    ++ q.due.map fun r => { r with folio := f, committed := q.committed }
  let s := s.updRing cx fun q => { q with segDone := false, conditions := [], due := [], held := [] }
  let s := s.writeComps cx (q.held.map (fun r => (true, r)) ++ made.map fun r => (false, r))
  s.fset SUB_CX_LOST.HELD cx (min 64 (s.ring cx).held.length)

/-! ### MSI-X (R340) -/

def allMasked : Nat → Bool := fun _ => true
def noAddr : Nat → Nat := fun _ => 0

/-- A vector sends its message; a masked one sets its pending bit. -/
def State.sendVector (s : State) (v : Nat) : State :=
  if !s.host.msixOn || s.host.d3 || !s.up domPcie then s
  else if mget allMasked s.host.msixMask v then
    s.setHost { s.host with msixPending := mput noFlag s.host.msixPending v true }
  else s.emit (.msix (mget noAddr s.host.msixAddr v) (mget noAddr s.host.msixData v))

/-- INT of a vector's ring. -/
def State.vectorInt (s : State) (v : Nat) : Bool :=
  if v = 0 then s.fon SUB_ERR_RING.INT 0 else if v = 17 then true else s.fon SUB_CX_CQ_HEAD.INT (v - 1)

def State.vectorDue (s : State) (v : Nat) : Bool :=
  mget noFlag s.host.gotRecord v && s.vectorInt v && (match mget (fun _ => none) s.host.lastMessage v with
    | some t => decide (t + max 1 (s.fget SUB_POLL.COALESCE 0) ≤ s.tally.passed)
    | none => true)

/-- An overload that was signalled sends a message on vector 0 beside its records' (R341). -/
def State.messages (s : State) : State :=
  let due := fun (v : Nat) => s.vectorDue v || (v == 0 && s.host.overloadMessage)
  let s := s.forEach ((List.range 18).filter due) fun v s =>
    s.sendVector v |>.setHost { (s.sendVector v).host with
      gotRecord := mput noFlag s.host.gotRecord v false
      lastMessage := mput (fun _ => none) s.host.lastMessage v (some s.tally.passed) }
  s.setHost { s.host with overloadMessage := false }

/-! ### The poll (R335, R341) -/

/-- The 64 bytes of record `i` of a submission ring; none where they cannot be read. -/
def State.sqRecord (s : State) (cx i : Nat) : Option (List Byte) × State :=
  let a := 64 * s.fget SUB_CX_SQ.ADDR cx
  let n := ringEntries (s.fget SUB_CX_SQ.SIZE cx)
  if s.fget SUB_CX_SQ.LOC cx = 0 then (some (s.hostRead (a + 64 * i) 64), s)
  else if (s.objectOf cx a (64 * n)).isNone then (none, s)
  else if s.blockLost cx (a + 64 * i) then (none, s)
  else
    let (r, s) := s.memRead cx (a + 64 * i) 64 false
    (if r.poison || r.fenced then none else some r.bytes, s)

/-- Fetching pauses (R336). -/
def Rings.paused (r : Rings) : Bool :=
  decide ((r.queue.countP Command.isCopy) ≥ 64) || r.msgWaits || decide (r.held.length ≥ 64)

/-- At most `n` records are fetched; whether a record that matches is left. -/
def State.fetchRecords (s : State) (cx : Nat) : Nat → Bool × State
  | 0 =>
    let (r, s) := s.sqRecord cx (s.fget SUB_CX_STATE.SQ_HEAD cx)
    (match r with
      | some b => (rd b 0 1).testBit 0 == (s.ring cx).sqPhase
      | none => false, s)
  | k + 1 =>
    let i := s.fget SUB_CX_STATE.SQ_HEAD cx
    let (r, s) := s.sqRecord cx i
    match r with
    | none => (false, s)
    | some b =>
      if (rd b 0 1).testBit 0 != (s.ring cx).sqPhase then (false, s)
      else if (s.ring cx).paused then (true, s)
      else
        let wrap := i + 1 = ringEntries (s.fget SUB_CX_SQ.SIZE cx)
        let s := s.updRing cx fun q => { q with
          queue := q.queue ++ [⟨b, s.tally.passed, false⟩], sqPhase := if wrap then !q.sqPhase else q.sqPhase }
        (s.fset SUB_CX_STATE.SQ_HEAD cx (if wrap then 0 else i + 1)).fetchRecords cx k

/-- A ring has been backlogged at SUB_POLL.OVERLOAD polls in a row (R341). -/
def State.overloadDue (s : State) (cx : Nat) : Bool :=
  let r := s.ring cx
  let n := s.fget SUB_POLL.OVERLOAD 0
  decide (n ≠ 0) && decide (r.backlogged ≥ n) && !r.overloaded

/-- OVERLOAD (R341): its bit is set, and a message is sent at the next step 11, once for each onset. -/
def State.overload (s : State) (cx : Nat) : State :=
  if s.overloadDue cx then
    let s := s.updRing cx fun r => { r with overloaded := true }
    let s := s.fset SUB_OVERLOAD.CONTEXTS 0 (s.fget SUB_OVERLOAD.CONTEXTS 0 ||| 2 ^ cx)
    s.setHost { s.host with overloadMessage := true }
  else s

def execOverload (cx : Nat) (s : State) : Host.Outcome State Fault Refusal := onUnit (okCx cx) (s.overload cx)

/-- A ring is polled (R335): it is in service once the device is ready. A ring in context memory goes with its image. -/
def State.poll (s : State) (cx : Nat) : State :=
  if !s.fon SUB_CX_SQ.ENABLE cx || decide (s.fget SUB_CX_SQ.SIZE cx > 12) || !s.fon PCI_LINK.READY 0 || !s.cxLicensed cx
      || !s.up domPcie then s
  else
    let (left, s) := s.fetchRecords cx (max 1 (s.fget SUB_POLL.FETCH 0))
    let s := s.sweepReserved cx
    if left || (s.ring cx).msgWaits then s.updRing cx fun r => { r with backlogged := r.backlogged + 1 }
    else s.updRing cx fun r => { r with backlogged := 0, overloaded := false }

/-- Contexts in the order of R232. -/
def State.rotating (s : State) : List Nat := (List.range 16).map fun k => (s.tally.count + k) % 16

def State.pollAll (s : State) : State := s.forEach s.rotating fun c s => s.poll c

/-- ENABLE of a ring changes from 0 to 1 (R334). -/
def State.enableSq (s : State) (cx : Nat) : State :=
  (s.fset SUB_CX_STATE.SQ_HEAD cx 0).updRing cx fun r => { r with sqPhase := true, backlogged := 0, overloaded := false }

def State.enableCq (s : State) (cx : Nat) : State :=
  (s.fset SUB_CX_STATE.CQ_TAIL cx 0).updRing cx fun r => { r with cqPhase := true }

def State.enableErr (s : State) : State := (s.fset SUB_ERR_HEAD.TAIL 0 0).setHost { s.host with errPhase := true }

/-! ### DOE (R342) -/

/-- DOE Discovery: index 0 is discovery itself, index 1 the vendor-defined type. -/
def doeDiscovery (index : Nat) : List Byte :=
  doeObject 1 0 (if index = 0 then leBytes 2 1 ++ [0] ++ leBytes 1 1
    else if index = 1 then leBytes 2 Config.doeVendor.toNat ++ leBytes 1 Config.doeType.toNat ++ [0] else leBytes 2 0xFFFF ++ [0, 0])

/-- A data object arrives: discovery, an attestation request, or an error. -/
def State.doeRequest (s : State) (b : List Byte) : State :=
  if !s.host.ready || s.host.doeRequest.isSome then s
  else
    let s := s.setHost { s.host with doeRequest := some b, doeResponse := none, doeError := false }
    let bad := s.setHost { s.host with doeRequest := none, doeError := true }
    let vendor := rd b 0 2
    let type := rd b 2 1
    let body := b.drop 8
    if b.length > 4096 ∨ b.length < 12 ∨ 4 * (rd b 4 4 % 2 ^ 18) ≠ b.length then bad
    else if vendor = 1 ∧ type = 0 then s.doeRespond (doeDiscovery (rd body 0 1))
    else if vendor = Config.doeVendor.toNat ∧ type = Config.doeType.toNat then
      if s.lifeCommand then s.attAnswer .doe 0 1 []
      else if rd body 4 4 ≠ 0 then s.attAnswer .doe 0 5 []
      else match rd body 0 4 with
        | 1 => s.attestReport (body.drop 8) .doe 0
        | 2 => if body.length = 8 then s.attestKey .doe 0 else s.attAnswer .doe 0 5 []
        | 3 => if body.length = 8 then s.attestLog .doe 0 else s.attAnswer .doe 0 5 []
        | _ => s.attAnswer .doe 0 5 []
    else bad

def execDoeRequest (request : List Byte) (s : State) : Host.Outcome State Fault Refusal :=
  onUnit true (s.doeRequest request)

/-- DOE_ABORT: the exchange in progress is discarded, and with it a request that waits for its report. -/
def State.doeAbort (s : State) : State :=
  if s.host.ready then
    (s.setHost { s.host with doeRequest := none, doeResponse := none, doeError := false }).setSec
      { s.security with waiting := s.security.waiting.filter fun e => e.source != .doe }
  else s

def execDoeAbort (s : State) : Host.Outcome State Fault Refusal := onUnit true s.doeAbort

/-! ### Function Level Reset (R343) -/

/-- A write to an RWT register waits for its boundary (R8). -/
def State.putRwt (s : State) (r : Reg) (i : Nat) (v : Option DWord) : State :=
  { s with rwt := mput (fun _ => none) s.rwt (regKey r i) v }

/-- A write that waits does not enable its ring any more. -/
def State.dropEnable (s : State) (r : Reg) (i : Nat) : State :=
  match mget (fun _ => none) s.rwt (regKey r i) with
  | some v => s.putRwt r i (some (v &&& ~~~1))
  | none => s

/-- FLR: configuration, rings and windows go; copies are abandoned; active contexts stop at the next boundary. -/
def State.functionReset (s : State) : State :=
  if !s.host.ready then s
  else
    let s := s.setHost s.host.unconfigured
    let s := (s.fset SUB_ERR_RING.ENABLE 0 0).dropEnable .SUB_ERR_RING 0
    s.forEach contexts fun c s =>
      let s := (((s.fset SUB_CX_SQ.ENABLE c 0).fset SUB_CX_CQ.ENABLE c 0).fset PCI_WINDOW.ENABLE c 0)
      let s := (s.dropEnable .SUB_CX_SQ c).dropEnable .SUB_CX_CQ c
      let s := s.updRing c fun r => { r with queue := r.queue.filter fun k => !k.isCopy }
      if s.imageActive c then s.updCx c fun x => { x with hostReset := true } else s

def execFunctionLevelReset (s : State) : Host.Outcome State Fault Refusal := onUnit true s.functionReset

end Sys2Proof.Machine
end

