-- ==== Sys2Proof/Machine/Domains.lean ====
section
/-! DEFINITION. What a power domain loses and keeps when it is reset, switched off or comes back: self-refresh (R282,
R283), the vaults of a partition (R143), its cores and engines, the registers of a domain (R11, R22). -/
namespace Sys2Proof.Machine

open Sys2Proof

/-- Clusters whose site lies in a partition, lent ones included. -/
def State.clustersOn (s : State) (p : Nat) : List Nat :=
  allClusters.filter fun L => match (s.cl L).site with
    | some n => partOfSite n == p
    | none => false

/-- Contexts that have reserved a cluster on a site of a partition (R345, R382). -/
def State.contextsAt (s : State) (p : Nat) : List Nat :=
  contexts.filter fun c => (s.clustersOf c).any fun L => (s.clustersOn p).contains L

/-- The clusters that a reset of a partition resets: those on its sites, and its own that are lent out (R234). -/
def State.resetClusters (s : State) (p : Nat) : List Nat :=
  allClusters.filter fun L => match (s.cl L).site with
    | some n => partOfSite n == p || partOf L == p
    | none => false

/-- Contexts that are active on a partition for its resets: they have reserved a cluster on a site of it, or one of its own
that is lent out (R234, R382). -/
def State.suspectsAt (s : State) (p : Nat) : List Nat :=
  contexts.filter fun c => (s.clustersOf c).any fun L => (s.resetClusters p).contains L

/-- Registers that satisfy `p` by name and instance return to their reset values. -/
def State.dropRegs (s : State) (p : Reg → Nat → Bool) : State :=
  let out := fun (k : Nat) => match regOfKey k with
    | some r => !p r (k % 2 ^ 20)
    | none => true
  { s with regs := mkeep out s.regs, rwt := mkeep out s.rwt, low := mkeep out s.low }

/-! ### Memory (R282, R283) -/

/-- The controllers of a partition stop: requests are answered under R152, and every channel is in self-refresh. -/
def State.memStop (s : State) (p : Nat) : State :=
  if s.up (domMem p) then
    let on := ((List.range 32).filter fun ch => s.working p ch).map fun ch => (chKey p ch, true)
    (s.setMem { s.memory with selfRefresh := mputs noBool s.memory.selfRefresh on }).fset MEM_STATUS.SR p 2
  else s

/-- The channels of a partition are on their way into self-refresh. -/
def State.memEnter (s : State) (p : Nat) : State := if s.up (domMem p) then (s.memStop p).fset MEM_STATUS.SR p 1 else s

/-- A channel leaves self-refresh. -/
def State.leaveRefresh (s : State) (p ch : Nat) : State :=
  let k := chKey p ch
  s.setMem { s.memory with
    selfRefresh := mput noBool s.memory.selfRefresh k false, fault := mput noFault s.memory.fault k none }

/-- A controller returns to its channel: one that lost its contents is FAILED (R283); one that acknowledged its entry and fails
its short check is trained again at the next bring-up (R282). -/
def State.channelReturn (s : State) (p ch : Nat) : State :=
  let k := chKey p ch
  match mget noFault s.memory.fault k with
  | some f =>
    let s := if s.working p ch then s.chFail p ch 4 0 else s
    let s := if f = .entry then s else s.setMem { s.memory with again := mput noBool s.memory.again k true }
    s.leaveRefresh p ch
  | none => s.leaveRefresh p ch

/-- The controllers return and take every channel out of self-refresh; chunks on failed channels are replaced. -/
def State.memReturn (s : State) (p : Nat) : State :=
  let s := (s.setDomain (domMem p) .on).forEach (List.range 32) fun ch s => s.channelReturn p ch
  (s.fset MEM_STATUS.SR p 0).replaceChunks

/-! ### Cores, engines and registers of a partition (R22, R375) -/

/-- A cluster's cores and engines as PD_ARR leaves reset. -/
def Cluster.logicReset (k : Cluster) : Cluster :=
  { k with
    cores := Vector.replicate 3 Core.init, matrix := { Matrix.init with serial := k.matrix.serial }, dma := ⟨[], []⟩
    sends := Vector.replicate 3 none, inSegment := false, loading := none, staged := none, progress := 0
    progressSeen := 0, closedRun := 0, auditHold := false, auditPending := none }

/-- The slices that a partition's engines run in the open window are aborted and counted; they are repeated later
(R363). -/
def State.abortSlices (s : State) (p : Nat) : State :=
  let busy := (List.range 8).filter fun e => (mget (fun _ => none) s.test.engines (8 * p + e)).isSome
  let s : State := { s with test := { s.test with engines := mkeep (fun k => decide (k / 8 ≠ p)) s.test.engines } }
  if s.test.window then s.fadd BST_STATUS.ABORTS 0 busy.length else s

/-- PD_ARR of a partition is reset: the logic and the registers of clusters `l`; VLT_REGION keeps its values (R133, R137,
R375). What they had staged is lost (R193). -/
def State.arrReset (s : State) (p : Nat) (l : List Nat) : State :=
  let s := s.dropRegs fun r i => r.info.kind == .C && r != .VLT_REGION && l.contains (regionOf r i)
  (s.abortSlices p).forEach l fun L s =>
    let s := match (s.cl L).staged with
      | some g => s.fset FOL_CX_STATE.STAGED g.cx 0
      | none => s
    s.updCl L Cluster.logicReset

/-- A cluster holds committed data: a carried or ring region. -/
def State.holdsData (s : State) (L : Nat) : Bool :=
  (List.range 16).any fun i => (s.region L i).kind == 2 || (s.region L i).kind == 4

/-- The bytes of the EPOCH words of a cluster's rings: they count on over a loss of contents (R258). -/
def State.epochBytes (s : State) (L a : Nat) : Bool :=
  (List.range 16).any fun i =>
    let r := s.region L i
    r.kind == 4 && decide (r.base + ringEpoch ≤ a) && decide (a < r.base + ringEpoch + 4)

/-- PD_ARR of a partition is switched off: its vaults lose all contents. A context with committed data there that the host
has not stopped is handled under R142 (R143). -/
def State.arrOff (s : State) (p : Nat) : State :=
  let l := s.clustersOn p
  let s := (s.arrReset p l).setDomain (domArr p) .off
  let s := s.forEach (sitesOf p) fun n s => (s.ungrounded n).updSite n fun x => { x with bad := [] }
  let s := s.forEach l fun L s =>
    let keep := s.epochBytes L
    s.updCl L fun k => { k with vault := mkeep keep k.vault, bad := [], failed := [], vaultLost := true }
  s.forEach (contexts.filter fun c => (s.clustersOf c).any fun L => l.contains L && s.holdsData L) fun c s =>
    if s.folState c = folStopped ∧ (s.cx c).hold = .host then s else s.markFault c 0x05

/-- A cluster whose vault lost its contents is filled again at its placement: constants from their objects, carried and
scratch regions zero with CURRENT 0, rings empty (R143, R258). -/
def State.reloadVault (s : State) (L : Nat) : State :=
  let s := s.updCl L fun k => { k with vaultLost := false }
  match s.owner L with
  | none => s
  | some c =>
    if s.imgState c ≠ imgActive then s
    else
      let epochs := (List.range 16).map fun i => s.hdr L (s.region L i).base ringEpoch
      let s := (s.initRegions c L).loadAgain c L
      s.forEach (List.range 16) fun i s =>
        match (s.region L i).kind with
        | 2 => s.fset VLT_REGION.CURRENT (16 * L + i) 0
        | 4 => s.setHdr L (s.region L i).base ringEpoch ((epochs.getD i 0 + 1) % 256)
        | _ => s

/-- Step 7: the clusters whose vaults lost their contents and whose partition is ready. -/
def State.reloadVaults (s : State) : State :=
  s.forEach (allClusters.filter fun L => (s.cl L).vaultLost && (s.cl L).site.isSome && s.partReady (s.hostPart L)
    && !(s.cl L).moving) fun L s => s.reloadVault L

/-- The scrub of a vault (R143): failing words of current halves, constant and ring regions. -/
def State.scrubVault (s : State) (L : Nat) : State :=
  match s.owner L, (s.cl L).site with
  | some c, some n =>
    let l := s.copiedRanges L
    s.forEach (((s.cl L).bad.filter fun e => e.2 && inRanges l (8 * e.1)).map (·.1)) fun g s => s.foundParity c L n g .scrub
  | _, _ => s

/-! ### Clusters that waited (R36) -/

/-- The clusters of a partition that wait for nothing more start their segment. -/
def State.startWaiting (s : State) (p : Nat) : State :=
  s.forEach (s.clustersOn p) fun L s => match s.owner L with
    | some c => s.startIfReady c L
    | none => s

end Sys2Proof.Machine
end

