-- ==== Sys2Proof/Machine/Power.lean ====
section
/-! DEFINITION. Power, droop and thermal control (15_power_and_thermal.md R344 to R361): power states, the package cap and
its inner loop, operating points, droop, trims, the brake and the thermal floor. -/
namespace Sys2Proof.Machine

open Sys2Proof

def State.pw (s : State) (p : Nat) : PartPower := mget (fun _ => PartPower.init) s.power.parts p

def State.updPw (s : State) (p : Nat) (f : PartPower → PartPower) : State :=
  { s with power := { s.power with parts := mput (fun _ => PartPower.init) s.power.parts p (f (s.pw p)) } }

def State.setPower (s : State) (w : Power) : State := { s with power := w }

/-- Power states (PWR_PART_STATUS.STATE, PWR_STATE_CTRL.TARGET). -/
def pwActive := 0
def pwIdle := 1
def pwSleep := 2
def pwHold := 3
def pwTransition := 4

def State.pwState (s : State) (p : Nat) : Nat := s.fget PWR_PART_STATUS.STATE p

/-! ### Temperatures (R351, R359, R428) -/

/-- What a sensor reads whose source is absent, off or not answering (R428). -/
def noReading : Int := -2147483648

/-- The last raw sample of a sensor. -/
def State.rawSensor (s : State) (i : Nat) : Int :=
  if mget (fun _ => false) s.nose.absent i then noReading
  else (mget (fun _ => []) s.nose.samples i).headD noReading

/-- The sensors of a partition's fields. -/
def fieldSensors (p : Nat) : List Nat := (List.range 8).map (8 * p + ·)

/-- The field temperature of a partition, in thousandths of a degree: the highest of its sensors. -/
def State.temperature (s : State) (p : Nat) : Int := ((fieldSensors p).map s.rawSensor).foldl max noReading

/-- PWR_THERM.TARGET: values outside 60 to 100 are treated as 95. -/
def State.thermTarget (s : State) : Nat :=
  let t := s.fget PWR_THERM.TARGET 0
  if 60 ≤ t ∧ t ≤ 100 then t else 95

/-! ### Power states (R344 to R346) -/

/-- A state command is written: PWR_STATE_CTRL is RWT. -/
def State.stateWrite (s : State) (mask target : Nat) : State :=
  s.pend .PWR_STATE_CTRL 0 (BitVec.ofNat 64 (mask % 2 ^ 12 * 2 ^ 16 + target % 8))

def execPowerActive (mask : Nat) (s : State) : Host.Outcome State Fault Refusal :=
  onUnit true (s.writeTo .PWR_STATE_CTRL 0 fun s => s.stateWrite mask pwActive)

def execPowerIdle (mask : Nat) (s : State) : Host.Outcome State Fault Refusal :=
  onUnit true (s.writeTo .PWR_STATE_CTRL 0 fun s => s.stateWrite mask pwIdle)

def execPowerSleep (mask : Nat) (s : State) : Host.Outcome State Fault Refusal :=
  onUnit true (s.writeTo .PWR_STATE_CTRL 0 fun s => s.stateWrite mask pwSleep)

def execPowerHold (s : State) : Host.Outcome State Fault Refusal :=
  onUnit true (s.writeTo .PWR_STATE_CTRL 0 fun s => s.stateWrite 0 pwHold)

/-- A context stands in the way of Idle, Sleep and Hold (R345): it is neither STOPPED nor DONE and its image is ACTIVE. -/
def State.cxBusy (s : State) (c : Nat) : Bool :=
  s.imgState c == imgActive && s.folState c != folStopped && s.folState c != folDone

/-- The condition of R345 on the contexts of a partition. -/
def State.partFree (s : State) (p : Nat) : Bool := (s.contextsAt p).all fun c => !s.cxBusy c

/-- The partition takes the command later: it is fenced, in a reset, or in a transition (R345). -/
def State.partAway (s : State) (p : Nat) : Bool :=
  s.fenced p || mget (fun _ => false) s.recovery.dies (dieOfPart p) || s.pwState p == pwTransition

/-- A transition of R346 begins: memory enters self-refresh before it is switched off. -/
def State.beginState (s : State) (p target : Nat) : State :=
  let s := s.updPw p fun w => { w with goal := some target, held := none, change := .none, lowering := false }
  let s := if target = pwSleep ∨ target = pwHold then s.memEnter p
    else if s.up (domMem p) then s else s.fset MEM_STATUS.SR p 3
  let s := s.fset PWR_PART_STATUS.TARGET p (s.fget PWR_PART_STATUS.POINT p)
  (s.fset PWR_PART_STATUS.CHANGING p 0).fset PWR_PART_STATUS.STATE p pwTransition

/-- A partition takes a state command, now or once it is back. -/
def State.takeState (s : State) (target p : Nat) : State :=
  if s.partAway p then s.updPw p fun w => { w with held := some target }
  else if s.pwState p = target then s.updPw p fun w => { w with held := none }
  else s.beginState p target

/-- Every port goes to electrical idle (R346): DOWN, its tables and bindings kept. -/
def State.portsIdle (s : State) : State :=
  s.forEach (List.range Config.nPorts) fun n s =>
    if s.portState n = portIdle then s else s.portLeaves n portDown 0

/-- A PWR_STATE_CTRL command acts at step 6 (R345); the register takes its value only where it is not refused (R8). -/
def State.stateCommand (s : State) : State :=
  match s.power.command with
  | none => s
  | some v =>
    let s := s.setPower { s.power with command := none }
    let target := fieldOf v PWR_STATE_CTRL.TARGET.hi PWR_STATE_CTRL.TARGET.lo
    let mask := fieldOf v PWR_STATE_CTRL.PARTITIONS.hi PWR_STATE_CTRL.PARTITIONS.lo
    let l := if target = pwHold then nat12 else nat12.filter fun p => mask.testBit p
    if target > pwHold then s.fset PWR_STATUS.REFUSAL 0 2
    else if target ≠ pwActive ∧ !(l.filter fun p => s.pwState p != target).all s.partFree then s.fset PWR_STATUS.REFUSAL 0 1
    else
      let s := ((s.putRwtFields .PWR_STATE_CTRL 0 v).fset PWR_STATUS.REFUSAL 0 0).forEach l fun p s => s.takeState target p
      if target = pwHold then s.portsIdle.setPower { s.portsIdle.power with portsHeld := true } else s

/-- A command that a partition holds acts at step 6 once the partition is back (R345). -/
def State.heldCommand (s : State) (p : Nat) : State :=
  match (s.pw p).held with
  | none => s
  | some target =>
    if s.partAway p then s
    else if target ≠ pwActive ∧ s.pwState p ≠ target ∧ !s.partFree p then
      (s.updPw p fun w => { w with held := none }).fset PWR_STATUS.REFUSAL 0 1
    else s.takeState target p

/-- The floor of a partition follows its causes; a partition that becomes Active enters it while the brake's floor is in
force (R451). Slices of a partition that enters the floor are aborted (R363). -/
def State.syncFloor (s : State) (p : Nat) : State :=
  let floor := (s.pw p).hot || (s.fon PWR_STATUS.BRAKE 0 && s.pwState p == pwActive)
  let s := if floor && !s.fon PWR_PART_STATUS.FLOOR p then s.abortSlices p else s
  s.fbit PWR_PART_STATUS.FLOOR p floor

/-- The package leaves Hold, or is no longer on its way there: every port that is enabled trains again (R346). -/
def State.leaveHold (s : State) : State :=
  if s.power.portsHeld then
    let s := (s.fset PWR_STATUS.HOLD 0 0).setPower { s.power with portsHeld := false }
    s.forEach (List.range Config.nPorts) fun n s => s.tryTrain n
  else s

/-- POWER_TRANSITION_COMPLETE (R346). A partition in a state other than Hold ends the package's Hold, unless a command to Hold
waits for it. -/
def State.transitionEnd (s : State) (p : Nat) : State :=
  match (s.pw p).goal with
  | none => s
  | some target =>
    let s := (s.updPw p fun w => { w with goal := none }).fset PWR_PART_STATUS.STATE p target
    let s := if target = pwHold ∨ (s.pw p).held = some pwHold then s else s.leaveHold
    if target = pwSleep ∨ target = pwHold then
      let s := if s.up (domArr p) then s.arrOff p else s
      let s := ((s.setDomain (domMem p) .off).fset MEM_STATUS.SR p 2).syncFloor p
      if s.power.portsHeld && nat12.all fun q => s.pwState q == pwHold then s.fset PWR_STATUS.HOLD 0 1 else s
    else
      let s := if s.up (domArr p) then s else s.setDomain (domArr p) .on
      let s := if s.up (domMem p) then s else s.memReturn p
      (s.syncFloor p).startWaiting p

def execPowerTransitionComplete (part : Nat) (s : State) : Host.Outcome State Fault Refusal :=
  onUnit (okPart part) (s.transitionEnd part)

/-! ### The package cap (R348) -/

/-- The floors of the classes fabric, memory and compute. -/
def State.capFloors (s : State) : List Nat :=
  [12 * (List.range Config.nPorts).countP fun n => s.portState n == portUp,
   20 * nat12.countP fun p => s.up (domMem p),
   25 * nat12.countP fun p => s.pwState p == pwActive]

/-- A class's demand: its power averaged over the last tally plus 5 %, in whole W, rounded up. -/
def demandOf (sum loops : Nat) : Nat := if loops = 0 then 0 else (sum * 105 + 100 * loops - 1) / (100 * loops)

/-- The shares of the three classes: the first two in the order are raised towards their demands, the last receives the
rest. -/
def capShares (floors demands : List Nat) (order : List Nat) (cap : Nat) : List Nat :=
  let at_ := fun (l : List Nat) i => l.getD i 0
  let left := cap - floors.sum
  let a := order.getD 0 0
  let b := order.getD 1 0
  let up := fun i n => min n (at_ demands i - at_ floors i)
  let da := up a left
  let db := up b (left - da)
  (List.range 3).map fun i =>
    at_ floors i + (if i = a then da else if i = b then db else left - da - db)

/-- PWR_MEASURE of the ending tally; a tally without loops leaves it. PACKAGE counts the power of the other domains as
well, which the model leaves free. -/
def State.measurePower (s : State) : State :=
  let n := s.power.loops
  if n = 0 then s
  else
    let avg := fun i => s.power.watts.getD i 0 / n
    let (k, s) := s.take
    let s := (s.fset PWR_MEASURE.FABRIC 0 (avg 0)).fset PWR_MEASURE.MEMORY 0 (avg 1)
    let s := s.fset PWR_MEASURE.COMPUTE 0 (avg 2)
    s.fset PWR_MEASURE.PACKAGE 0 (avg 0 + avg 1 + avg 2 + (Config.restPower k).toNat)

/-- The cap is shared at step 6 (R348). -/
def State.shareCap (s : State) : State :=
  let floors := s.capFloors
  let cap := s.fget PWR_CAP.WATTS 0
  let n := s.power.loops
  let demands := (List.range 3).map fun i => demandOf (s.power.watts.getD i 0) n
  let order := [s.fget PWR_ORDER.FIRST 0, s.fget PWR_ORDER.SECOND 0]
  let unmet := decide (cap < floors.sum)
  let sh := if unmet then floors else capShares floors demands order cap
  let was := s.fon PWR_STATUS.CAP_UNMET 0
  let s := s.measurePower
  let s := ((s.fset PWR_SHARE.FABRIC 0 (sh.getD 0 0)).fset PWR_SHARE.MEMORY 0 (sh.getD 1 0)).fset PWR_SHARE.COMPUTE 0 (sh.getD 2 0)
  let s := s.fbit PWR_STATUS.CAP_UNMET 0 unmet
  if unmet && !was then s.report sevWarning blkPWR Uncoded.capUnmet.code 0xFFFF none [] else s

/-! ### The inner loop (R349) -/

def State.steadyCx (s : State) (c : Nat) : Bool := (s.image c).any fun im => im.steady
def State.bulkCx (s : State) (c : Nat) : Bool := (s.image c).any fun im => !im.steady
def State.cxRate (s : State) (c : Nat) : Nat := s.fget PWR_CX_THROTTLE.RATE c
def State.cxBubbles (s : State) (c : Nat) : Nat := s.fget PWR_CX_THROTTLE.BUBBLES c

/-- Contexts are throttled by a step of `k`. -/
def State.throttleDown (s : State) (k : Nat) : State :=
  let bulk := contexts.filter s.bulkCx
  if bulk.any fun c => decide (1 < s.cxRate c) then
    s.forEach bulk fun c s => s.fset PWR_CX_THROTTLE.RATE c (max 1 (s.cxRate c - k))
  else s.forEach (contexts.filter s.steadyCx) fun c s => s.fset PWR_CX_THROTTLE.BUBBLES c (min 15 (s.cxBubbles c + k))

/-- Contexts are given back one step. -/
def State.throttleUp (s : State) : State :=
  let slow := (contexts.filter s.steadyCx).filter fun c => decide (0 < s.cxBubbles c)
  if slow.isEmpty then
    s.forEach ((contexts.filter s.bulkCx).filter fun c => decide (s.cxRate c < 16)) fun c s =>
      s.fset PWR_CX_THROTTLE.RATE c (s.cxRate c + 1)
  else s.forEach slow fun c s => s.fset PWR_CX_THROTTLE.BUBBLES c (s.cxBubbles c - 1)

/-- The loop of R349: E is `compute` less the share. While the cap is below the floors the excess is unbounded. -/
def State.throttle (s : State) (compute : Nat) : State :=
  let share := s.fget PWR_SHARE.COMPUTE 0
  if s.fon PWR_STATUS.CAP_UNMET 0 then s.throttleDown 16
  else if share < compute then s.throttleDown ((16 * (compute - share) + compute - 1) / compute)
  else if 50 * compute < 49 * share then s.throttleUp
  else s

/-- POWER_INNER_LOOP: the measured power of the classes and of the partitions over the last 10 µs. -/
def State.innerLoop (s : State) (fabricW memoryW computeW : Nat) (partW : List Nat) : State :=
  if !s.up (domPlat 0) then s
  else
    let excess := s.fon PWR_STATUS.CAP_UNMET 0 || decide (s.fget PWR_SHARE.COMPUTE 0 < computeW)
    let w := s.power
    let s := s.setPower { w with
      loops := w.loops + 1, hotLoops := w.hotLoops + excess.toNat
      watts := [w.watts.getD 0 0 + fabricW, w.watts.getD 1 0 + memoryW, w.watts.getD 2 0 + computeW]
      partWatts := nat12.foldl (fun m p => mput zeroNat m p (mget zeroNat m p + partW.getD p 0)) w.partWatts }
    s.throttle computeW

def execPowerInnerLoop (fabricW memoryW computeW : Nat) (partW : List Nat) (s : State) :
    Host.Outcome State Fault Refusal :=
  onUnit true (s.innerLoop fabricW memoryW computeW partW)

/-! ### Operating points (R351, R352) -/

def State.point (s : State) (p : Nat) : Nat := s.fget PWR_PART_STATUS.POINT p

/-- The highest point of a partition (R351, R357). -/
def State.fmax (s : State) (p : Nat) : Nat := s.fget PWR_PART_CTRL.FMAX p - s.fget AGE_TRIM.FMAX_LOSS p

def State.detectors (s : State) (p : Nat) : Nat := s.fget DRP_STATUS.ASSERTED p

/-- The average power of a partition over the last tally. -/
def State.partPower (s : State) (p : Nat) : Nat :=
  if s.power.loops = 0 then 0 else mget zeroNat s.power.partWatts p / s.power.loops

/-- The partition is to go down a point: it is hot, over its share in most loops, or above FMAX. -/
def State.wantsDown (s : State) (p : Nat) : Bool :=
  decide (0 < s.point p)
    && (decide ((1000 * s.thermTarget : Nat) ≤ s.temperature p) || decide (s.power.loops < 2 * s.power.hotLoops)
      || decide (s.fmax p < s.point p))

/-- The partition may go up a point. -/
def State.wantsUp (s : State) (p : Nat) : Bool :=
  s.power.hotLoops == 0 && decide (s.temperature p + 5000 ≤ (1000 * s.thermTarget : Nat))
    && decide (s.partPower p + (Config.stepCost p (s.point p)).toNat ≤ s.fget PWR_SHARE.COMPUTE 0)
    && decide (s.point p + 1 ≤ s.fmax p)

/-- A trim waits and the window is open (R357). -/
def State.wantsTrim (s : State) (p : Nat) : Bool := s.fon AGE_TRIM.PENDING p && s.fget AGE_WINDOW.TALLIES 0 != 0

/-- A change to a target point is in progress. -/
def State.beginChange (s : State) (p : Nat) (ch : PointChange) (target : Nat) : State :=
  ((s.updPw p fun w => { w with change := ch, lowering := false }).fset PWR_PART_STATUS.CHANGING p 1).fset PWR_PART_STATUS.TARGET p target

/-- An abort is counted; the third in a row abandons the change (R354, R355). -/
def State.countAbort (s : State) (p : Nat) : State :=
  let n := s.fget PWR_PART_STATUS.ABORTS p
  let s := s.fset PWR_PART_STATUS.ABORTS p (min 3 (n + 1))
  if n = 2 then s.updPw p fun w => { w with abandonDue := true } else s

/-- A raise or a trim begins, unless a detector is asserted, which counts as an abort, or the hold-off runs (R354, R355). -/
def State.tryRaise (s : State) (p : Nat) (ch : PointChange) (target : Nat) : State :=
  if s.fget PWR_PART_STATUS.HOLDOFF p ≠ 0 then s
  else if s.detectors p ≠ 0 then s.countAbort p
  else s.beginChange p ch target

/-- A raised voltage that is not used again is lowered to the point's (R354, R355). -/
def State.settleVolt (s : State) (p : Nat) : State :=
  match (s.pw p).change with
  | .raise _ | .lower _ _ => s
  | _ => s.updPw p fun w => { w with volt := s.point p }

/-- The contexts with clusters on a partition are checked against the slower clock (R37). -/
def State.clockFalls (s : State) (p : Nat) : State := s.forEach (s.contextsAt p) fun c s => s.checkBudget c

/-- Step 6 for the operating point of one Active partition (R351 to R357). A lowering that was stopped is retried, with its clock
at the point already (R354), unless the next one begins. A lowering goes before a trim, a trim before a raise: DESIGN CHOICE. -/
def State.choosePoint (s : State) (p : Nat) : State :=
  if s.pwState p ≠ pwActive ∨ (s.pw p).change ≠ .none then s
  else
    let s :=
      if s.wantsDown p then (s.beginChange p (.lower (s.point p - 1) false) (s.point p - 1)).clockFalls p
      else if (s.pw p).lowering then s.beginChange p (.lower (s.point p) true) (s.point p)
      else if s.wantsTrim p then s.tryRaise p .trim (s.point p)
      else if s.wantsUp p then s.tryRaise p (.raise (s.point p + 1)) (s.point p + 1)
      else s
    s.settleVolt p

/-- The change is over: the count of aborts in a row returns to 0. -/
def State.endChange (s : State) (p : Nat) : State :=
  let s := s.updPw p fun w => { w with change := .none, volt := s.point p }
  let s := s.fset PWR_PART_STATUS.TARGET p (s.point p)
  (s.fset PWR_PART_STATUS.CHANGING p 0).fset PWR_PART_STATUS.ABORTS p 0

/-- A trim of 2.5 mV is in force and in flash (R357). -/
def State.addTrim (s : State) (p : Nat) : State :=
  let n := min 20 (s.fget AGE_TRIM.TRIM p + 1)
  let s := ((s.fset AGE_TRIM.TRIM p n).fset AGE_TRIM.PENDING p 0).fbit AGE_TRIM.LIMIT p (n == 20)
  { s with security := { s.security with trims := mput zeroNat s.security.trims p n } }

/-- VOLTAGE_SETTLED (R352): the clock of a raise is switched; a trim is complete; the clusters start. -/
def State.voltageSettled (s : State) (p : Nat) : State :=
  match (s.pw p).change with
  | .raise n => ((s.fset PWR_PART_STATUS.POINT p n).endChange p).startWaiting p
  | .trim => ((s.addTrim p).endChange p).startWaiting p
  | _ => s

def execVoltageSettled (part : Nat) (s : State) : Host.Outcome State Fault Refusal :=
  onUnit (okPart part) (s.voltageSettled part)

/-- CLOCK_SWITCH_COMPLETE (R352): the clock of a lowering is switched, and the clusters start. -/
def State.clockSwitched (s : State) (p : Nat) : State :=
  match (s.pw p).change with
  | .lower n false =>
    ((s.fset PWR_PART_STATUS.POINT p n).updPw p fun w => { w with change := .lower n true }).startWaiting p
  | _ => s

def execClockSwitchComplete (part : Nat) (s : State) : Host.Outcome State Fault Refusal :=
  onUnit (okPart part) (s.clockSwitched part)

/-- VOLTAGE_LOWERED (R352): the lowering is complete. -/
def State.voltageLowered (s : State) (p : Nat) : State :=
  match (s.pw p).change with
  | .lower _ true => s.endChange p
  | _ => s

def execVoltageLowered (part : Nat) (s : State) : Host.Outcome State Fault Refusal :=
  onUnit (okPart part) (s.voltageLowered part)

/-! ### Droop (R353 to R355) -/

/-- A change in progress stops: the partition holds the lower of the old and new points, and its clusters start; a lowering is
retried at the next boundary (R354). -/
def State.stopChange (s : State) (p : Nat) : State :=
  let stop := fun (s : State) (point volt : Nat) (again : Bool) =>
    let s := (s.updPw p fun w => { w with change := .none, volt := volt, lowering := again }).fset PWR_PART_STATUS.POINT p point
    ((s.fset PWR_PART_STATUS.TARGET p point).fset PWR_PART_STATUS.CHANGING p 0).startWaiting p
  match (s.pw p).change with
  | .none => s
  | .raise n => stop s (s.point p) n false
  | .trim => stop s (s.point p) (s.point p) false
  | .lower n _ => stop s n (s.pw p).volt true

/-- DROOP_ASSERT (R353, R354). -/
def State.droop (s : State) (p d : Nat) : State :=
  if !s.up (domArr p) then s
  else
    let s := s.finc DRP_COUNT.COUNT p
    let s := (s.fset DRP_STATUS.ASSERTED p (s.detectors p ||| 2 ^ d)).fset DRP_STATUS.LAST p d
    let s := s.updPw p fun w => { w with stretched := true }
    if (s.pw p).change = .none then s else (s.stopChange p).countAbort p

def execDroopAssert (part detector : Nat) (s : State) : Host.Outcome State Fault Refusal :=
  onUnit (okPart part && okDetector detector) (s.droop part detector)

/-- DROOP_RELEASE (R353): every detector has been deasserted long enough, and the stretch ends. -/
def State.droopRelease (s : State) (p : Nat) : State :=
  (s.fset DRP_STATUS.ASSERTED p 0).updPw p fun w => { w with stretched := false }

def execDroopRelease (part : Nat) (s : State) : Host.Outcome State Fault Refusal :=
  onUnit (okPart part) (s.droopRelease part)

/-- CHANGE_ABANDONED (R355): the third abort in a row. -/
def State.abandon (s : State) (p : Nat) : State :=
  if (s.pw p).abandonDue then
    let s := (s.updPw p fun w => { w with abandonDue := false, lowering := false }).fset PWR_PART_STATUS.ABANDONED p 1
    (s.fset PWR_PART_STATUS.HOLDOFF p (s.fget DRP_CTRL.HOLDOFF p)).report sevWarning blkPWR Uncoded.abandoned.code p none []
  else s

def execChangeAbandoned (part : Nat) (s : State) : Host.Outcome State Fault Refusal :=
  onUnit (okPart part) (s.abandon part)

/-- The hold-off counts down; when it has run out, the count of aborts starts again. -/
def State.holdOff (s : State) (p : Nat) : State :=
  let n := s.fget PWR_PART_STATUS.HOLDOFF p
  let s := s.fset PWR_PART_STATUS.HOLDOFF p (n - 1)
  if n ≤ 1 ∧ s.fget PWR_PART_STATUS.ABORTS p = 3 then s.fset PWR_PART_STATUS.ABORTS p 0 else s

/-! ### Ageing (R356, R357) -/

/-- The smallest slack of a partition's monitors in ps: below 15 a trim is scheduled, or, at the limit, a point of FMAX is
lost and reported. -/
def State.monitor (s : State) (p slack : Nat) : State :=
  let s := s.fset AGE_MONITOR.SLACK p (min slack 65535)
  if 15 ≤ slack then s
  else if s.fget AGE_TRIM.TRIM p < 20 then s.fset AGE_TRIM.PENDING p 1
  else
    ((s.fset AGE_TRIM.LIMIT p 1).finc AGE_TRIM.FMAX_LOSS p).report sevWarning blkAGE Uncoded.trimLimit.code p none []

/-! ### The brake and the thermal floor (R358, R359) -/

/-- Partitions are Active: step 4 of bring-up has begun to make them so. -/
def State.started (s : State) : Bool :=
  decide (4 ≤ s.bringUp.done) || (match s.bringUp.running with
    | some (n, code, _, _) => n == 4 && code == 0
    | none => false)

/-- BRAKE: PWR_BRAKE_N falls, and every Active partition enters the floor. Before step 4 of bring-up no partition is Active
(R451). -/
def State.brake (s : State) : State :=
  if s.power.brakeLow then s
  else if !s.started then s.setPower { s.power with brakeLow := true, brakeHigh := false }
  else
    let s := s.setPower { s.power with brakeLow := true, brakeHigh := false }
    let s := if s.fon PWR_STATUS.BRAKE 0 then s else (s.fset PWR_STATUS.BRAKE 0 1).finc PWR_STATUS.BRAKES 0
    s.forEach (nat12.filter fun p => s.pwState p == pwActive) fun p s => (s.stopChange p).syncFloor p

def execBrake (s : State) : Host.Outcome State Fault Refusal := onUnit true s.brake

/-- BRAKE_DEASSERT: PWR_BRAKE_N rises. -/
def State.brakeRises (s : State) : State := s.setPower { s.power with brakeLow := false }

def execBrakeDeassert (s : State) : Host.Outcome State Fault Refusal := onUnit true s.brakeRises

/-- THERMAL_TRIP: a sensor reaches TRIP (R359). An entry is counted for the requests of R430. -/
def State.thermalTrip (s : State) (p : Nat) : State :=
  if !s.up (domArr p) || (s.pw p).hot then s
  else
    let s := s.updPw p fun w => { w with hot := true }
    let s := (s.stopChange p).syncFloor p
    let s := s.fset PWR_STATUS.THERMAL 0 1
    let s := { s with nose := { s.nose with floorTimes := s.tally.time :: s.nose.floorTimes } }
    s.report sevFatal blkPWR Uncoded.thermalTrip.code p none []

def execThermalTrip (part : Nat) (s : State) : Host.Outcome State Fault Refusal :=
  onUnit (okPart part) (s.thermalTrip part)

/-- Every sensor of the partition reads at least 5 degrees below TRIP. -/
def State.cooled (s : State) (p : Nat) : Bool :=
  (fieldSensors p).all fun i => decide (s.rawSensor i + 5000 ≤ (1000 * s.fget PWR_THERM.TRIP 0 : Nat))

/-- Step 6: the floors whose conditions have cleared are released (R358, R359). -/
def State.releaseFloors (s : State) : State :=
  let w := s.power
  let s := if s.fon PWR_STATUS.BRAKE 0 && !w.brakeLow && w.brakeHigh then s.fset PWR_STATUS.BRAKE 0 0 else s
  let s := s.setPower { s.power with brakeHigh := !w.brakeLow }
  let s := s.forEach (nat12.filter fun p => (s.pw p).hot && s.cooled p) fun p s => s.updPw p fun w => { w with hot := false }
  let s := s.fbit PWR_STATUS.THERMAL 0 (nat12.any fun p => (s.pw p).hot)
  s.forEach nat12 fun p s => s.syncFloor p

/-! ### Step 6 of R33 and the slack of R361 -/

/-- Step 6: state commands, the cap, floors, operating points, AGE_WINDOW. The measurements start again. -/
def State.powerStep (s : State) : State :=
  let s := s.stateCommand.forEach nat12 fun p s => s.heldCommand p
  let s := s.shareCap.releaseFloors
  let s := s.forEach nat12 fun p s => (s.abandon p).holdOff p
  let s := s.forEach nat12 fun p s => s.choosePoint p
  let s := s.fset AGE_WINDOW.TALLIES 0 (s.fget AGE_WINDOW.TALLIES 0 - 1)
  s.setPower { s.power with loops := 0, hotLoops := 0, watts := [0, 0, 0], partWatts := [] }

/-- PWR_SLACK of the ending tally (R361), in 10 ns units, at the edge before anything of the boundary has acted. -/
def State.slack (s : State) : State :=
  let ran := contexts.filter fun c => (s.cx c).segment
  if ran.isEmpty then s.rset .PWR_SLACK 0 0
  else if ran.any fun c => !s.segmentFinished c then
    let (k, s) := s.take
    s.rset .PWR_SLACK 0 (BitVec.ofNat 64 (2 ^ 31 + 2 ^ 30 + (Config.overrunSlack k).toNat))
  else
    let start : Int := (s.tally.edge : Int) + 20
    let used : Int := ((s.tally.lastFinish.getD s.tally.edge : Nat) : Int) - start
    let left : Int := ((s.usable / 10 : Nat) : Int) - used
    s.rset .PWR_SLACK 0 (BitVec.ofNat 64 (2 ^ 31 + (BitVec.ofInt 31 left).toNat))

end Sys2Proof.Machine
end

