-- ==== Sys2Proof/Machine/SelfTest.lean ====
section
/-! DEFINITION. Built-in self-test and structural scan (16_self_test.md R362 to R374): the test window, march and scan
slices, results, named plans, raw access. -/
namespace Sys2Proof.Machine

open Sys2Proof

def State.setTest (s : State) (t : SelfTest) : State := { s with test := t }

/-! ### March units (R364 to R366) -/

/-- Blocks of 128 rows of a unit (R364). -/
def unitBlocks (u : Nat) : Nat :=
  if u < 24 then 128 else if u = 24 then 64 else if u < 27 then 32 else if u < 29 then 4 else if u = 29 then 20 else 0

/-- Rows of a unit, and the bytes of a row that raw access moves; where the spec gives no width of a row the model takes
8 bytes, and 32 for the lookup units. -/
def unitRows (u : Nat) : Nat := 128 * unitBlocks u
def unitWidth (u : Nat) : Nat := if u < 24 ∨ u = 27 ∨ u = 28 then 32 else 8

/-- The units with the number of slices before each: two backgrounds for each block, in the order of R366. -/
def unitStarts : List (Nat × Nat) :=
  (List.range 30).map fun u => (u, ((List.range u).map fun v => 2 * unitBlocks v).sum)

/-- Slices of a whole site. -/
def siteSlices : Nat := 6456

/-- The slice at a place in a site's sequence: unit, block, background. -/
def sliceAt (k : Nat) : Nat × Nat × Nat :=
  match (unitStarts.reverse.find? fun e => decide (e.2 ≤ k)) with
  | some (u, b) => (u, (k - b) / 2, (k - b) % 2)
  | none => (0, 0, 0)

/-- The 4 KiB units of a site that the placer has reserved for extension slots, parked delay and staging (R364); on a site
without a cluster, delay lies in the lowest ones. -/
def State.reservedUnits (s : State) (n : Nat) : List Nat :=
  match (s.site n).holds with
  | [] => List.range (((s.parksAt n).map fun d => (d.parked + 11) / 12).sum)
  | l => l.flatMap fun L =>
    let free := s.freeUnits L
    free.take (free.length - (s.stagingUnits L).length) ++ (((s.cl L).staged.map fun g => g.units).getD [])

/-- Every word of the banks of a tier is free space, and none of it is reserved: a stripe spans the eight banks (R129). -/
def State.tierFree (s : State) (n t : Nat) : Bool :=
  ((s.site n).holds.all fun L => (s.tierRegions L t).isEmpty) && (s.reservedUnits n).all fun u => u / 1024 != t

/-- A unit of a site may be marched (R364); `open_` once the window is open, when the clusters of a HOLDING site have to
have finished. -/
def State.unitEligible (s : State) (n u : Nat) (open_ : Bool) : Bool :=
  match (s.site n).state with
  | .SPARE => true
  | .ROTATING => true
  | .PARKED => decide (u < 24) && s.tierFree n (u / 8)
  | .HOLDING => decide (u < 24) && s.tierFree n (u / 8)
      && (!open_ || (s.site n).holds.all fun L => !(s.cl L).inSegment || s.finished L)
  | _ => false

/-- The next eligible slice of a site from where its sequence stopped (R366). -/
def State.siteSlice (s : State) (n : Nat) (open_ : Bool) : Option Nat :=
  let ok := (List.range 30).filter fun u => s.unitEligible n u open_
  let from_ := mget zeroNat s.test.position n
  if ok.isEmpty then none
  else ((List.range siteSlices).map fun i => (from_ + i) % siteSlices).find? fun k => ok.contains (sliceAt k).1

/-- The slice at a place of a site's sequence. -/
def marchAt (n k : Nat) : Work := let (u, b, g) := sliceAt k; .march n u b g

def Work.site : Work → Nat
  | .scan n => n
  | .march n _ _ _ => n

/-- The work of an engine. -/
def State.engine (s : State) (p e : Nat) : Option (Work × Bool) := mget (fun _ => none) s.test.engines (8 * p + e)

def State.setEngine (s : State) (p e : Nat) (w : Option (Work × Bool)) : State :=
  s.setTest { s.test with engines := mput (fun _ => none) s.test.engines (8 * p + e) w }

/-- Sites of a partition that an engine marches. -/
def State.marching (s : State) (p : Nat) : List Nat :=
  (List.range 8).filterMap fun e => match s.engine p e with
    | some (.march n _ _ _, false) => some n
    | _ => none

/-- The next march slice of a partition: the next site in ascending local index, cyclically, that has an eligible slice
and is not under march already (R366). The site's number and the slice. -/
def State.nextMarch (s : State) (p : Nat) (open_ : Bool) : Option (Nat × Work) :=
  let from_ := mget zeroNat s.test.turn p
  ((List.range 28).map fun i => siteOf p ((from_ + i) % 28)).findSome? fun n =>
    if (s.marching p).contains n then none else (s.siteSlice n open_).map fun k => (n, marchAt n k)

/-- The march work of a partition has gone past a site (R366): the slice ran there. -/
def State.setTurn (s : State) (p n : Nat) : State :=
  s.setTest { s.test with turn := mput zeroNat s.test.turn p ((localIndex n + 1) % 28) }

/-! ### Step 10 of R33 (R363) -/

/-- The window of the running tally, in 10 ns (R362). -/
def State.testWindow (s : State) : Nat := windowOf s.period (s.fget BST_WINDOW.LENGTH 0)

/-- A plan keeps the partition from in-service slices (R373). -/
def State.planMask (s : State) (p : Nat) : Bool :=
  match s.test.plan with
  | some t => (t.plan == 1 || t.plan == 2 || t.plan == 4) && t.mask.testBit p
  | none => false

/-- In-service slices may run in a partition. -/
def State.testable (s : State) (p : Nat) : Bool :=
  s.testWindow != 0 && s.pwState p == pwActive && s.up (domArr p) && !s.fenced p && !s.fon PWR_PART_STATUS.FLOOR p
    && !s.planMask p

/-- BST_STAGGER.ENGINES: 0 is treated as 1, values above 8 as 8. -/
def State.stagger (s : State) : Nat := min 8 (max 1 (s.fget BST_STAGGER.ENGINES 0))

/-- Patterns of one scan slice (R367). -/
def State.slicePatterns (s : State) : Nat := (10 * s.testWindow - 350) / 640

/-- The pattern a partition's scan has reached. -/
def State.patternOf (s : State) (p : Nat) : Nat := mget zeroNat s.test.pattern p

/-- The patterns of a partition's next scan slice: the last one applies those that remain. -/
def State.patternsNow (s : State) (p : Nat) : Nat := min s.slicePatterns (24576 - s.patternOf p)

/-- The pattern store holds the set, and the set is valid (R368). -/
def State.patternsReady (s : State) : Bool := s.fon SCN_STATUS.STORED 0 && !s.fon SCN_STATUS.PATTERNS_INVALID 0

/-- A slice may be run now: the site is the rotating spare under scan and the patterns are there, or the unit is eligible. -/
def State.workable (s : State) (p : Nat) (w : Work) (open_ : Bool) : Bool :=
  match w with
  | .scan n => s.scanning p == some n && (s.site n).state == .ROTATING && s.patternsReady
  | .march n u _ _ => s.unitEligible n u open_

/-- The scan slice of a partition, unless a failed one waits for its repeat. -/
def State.scanWork (s : State) (p : Nat) : List (Work × Bool) :=
  match s.scanning p with
  | some n =>
    if (s.test.once.any fun f => f.work == .scan n) || !s.workable p (.scan n) false then [] else [(.scan n, false)]
  | none => []

/-- The ns left until 50 ns before the edge. -/
def State.testLeft (s : State) : Nat := 10 * (s.tally.nextEdge - s.tally.time) - 50

/-- A slice that starts now ends at least 50 ns before the edge at the partition's commanded clock (R363, R365, R367). -/
def State.sliceFits (s : State) (p : Nat) (w : Work) : Bool :=
  match w with
  | .scan _ => decide (300 + 640 * s.patternsNow p ≤ s.testLeft)
  | .march .. => decide (1320000 ≤ s.testLeft * s.coreMHz p)

/-- An engine receives a slice; in the open window it starts it at once, if it still fits. -/
def State.give (s : State) (p e : Nat) (w : Work × Bool) : State :=
  s.setEngine p e (if s.test.window && !s.sliceFits p w.1 then none else some w)

/-- An engine goes on with a march slice. -/
def State.giveMarch (s : State) (p e : Nat) (open_ : Bool) : State :=
  match s.nextMarch p open_ with
  | some (_, w) => s.give p e (w, false)
  | none => s.setEngine p e none

/-- Slices of a partition that failed in an earlier tally and wait for their repeat (R369). -/
def State.repeats (s : State) (p : Nat) (open_ : Bool) : List (Work × Bool) :=
  (s.test.once.filter fun f => f.part == p && f.tally != s.tally.count && s.workable p f.work open_).map fun f => (f.work, true)

/-- The engines of a partition receive work: the scan, repeats, march slices. What has not ended at the edge is aborted. -/
def State.assignPart (s : State) (p : Nat) : State :=
  let s := s.abortSlices p
  if !s.testable p then s
  else
    let first := (s.scanWork p ++ s.repeats p false).take s.stagger
    let s := s.forEach first.zipIdx fun e s => s.setEngine p e.2 (some e.1)
    s.forEach ((List.range s.stagger).drop first.length) fun e s => s.giveMarch p e false

/-- Step 10: work for the coming window; an accepted plan starts. -/
def State.testStep (s : State) : State :=
  let s := s.forEach nat12 fun p s => s.abortSlices p
  let s := (s.setTest { s.test with window := false }).forEach nat12 fun p s => s.assignPart p
  s.setTest { s.test with plan := s.test.plan.map fun t => { t with started := true } }

/-- The time base has reached the window of the running tally (R362). -/
def State.windowDue (s : State) : Bool :=
  s.testWindow != 0 && decide (s.tally.nextEdge ≤ s.tally.time + s.testWindow)

/-- An engine starts its slices with the window; a march of a HOLDING site whose clusters have not finished gives way to the
next eligible one (R364). -/
def State.startEngine (s : State) (p e : Nat) : State :=
  match s.engine p e with
  | some (w, again) =>
    if !s.testable p then s.setEngine p e none
    else if s.workable p w true then s.give p e (w, again)
    else if again || w.isScan then s.setEngine p e none
    else (s.setEngine p e none).giveMarch p e true
  | none => s

/-- TEST_WINDOW_START: the window opens, W before the edge and not earlier. -/
def State.windowStart (s : State) : State :=
  if s.test.window || !s.windowDue then s
  else
    (s.setTest { s.test with window := true }).forEach nat12 fun p s =>
      s.forEach (List.range 8) fun e s => s.startEngine p e

def execTestWindowStart (s : State) : Host.Outcome State Fault Refusal := onUnit true s.windowStart

/-! ### Results (R369, R370, R374) -/

/-- A result record (R374). -/
def State.resultBytes (s : State) (plan kind outcome unit site row element background pattern count : Nat) : List Byte :=
  leBytes 8 s.tally.count ++ leBytes 1 plan ++ leBytes 1 kind ++ leBytes 1 outcome ++ leBytes 1 unit
    ++ leBytes 2 (((s.site site).holds.head?).getD 0xFFFF) ++ leBytes 2 (if s.showSites then site else 0)
    ++ leBytes 2 row ++ leBytes 1 element ++ leBytes 1 background ++ leBytes 4 pattern ++ leBytes 4 count ++ leBytes 4 0

/-- Outcomes of R374. -/
def outPass := 0
def outTransient := 1
def outFailed := 2
def outAborted := 3

/-- A record goes to the Nose, with KIND as its CODE (R432), and into the FIFO. -/
def State.result (s : State) (kind outcome inst : Nat) (b : List Byte) : State :=
  let s := s.report (if outcome = outFailed then sevWarning else sevInfo) blkBST kind inst none (wordsOf b 8)
  if s.test.results.length < 64 then
    (s.setTest { s.test with results := s.test.results ++ [b] }).fset BST_STATUS.FIFO 0 1
  else s.finc BST_STATUS.RESULTS_LOST 0

/-- The record of a slice. -/
def State.sliceRecord (s : State) (p outcome : Nat) (w : Work) (row element pattern : Nat) : State :=
  match w with
  | .scan n => s.result 1 outcome p (s.resultBytes 0 1 outcome 30 n 0 0 0 pattern 0)
  | .march n u _ g => s.result 0 outcome p (s.resultBytes 0 0 outcome u n row element g 0 0)

/-- The scan goes on after a good slice, or is complete after the last (R367). -/
def State.advanceScan (s : State) (p : Nat) : State :=
  let k := s.patternOf p + s.slicePatterns
  if 24576 ≤ k then (s.setScan p none).finc SCN_PART.SCANNED p
  else (s.setTest { s.test with pattern := mput zeroNat s.test.pattern p k }).fset SCN_PART.PATTERN p (k / 2)

/-- The site's sequence moves on after a march slice. -/
def State.advanceMarch (s : State) (n : Nat) (w : Work) : State :=
  match s.siteSlice n true with
  | some k => if marchAt n k = w then
      s.setTest { s.test with position := mput zeroNat s.test.position n ((k + 1) % siteSlices) } else s
  | none => s

/-- What an unlisted row of a unit other than the vault holds: background 1 after a march of the whole site. -/
def State.cellGround (s : State) : Nat → Nat := fun k =>
  let u := k / 2 ^ 14 % 32
  if (s.site (k / 2 ^ 14 / 32)).marched then leNat (List.replicate (unitWidth u) (backgroundByte 1 (k % 2 ^ 14))) else 0

/-- The background that a march slice leaves in a vault bank (R365): the bytes of the block by the logical address of a
cluster whose rows are moved by `off` (R235). -/
def marchCells (u block g off : Nat) : List (Nat × Byte) :=
  (List.range 128).flatMap fun i =>
    let row := 128 * block + i
    (List.range 32).map fun j => (u / 8 * 2 ^ 22 + (row + 16384 - off) % 16384 * 256 + u % 8 * 32 + j, backgroundByte g row)

/-- A march slice leaves its block holding the background, with good parity: in the array of a vacant site, in the free
space of a held one, in the rows of another unit (R365). -/
def State.leaveBackground (s : State) (w : Work) : State :=
  match w with
  | .march n u b g =>
    if u < 24 then
      let s := if (s.site n).holds.isEmpty then
          s.updSite n fun x => { x with left := mputs x.ground x.left (marchCells u b g 0) } else s
      s.forEach (s.site n).holds.zipIdx fun e s =>
        let cells := marchCells u b g (if e.2 = 0 then 0 else (s.site n).tierOffsets.getD (u / 8) 0)
        let groups := (cells.map fun x => x.1 / 8).dedup
        s.updCl e.1 fun k => { k with vault := mputs zeroByte k.vault cells, bad := mkeep (fun x => !groups.contains x) k.bad }
    else s.setTest { s.test with
      cells := (List.range 128).foldl (fun m i => let row := 128 * b + i
        mput s.cellGround m ((n * 32 + u) * 2 ^ 14 + row) (leNat (List.replicate (unitWidth u) (backgroundByte g row)))) s.test.cells }
  | .scan _ => s

/-- A slice failed: first it waits for its repeat; the repeat's failure is confirmed (R369). -/
def State.sliceFailed (s : State) (p : Nat) (w : Work) (again : Bool) (row element : Nat) : State :=
  if again then
    let s := s.setTest { s.test with
      once := s.test.once.filter fun f => f.work != w
      confirmed := s.test.confirmed ++ [match w with
        | .scan n => ({ site := n, unit := 30, row := 0 } : Confirmed)
        | .march n u _ _ => ({ site := n, unit := u, row := row } : Confirmed)] }
    let s := s.sliceRecord p outFailed w row element (s.patternOf p)
    match w with
    | .scan _ => s.setScan p none
    | .march .. => s
  else s.setTest { s.test with once := s.test.once ++ [⟨p, w, row, element, s.tally.count⟩] }

/-- A slice passed; a repeat that passes shows that the first failure was transient (R369). -/
def State.slicePassed (s : State) (p : Nat) (w : Work) (again : Bool) : State :=
  let s := if again then
      match s.test.once.find? fun f => f.work == w with
      | some f =>
        (s.setTest { s.test with once := s.test.once.filter fun f => f.work != w }).sliceRecord p outTransient w f.row
          f.element (s.patternOf p)
      | none => s
    else s
  match w with
  | .scan n => if s.scanning p = some n then s.advanceScan p else s
  | .march .. => s

/-- The engine goes on: the scan, the next repeat, or the next march slice; none starts while the partition is in the
floor or out of service (R363). -/
def State.nextWork (s : State) (p e : Nat) (w : Work) (again : Bool) : State :=
  let s := s.setEngine p e none
  if !s.testable p then s
  else if again then
    match (s.repeats p true).find? fun r => !((List.range 8).any fun k => s.engine p k == some r) with
    | some r => s.give p e r
    | none => s
  else match w with
    | .scan _ => match s.scanWork p with
      | r :: _ => s.give p e r
      | [] => s
    | .march .. => s.giveMarch p e true

/-- The poisoned blocks of a partition's pattern store among those that its next scan slice reads (R368): the patterns lie one
after the other in the 24 pages. -/
def State.slicePoison (s : State) (p : Nat) : List Nat :=
  let first := 32 * s.patternOf p
  (List.range (32 * s.patternsNow p)).filterMap fun i =>
    let a := 2 ^ 21 * (24 * p) + 64 * (first + i)
    match s.place storeCx a with
    | some (m, ch, b, _) =>
      let k := blockKey m ch b
      if mget noBool s.memory.poison k then some k else none
    | none => none

/-- SLICE_ABORT (R363): no result, and the slice is repeated later. A scan slice that met a poisoned block of the store
has that part of it copied again (R368). Outside the window no slice runs. -/
def State.sliceAbort (s : State) (p e : Nat) : State :=
  match s.engine p e with
  | none => s
  | some (w, _) =>
    if !s.test.window then s
    else
      let s := (s.setEngine p e none).finc BST_STATUS.ABORTS 0
      let bad := if w.isScan then s.slicePoison p else []
      if bad.isEmpty then s
      else (s.setMem { s.memory with poison := mputs noBool s.memory.poison (bad.map fun k => (k, false)) }).finc
        SCN_STATUS.RELOADS 0

def execSliceAbort (part engine : Nat) (s : State) : Host.Outcome State Fault Refusal :=
  onUnit (okPart part && okEngine engine) (s.sliceAbort part engine)

/-- A slice that has not ended 50 ns before the edge is aborted (R363). -/
def State.sliceLate (s : State) : Bool := decide (s.tally.nextEdge < s.tally.time + 5)

/-- MARCH_SLICE_END (R365, R369). -/
def State.marchEnd (s : State) (p e : Nat) (r : SliceResult) : State :=
  match s.engine p e with
  | some (.march n u b g, again) =>
    if !s.test.window then s
    else if s.sliceLate then s.sliceAbort p e
    else
      let w := Work.march n u b g
      let s := s.leaveBackground w
      let s := if again then s else (s.advanceMarch n w).setTurn p n
      let s := match r with
        | .pass => s.slicePassed p w again
        | .fail row element => s.sliceFailed p w again row element
      s.nextWork p e w again
  | _ => s

def execMarchSliceEnd (part engine : Nat) (result : SliceResult) (s : State) : Host.Outcome State Fault Refusal :=
  onUnit (okPart part && okEngine engine) (s.marchEnd part engine result)

/-- SCAN_SLICE_END (R367, R369). A slice that read a poisoned block of the store has no result (R368). -/
def State.scanEnd (s : State) (p e : Nat) (ok : Bool) : State :=
  match s.engine p e with
  | some (.scan n, again) =>
    if !s.test.window then s
    else if s.sliceLate || !(s.slicePoison p).isEmpty then s.sliceAbort p e
    else
      let w := Work.scan n
      let s := if ok then s.slicePassed p w again else s.sliceFailed p w again 0 0
      s.nextWork p e w again
  | _ => s

def execScanSliceEnd (part engine : Nat) (ok : Bool) (s : State) : Host.Outcome State Fault Refusal :=
  onUnit (okPart part && okEngine engine) (s.scanEnd part engine ok)

/-- Step 7: confirmed failures (R369): a row of the teller instruction memory gets a spare row while there is one; else the
site is to be retired. -/
def State.actConfirmed (s : State) : State :=
  let l := s.test.confirmed
  let s := s.setTest { s.test with confirmed := [] }
  s.forEach l fun f s =>
    if f.unit = 24 then s.mapRow (imemArray f.site) f.row 5
    else s.retireSite f.site (if f.unit = 30 then 6 else 5)

/-- BST_RESULT_POP (R374). -/
def State.popResult (s : State) : State :=
  let l := s.test.results.drop 1
  (s.setTest { s.test with results := l }).fbit BST_STATUS.FIFO 0 (!l.isEmpty)

def execBstResultPop (s : State) : Host.Outcome State Fault Refusal :=
  onUnit true (s.writeTo .BST_RESULT_POP 0 State.popResult)

/-! ### Named plans (R371 to R373) -/

def planLcs := 1
def planBusy := 2
def planReserved := 3
def planTarget := 4

/-- Whether the life-cycle state permits a plan (R372). -/
def State.planAllowed (s : State) (plan : Nat) : Bool :=
  if plan ≤ 3 then decide (s.lcs ≤ 3) else s.rwlOpen

/-- Sites with a field SITE entry in the defect ledger (R372). -/
def State.fieldDefect (s : State) (n : Nat) : Bool :=
  s.placer.defects.any fun d => d.kind == 1 && d.cause != 1 && d.location == n

/-- The sites that a plan tests. -/
def State.planSites (s : State) (plan mask : Nat) : List Nat :=
  (nat12.filter fun p => mask.testBit p).flatMap fun p => (sitesOf p).filter fun n =>
    if plan = 4 then (s.site n).state == .DEFECTIVE && s.fieldDefect n
    else (s.site n).state != .DEFECTIVE && (s.site n).state != .CUT

/-- A plan that runs outside the window cannot start (R373). -/
def State.planBlocked (s : State) (mask : Nat) : Bool :=
  (nat12.filter fun p => mask.testBit p).any fun p =>
    s.pwState p != pwActive || !s.up (domArr p) || s.fenced p || (s.clustersOn p).any fun L => (s.owner L).isSome

/-- The code of a plan's refusal; the order of the checks is DESIGN CHOICE. -/
def State.planRefusal (s : State) (plan mask cluster : Nat) : Nat :=
  if plan = 0 ∨ 6 < plan then planReserved
  else if !s.planAllowed plan then planLcs
  else if s.test.plan.isSome then planBusy
  else if (plan = 1 ∨ plan = 2 ∨ plan = 4) ∧ s.planBlocked mask then planBusy
  else if plan = 3 ∧ (287 < cluster ∨ (s.cl cluster).site.isNone) then planTarget
  else 0

/-- The outcome of a plan. -/
def State.planEnd (s : State) (plan code : Nat) : State :=
  (((s.fset BST_PLAN_STATUS.PLAN 0 plan).fset BST_PLAN_STATUS.CODE 0 code).fset BST_PLAN_STATUS.BUSY 0 0).fset
    BST_PLAN_STATUS.DONE 0 1

/-- A plan's summary (R374). -/
def State.planSummary (s : State) (plan outcome failed : Nat) : State :=
  s.result 2 outcome 0xFFFF
    (leBytes 8 s.tally.count ++ leBytes 1 plan ++ leBytes 1 2 ++ leBytes 1 outcome ++ leBytes 1 0 ++ leBytes 2 0xFFFF
      ++ leBytes 2 0 ++ leBytes 8 0 ++ leBytes 4 failed ++ leBytes 4 0)

/-- BST_PLAN_CTRL is written (R372): plan 0 is none. -/
def State.planWrite (s : State) (plan mask cluster : Nat) : State :=
  if plan = 0 then s
  else match s.planRefusal plan mask cluster with
  | 0 =>
    if plan = 3 then
      let n := ((s.cl cluster).site).getD 0
      let s := { s with placer := { s.placer with rotateNext := mput zeroNat s.placer.rotateNext (partOfSite n) (localIndex n) } }
      (s.planEnd 3 0).planSummary 3 outPass 0
    else if plan = 6 then
      ((s.setTest { s.test with raw := true }).planEnd 6 0).planSummary 6 outPass 0
    else
      let s := s.setTest { s.test with plan := some ⟨plan, mask, s.planSites plan mask, false⟩ }
      ((s.fset BST_PLAN_STATUS.PLAN 0 plan).fset BST_PLAN_STATUS.CODE 0 0).fset BST_PLAN_STATUS.BUSY 0 1
  | code =>
    if s.test.plan.isSome then s.fset BST_PLAN_STATUS.CODE 0 code else s.planEnd plan code

def execVaultFull (mask : Nat) (s : State) : Host.Outcome State Fault Refusal :=
  onUnit true (s.writeTo .BST_PLAN_CTRL 0 fun s => s.planWrite 1 mask 0)

def execScanFull (mask : Nat) (s : State) : Host.Outcome State Fault Refusal :=
  onUnit true (s.writeTo .BST_PLAN_CTRL 0 fun s => s.planWrite 2 mask 0)

def execScanNext (cluster : Nat) (s : State) : Host.Outcome State Fault Refusal :=
  onUnit (okCluster cluster) (s.writeTo .BST_PLAN_CTRL 0 fun s => s.planWrite 3 0 cluster)

def execRetest (mask : Nat) (s : State) : Host.Outcome State Fault Refusal :=
  onUnit true (s.writeTo .BST_PLAN_CTRL 0 fun s => s.planWrite 4 mask 0)

def execLedgerClear (s : State) : Host.Outcome State Fault Refusal :=
  onUnit true (s.writeTo .BST_PLAN_CTRL 0 fun s => s.planWrite 5 0 0)

def execRaw (s : State) : Host.Outcome State Fault Refusal :=
  onUnit true (s.writeTo .BST_PLAN_CTRL 0 fun s => s.planWrite 6 0 0)

/-- The record of a unit that a plan found failing (R374). -/
def State.planFailure (s : State) (plan : Nat) (f : UnitFailure) : State :=
  let kind := if f.unit = 30 then 1 else 0
  s.result kind outFailed (partOfSite f.site)
    (s.resultBytes plan kind outFailed f.unit f.site f.row f.element f.background f.pattern 0)

/-- The sites of a list of failures. -/
def failedSites (l : List UnitFailure) : List Nat := (l.map (·.site)).dedup

/-- The field SITE entries of a site leave the ledger in flash (R372). -/
def State.forgetDefects (s : State) (n : Nat) : State :=
  let l := s.placer.defects.filter fun d => !(d.kind == 1 && d.cause != 1 && d.location == n)
  { s with placer := { s.placer with defects := l } }.syncLedger

/-- A march of a whole site leaves background 1, which runs last, in every row of its units, with good parity (R365, R371). Its
clusters are reserved by no image, so that their words are free space. -/
def State.marchedWhole (s : State) (n : Nat) : State :=
  let s := s.forEach (s.site n).holds fun L s => s.updCl L fun k => { k with vault := [], bad := [] }
  (s.ungrounded n).updSite n fun x => { x with bad := [], marched := true }

/-- A plan found a failure: one of a site that it tests, by a march or by a scan as the plan runs them. No scan runs while the
pattern set is invalid (R368, R372). -/
def State.planFinds (s : State) (t : TestPlan) (f : UnitFailure) : Bool :=
  t.sites.contains f.site
    && (if f.unit = 30 then t.plan != 1 && !s.fon SCN_STATUS.PATTERNS_INVALID 0 else t.plan != 2)

/-- A plan ends: units that failed act at step 7, sites that RETEST found good become SPARE there. One that could not be
scanned, for want of a valid pattern set, has not passed: DESIGN CHOICE, log entry 45. -/
def State.planComplete (s : State) (found : List UnitFailure) : State :=
  match s.test.plan with
  | none => s
  | some t =>
    if !t.started then s
    else
      let failed := found.filter (s.planFinds t)
      let bad := failedSites failed
      let s := s.forEach failed fun f s => s.planFailure t.plan f
      let s := if t.plan = 1 ∨ t.plan = 4 then s.forEach t.sites fun n s => s.marchedWhole n else s
      let s := s.setTest { s.test with plan := none, clearDue := s.test.clearDue || t.plan == 5 }
      let s :=
        if t.plan = 4 then
          let good := if s.fon SCN_STATUS.PATTERNS_INVALID 0 then [] else t.sites.filter fun n => !bad.contains n
          let s := s.forEach good fun n s => s.forgetDefects n
          s.setTest { s.test with restored := s.test.restored ++ good }
        else if t.plan = 5 then s
        else s.setTest { s.test with
          confirmed := s.test.confirmed ++ failed.map fun f => ⟨f.site, f.unit, f.row⟩ }
      (s.planEnd t.plan 0).planSummary t.plan (if bad.isEmpty then outPass else outFailed) bad.length

def execPlanComplete (failed : List UnitFailure) (s : State) : Host.Outcome State Fault Refusal :=
  onUnit (failed.all UnitFailure.ok) (s.planComplete failed)

/-- A partition of the running plan leaves service: the plan is aborted (R374). -/
def State.abortPlan (s : State) (p : Nat) : State :=
  match s.test.plan with
  | some t =>
    if t.mask.testBit p then
      ((s.setTest { s.test with plan := none }).planEnd t.plan 0).planSummary t.plan outAborted 0
    else s
  | none => s

/-- Step 7: sites that passed RETEST become SPARE, unless something else has failed them since. -/
def State.restoreSites (s : State) : State :=
  let l := s.test.restored
  let s := s.setTest { s.test with restored := [] }
  s.forEach l fun n s => if s.fieldDefect n then s else s.updSite n fun x =>
    if x.state = .DEFECTIVE then { x with state := .SPARE, retire := none, window := [] } else x

/-! ### The pattern store (R368, R400) -/

/-- The pattern set failed its verification: the Nose reports it once (R368). -/
def State.patternsBad (s : State) : State :=
  let s := s.fset SCN_STATUS.PATTERNS_INVALID 0 1
  if s.test.invalidReported then s
  else (s.setTest { s.test with invalidReported := true }).report sevWarning blkSCN Uncoded.patternsInvalid.code 0xFFFF none []

/-- PATTERN_STORE_COPY_COMPLETE: the copy matches the digest measured in step 1, or the set is invalid. -/
def State.storeCopied (s : State) (ok : Bool) : State :=
  if s.bringUp.done < 5 then s
  else if ok then s.fset SCN_STATUS.STORED 0 1
  else s.patternsBad

def execPatternStoreCopyComplete (ok : Bool) (s : State) : Host.Outcome State Fault Refusal :=
  onUnit true (s.storeCopied ok)

/-! ### Raw access (R373) -/

/-- SCN_RAW_CTRL takes a write: RAW is enabled and RWL registers take writes; otherwise the write is counted. -/
def State.rawWrite (s : State) (op site unit row : Nat) (act : State → State) : State :=
  if s.test.raw && s.rwlOpen then
    let s := ((s.fset SCN_RAW_CTRL.OP 0 op).fset SCN_RAW_CTRL.UNIT 0 unit).fset SCN_RAW_CTRL.ROW 0 row
    let s := s.fset SCN_RAW_CTRL.SITE 0 site
    if ((s.site site).state == .SPARE || (s.site site).state == .DEFECTIVE) && s.up (domArr (partOfSite site))
      && (op == 1 || decide (row < unitRows unit)) then act s else s
  else s.finc SEC_STATUS.DENIED 0

def State.rawAddr (s : State) : Nat := s.fget SCN_RAW_ADDR.ADDR 0 * 64

/-- The word of a unit's row. -/
def State.rawWord (s : State) (n u row : Nat) : List Byte :=
  if u < 24 then mslice (s.site n).ground (s.site n).left (u / 8 * 2 ^ 22 + row * 256 + u % 8 * 32) 32
  else leBytes (unitWidth u) (mget s.cellGround s.test.cells ((n * 32 + u) * 2 ^ 14 + row))

/-- The word of a unit's row is written. -/
def State.setRawWord (s : State) (n u row : Nat) (b : List Byte) : State :=
  if u < 24 then s.updSite n fun x => { x with
    left := mrun x.ground x.left (u / 8 * 2 ^ 22 + row * 256 + u % 8 * 32) b }
  else s.setTest { s.test with cells := mput s.cellGround s.test.cells ((n * 32 + u) * 2 ^ 14 + row) (leNat b) }

/-- RAW_APPLY_PATTERNS: what the patterns find is not given a place to be read. -/
def execRawApplyPatterns (site : Nat) (s : State) : Host.Outcome State Fault Refusal :=
  onUnit (okSite site) (s.writeTo .SCN_RAW_CTRL 0 fun s => s.rawWrite 1 site 0 0 id)

def execRawReadWord (site unit row : Nat) (s : State) : Host.Outcome State Fault Refusal :=
  onUnit (okSite site) (s.writeTo .SCN_RAW_CTRL 0 fun s => s.rawWrite 2 site unit row fun s => s.hostWrite s.rawAddr (s.rawWord site unit row))

def execRawWriteWord (site unit row : Nat) (s : State) : Host.Outcome State Fault Refusal :=
  onUnit (okSite site) (s.writeTo .SCN_RAW_CTRL 0 fun s =>
    s.rawWrite 3 site unit row fun s => s.setRawWord site unit row (s.hostRead s.rawAddr (unitWidth unit)))

end Sys2Proof.Machine
end

