-- ==== Sys2Proof/Machine/RegRead.lean ====
section
/-! DEFINITION. What a register reads: the stored value, or the view of state that is kept elsewhere; the register blocks
of the device and the words a snapshot holds (21_address_map.md R442, R443; 20_nose_and_management.md R439). -/
namespace Sys2Proof.Machine

open Sys2Proof

/-! ### Views -/

/-- A register value from fields given by their lowest bit and value. -/
def packed (l : List (Nat × Nat)) : DWord := BitVec.ofNat 64 (l.map fun e => e.2 * 2 ^ e.1).sum

/-- STATE of TLR_STATUS (R128). -/
def RunState.teller : RunState → Nat
  | .idle => 0 | .running => 1 | .blocked => 2 | .wft => 3 | .finished => 4 | .faulted => 5

/-- STATE of VEC_STATUS (R128). -/
def RunState.vector : RunState → Nat
  | .running => 1 | .blocked => 2 | .faulted => 3 | .idle => 0 | .wft => 0 | .finished => 0

/-- MXC_STATUS (R101, R93). In the thermal floor the rate is 1 (R359). -/
def State.mxcStatus (s : State) (L : Nat) : DWord :=
  let m := (s.cl L).matrix
  let rate := if s.fon PWR_PART_STATUS.FLOOR (s.hostPart L) then 1
    else match s.owner L with
      | some c => s.cxRate c
      | none => 16
  packed [(16, rate), (12, (!m.jobs.isEmpty).toNat), (5, m.fifo), (0, m.queue.length)]

/-- PLC_CLUSTER (R247): its reset value until clusters are placed. -/
def State.plcCluster (s : State) (L : Nat) : DWord :=
  if !s.placed then s.rget .PLC_CLUSTER L
  else match (s.cl L).site with
    | none => 0
    | some n => packed [(31, 1), (30, (partOfSite n != partOf L).toNat), (29, decide ((s.site n).holds.length = 2) |>.toNat),
        (28, (s.cl L).moving.toNat), (20, partOfSite n), (0, if s.showSites then n else 0)]

/-- PLC_PART_SPARES (R247). -/
def State.plcSpares (s : State) (p : Nat) : DWord :=
  if !s.placed then s.rget .PLC_PART_SPARES p
  else
    let l := sitesOf p
    let count := fun (f : Site → Bool) => l.countP fun n => f (s.site n)
    let lentIn := (s.clustersOn p).countP fun L => partOf L != p
    let lentOut := allClusters.countP fun L => partOf L == p && (match (s.cl L).site with
      | some n => partOfSite n != p
      | none => false)
    packed [(26, min 31 lentIn), (21, lentOut), (16, count fun x => decide (x.holds.length = 2)),
      (11, count fun x => x.state == .DEFECTIVE || x.state == .CUT),
      (10, (l.any fun n => (s.site n).state == .ROTATING).toNat), (5, count fun x => x.state == .PARKED),
      (0, count fun x => x.state == .SPARE)]

/-- PLC_PART_ROTATE: the local indices read 0 in Production (R223). -/
def State.plcRotate (s : State) (p : Nat) : DWord :=
  let v := s.rget .PLC_PART_ROTATE p
  if s.showSites && s.placed then
    let spare := match (sitesOf p).find? fun n => (s.site n).state == .ROTATING with
      | some n => localIndex n
      | none => 0
    withField (withField v 12 8 spare) 4 0 (s.rotateNext p)
  else v

/-- FAB_BIND_B with SSEQ, the last half sealed or consumed. -/
def State.bindB (s : State) (k : Nat) : DWord :=
  let b := s.binding k
  withField (s.rget .FAB_BIND_B k) 63 48 (if s.fon FAB_BIND_A.DIR k then b.consume - 1 else b.nextSseq - 1)

/-- A mean of integers; how a mean between two integers is rounded is a free value (R429). -/
def meanOf (l : List Int) : Int :=
  let n := l.length
  let t := l.foldl (· + ·) 0
  if n = 0 then 0 else if t % (n : Int) = 0 then t / (n : Int) else t / (n : Int) + ((Config.meanUp t n).toNat : Int)

/-- The source of a sensor is on: the array of its partition for field temperatures and path slack, the die platform for
droops, the controller of a channel that works for DRAM reports. The buses of the board tell for the others (R428). -/
def State.sensorOn (s : State) (i : Nat) : Bool :=
  if i < 96 then s.up (domArr (i / 8))
  else if i < 108 then s.up (domPlat (dieOfPart (i - 96)))
  else if i < 120 then s.up (domArr (i - 108))
  else if i < 300 then true
  else s.memServes ((i - 300) / 32) && s.working ((i - 300) / 32) ((i - 300) % 32)

/-- The filtered value of a sensor: the mean of its last 8 samples (R429); none where its source does not answer. -/
def State.filtered (s : State) (i : Nat) : Option Int :=
  if !s.sensorOn i then none else
  match mget (fun _ => []) s.nose.samples i with
  | [] => none
  | l => if mget (fun _ => false) s.nose.absent i then none else some (meanOf (l.take 8))

/-- A filtered value as 32 bits; 0x8000_0000 where there is none (R428). -/
def State.sensorWord (s : State) (i : Nat) : Word :=
  match s.filtered i with
  | some v => BitVec.ofInt 32 v
  | none => 0x80000000#32

/-- Seconds of an unlock that remain (R427). -/
def State.unlockLeft (s : State) : Nat :=
  match s.security.unlockEnd with
  | some t => (t - s.tally.time + 10 ^ 8 - 1) / 10 ^ 8
  | none => 0

/-- A word of the result record at the head of the FIFO (R374). -/
def State.resultWord (s : State) (w : Nat) : Nat :=
  if s.lcs = 4 then 0 else match s.test.results with
    | [] => 0
    | r :: _ => rd r (4 * w) 4

/-- The staging entry that FAB_TABLE_INDEX selects at a port, its reserved bits 0 (R308). -/
def State.stagingEntry (s : State) (n : Nat) : Nat :=
  let i := s.fget FAB_TABLE_INDEX.INDEX n
  if s.fon FAB_TABLE_INDEX.SLOT n then
    let v := mget zeroNat (s.fp n).sstag i
    v % 4096 + 2 ^ 31 * bitsOf v 31 31
  else mget zeroNat (s.fp n).cstag i % 2 ^ 28

/-- The route entry that FAB_ROUTE_INDEX selects, as PD_FAB holds it (R298, R402). Fields that were written to FAB_ROUTE_LOW
and wait for FAB_ROUTE_HIGH are no part of it, DEDUCED. -/
def State.routeEntry (s : State) : Nat := mget zeroNat s.fabric.route (s.fget FAB_ROUTE_INDEX.MODULE 0)

/-- The escape entry for the last MODULE written (R304). -/
def State.escapeEntry (s : State) : Nat := mget zeroNat s.fabric.escape (s.fget FAB_ESCAPE.MODULE 0)

/-- What a register reads. Write-only fields read 0 (R7). -/
def State.readReg (s : State) (r : Reg) (i : Nat) : DWord :=
  match r with
  | .TLR_STATUS => let c := s.core i 0; packed [(16, c.run.teller), (0, c.pc % 2 ^ 14)]
  | .VEC_STATUS => let c := s.core (i / 2) (1 + i % 2); packed [(16, c.run.vector), (0, c.pc % 2 ^ 13)]
  | .MXC_STATUS => s.mxcStatus i
  | .MXC_COMPLETION => ((s.cl i).matrix.done.headD 0).setWidth 64
  | .MXC_AUDIT_COUNT => match (s.cl i).site with
    | some n => withField (s.rget r i) 31 28 (min 15 (s.windowHits n s.tally.count))
    | none => s.rget r i
  | .DMA_STATUS => packed [(8, (s.cl i).dma.done.length), (0, (s.cl i).dma.tags.length)]
  | .PLC_PRIORITY => packed [(0, s.tally.count % 16)]
  | .PLC_CLUSTER => s.plcCluster i
  | .PLC_PART_SPARES => s.plcSpares i
  | .PLC_PART_ROTATE => s.plcRotate i
  | .FAB_STATUS => packed ((List.range Config.nPorts).map fun n => (n, (s.fget FAB_PORT_STATUS.STATE n == 2).toNat))
  | .FAB_BIND_B => s.bindB i
  | .FAB_TABLE_DATA => packed [(0, s.stagingEntry i)]
  | .FAB_ROUTE_LOW => packed [(0, s.routeEntry % 2 ^ 60)]
  | .FAB_ROUTE_HIGH => packed [(31, s.routeEntry / 2 ^ 70), (0, bitsOf s.routeEntry 69 60)]
  | .FAB_ESCAPE => packed [(31, s.escapeEntry / 32), (16, s.escapeEntry % 32), (0, s.fget FAB_ESCAPE.MODULE 0)]
  | .NOS_SENSOR_VALUE => (s.sensorWord (s.fget NOS_SENSOR_INDEX.INDEX 0)).setWidth 64
  | .BST_RESULT => packed [(0, s.resultWord i)]
  | .TLY_COUNT => packed [(0, s.tally.count)]
  | .TLY_EDGE_CAPTURE => packed [(0, s.tally.edge)]
  | .TLY_TIME => packed [(0, s.tally.time)]
  | .TLY_STATUS => if s.fget TLY_SYNC.ROLE 0 ≤ 1 then withField (s.rget r i) 0 0 1 else s.rget r i
  | .ATT_DEVICE_ID => packed [(0, rd s.deviceId (4 * i) 4)]
  | .LCS_STATE => withField (withField (s.rget r i) 31 12 s.unlockLeft) 3 3 s.unlocked.toNat
  | .PCI_LINK => s.rget r i ||| packed [(3, Config.linkRate.val + 1), (6, 2 ^ Config.linkWidth.val),
      (11, (Config.linkRate == 5 || Config.linkFlit).toNat)]
  | _ => s.rget r i &&& ~~~(r.mask .WO)

/-- What a read returns: a value of RWT fields that waits for its boundary goes before the one in force (R7). -/
def State.shown (s : State) (r : Reg) (i : Nat) : DWord :=
  match mget (fun _ => none) s.rwt (regKey r i) with
  | some v => (s.readReg r i &&& ~~~(r.mask .RWT)) ||| (v &&& r.mask .RWT)
  | none => s.readReg r i

/-! ### Blocks and snapshots (R439) -/

/-- A block instance: its BAR0 base, the kind of its region, the region and the block's offset in it. -/
structure Block where
  base : Nat
  kind : RegKind
  region : Nat
  off : Nat
  deriving DecidableEq, Repr

/-- Every block instance, in the order of their bases (R441 to R443). -/
def allBlocks : List Block :=
  ((List.range 24).map fun b => ⟨b * 0x1000, .G, 0, b * 0x1000⟩)
  ++ ((List.range 24).map fun n => ⟨0x800000 + n * 0x20000, .F, n, 0⟩)
  ++ ((List.range 12).flatMap fun p => (List.range 6).map fun b =>
      ⟨0x1000000 + p * 0x200000 + b * 0x1000, .P, p, b * 0x1000⟩)
  ++ ((List.range 288).flatMap fun L => [0x0, 0x400, 0x800, 0xC00, 0x1000, 0x1400].map fun b =>
      ⟨0x3000000 + L * 0x4000 + b, .C, L, b⟩)
  ++ [⟨0x3F00000, .N, 0, 0⟩]

/-- The registers of a block kind that have a field of access RO or W1C, with the offset and number of each instance, in
offset order. -/
def blockRegs (k : RegKind) (off : Nat) : List (Nat × Reg × Nat) :=
  let one := fun (r : Reg) =>
    let i := r.info
    match i.dims with
    | [] => [(i.off, r, 0)]
    | [(d, n)] => (List.range n).map fun a => (i.off + a * d, r, a)
    | (d, n) :: (e, m) :: _ => (List.range n).flatMap fun a => (List.range m).map fun b => (i.off + a * d + b * e, r, a * m + b)
  let l := Reg.all.filter fun r => r.info.kind == k && r.info.block == off
    && r.info.fields.any fun f => f.access == .RO || f.access == .W1C
  sortBy (fun a b => decide (a.1 < b.1)) (l.flatMap one)

/-- A block can be latched: its domain is in service and not fenced, and a cluster's is placed (R439). -/
def State.blockValid (s : State) (b : Block) : Bool :=
  match b.kind with
  | .C => (s.cl b.region).site.isSome && s.up (domArr (s.hostPart b.region)) && !s.fenced (s.hostPart b.region)
  | .P => s.up (domPlat (dieOfPart b.region))
  | .F => s.up (domFab (dieOfPort b.region))
  | .N => s.up domAon
  | .G => if aonBlocks.contains b.off then s.up domAon else if b.off = 0x17000 then s.up domPcie else s.up (domPlat 0)

/-- The words of a block as a snapshot holds them: zeros where it is not valid. -/
def State.blockWords (s : State) (b : Block) : List Word :=
  let ok := s.blockValid b
  (blockRegs b.kind b.off).flatMap fun e =>
    let v := if ok then s.shown e.2.1 (b.region * e.2.1.info.instances + e.2.2) else 0
    if e.2.1.info.wide then [v.setWidth 32, (v >>> 32).setWidth 32] else [v.setWidth 32]

/-- The byte contents of a held snapshot: header, directory, data (R439). -/
def Snapshot.toBytes (x : Snapshot) : List Byte :=
  let n := x.blocks.length
  let header := leBytes 8 x.tally ++ leBytes 8 x.edge ++ leBytes 1 x.sources ++ leBytes 1 x.late.toNat
    ++ leBytes 2 x.origin ++ leBytes 2 x.id ++ leBytes 2 n ++ List.replicate 40 0
  let dir := (x.blocks.foldl (fun (a : List (List Byte) × Nat) b =>
    (a.1 ++ [leBytes 4 b.1 ++ leBytes 4 a.2 ++ leBytes 2 b.2.2.length ++ leBytes 1 b.2.1.toNat ++ List.replicate 5 0],
     a.2 + 4 * b.2.2.length)) ([], 64 + 16 * n)).1
  header ++ dir.flatten ++ x.blocks.flatMap fun b => b.2.2.flatMap fun w => leBytes 4 w.toNat

/-- Bytes of snapshot space; 0 beyond the held snapshot or without one (R444). -/
def State.snapshotBytes (s : State) (off n : Nat) : List Byte :=
  let l := match s.nose.snapshot with
    | some x => (x.toBytes.drop off).take n
    | none => []
  l ++ List.replicate (n - l.length) 0

end Sys2Proof.Machine
end

