-- ==== Sys2Proof/Machine/Nose.lean ====
section
/-! DEFINITION. The Nose (20_nose_and_management.md R428 to R440): sensors and requests, error records and their routes,
Aihar and MCTP, the management port, snapshots. -/
namespace Sys2Proof.Machine

open Sys2Proof

def State.setNose (s : State) (n : Nose) : State := { s with nose := n }

/-! ### Sensors and requests (R428 to R430) -/

/-- A condition that was set at the last sample. -/
def State.condition (s : State) (reason : Nat) : Bool := mget noBool s.nose.conditions reason

/-- Coolant inlet above its limit, with 2 °C of hysteresis. -/
def State.inletHigh (s : State) : Bool :=
  let t : Int := s.fget NOS_LIMITS.INLET 0 * 1000
  match s.filtered 248 with
  | none => false
  | some v => decide (v > t) || (s.condition 1 && !decide (v ≤ t - 2000))

/-- Coolant flow below its limit, with 2 % of hysteresis. -/
def State.flowLow (s : State) : Bool :=
  let t : Int := s.fget NOS_LIMITS.FLOW 0 * 10
  match s.filtered 250 with
  | none => false
  | some v => decide (v < t) || (s.condition 2 && !decide (100 * v ≥ 102 * t))

/-- A warning bit is set in the last status word of a regulator's rail. -/
def State.railWarns (s : State) : Bool :=
  (List.range 32).any fun r =>
    let v := s.rawSensor (120 + 4 * r + 3)
    v != noReading && Config.statusWarns v

/-- At least 8 entries to the thermal floor within the last second. -/
def State.oftenHot (s : State) : Bool := decide (8 ≤ s.nose.floorTimes.countP fun t => decide (s.tally.time < t + 10 ^ 8))

/-- The conditions of R430 by REASON. -/
def State.conditionsNow (s : State) : List (Nat × Bool) :=
  [(1, s.inletHigh), (2, s.flowLow), (3, s.railWarns), (4, s.oftenHot)]

/-- Watts rounded down to a multiple of 10, and at least 400. `w` is in tenths of a watt. -/
def capOf (w : Nat) : Nat := max 400 (w / 100 * 10)

/-- The CAP that a REASON requests (R430). -/
def State.requestCap (s : State) (reason : Nat) : Nat :=
  let cap := s.fget PWR_CAP.WATTS 0
  match reason with
  | 1 =>
    let hot := ((s.filtered 248).getD 0 - s.fget NOS_LIMITS.INLET 0 * 1000 + 999) / 1000
    capOf (s.fget PWR_MEASURE.PACKAGE 0 * (10 - hot.toNat))
  | 2 => 400
  | _ => capOf (9 * cap)

/-- Of the requests of the conditions that hold, the one of the lowest CAP; on a tie the lower REASON. -/
def lowestRequest : List (Nat × Nat) → Option (Nat × Nat)
  | [] => none
  | r :: t => match lowestRequest t with
    | some q => if q.2 < r.2 then some q else some r
    | none => some r

/-- CODE of the record of a request: the row of the table of conditions, REASON (R430, R432); that of a request withdrawn is a
free value. -/
def requestCode (reason : Nat) : Nat := if reason = 0 then Uncoded.request.code else reason

/-- PWR_REQUEST changes: one record and one REQUEST datagram (R430, R435), to each valid collector, with XID 0: DESIGN
CHOICE. -/
def State.setRequest (s : State) (reason cap : Nat) : State :=
  if s.fget PWR_REQUEST.REASON 0 = reason ∧ s.fget PWR_REQUEST.CAP 0 = cap ∧ s.fget PWR_REQUEST.STATE 0 = 7 then s
  else
    let s := ((s.fset PWR_REQUEST.CAP 0 cap).fset PWR_REQUEST.REASON 0 reason).fset PWR_REQUEST.STATE 0 7
    let s := s.report sevInfo blkNOS (requestCode reason) 0xFFFF none [(s.rget .PWR_REQUEST 0).setWidth 32]
    s.push 8 0 (leBytes 4 (s.rget .PWR_REQUEST 0).toNat)

/-- The conditions are found anew, and the request follows them while any holds. -/
def State.findRequest (s : State) : State :=
  let had := s.nose.conditions.any fun e => e.2
  let now := s.conditionsNow
  let held := (now.filter fun e => e.2).map (·.1)
  let s := s.setNose { s.nose with
    conditions := mputs noBool s.nose.conditions now
    lastCondition := if had || !held.isEmpty then some s.tally.time else s.nose.lastCondition }
  match lowestRequest (held.map fun r => (r, s.requestCap r)) with
  | some q => if s.up (domPlat 0) then s.setRequest q.1 q.2 else s
  | none => s

/-- The value of a sensor, none while its source is off; where the source is a block of the device (R428) droop assertions
since the last sample, or the report of a DRAM channel. Others bring their value. -/
def State.sampleOf (s : State) (i : Nat) (v : Option Int) : Option Int :=
  let p := i - 96
  if !s.sensorOn i then none
  else if 96 ≤ i ∧ i < 108 then
    let n := s.fget DRP_COUNT.COUNT p
    let old := mget zeroNat s.nose.droops p
    some ((if old ≤ n then n - old else n : Nat) : Int)
  else if 300 ≤ i then some (s.fget MEM_CH_STATE.TEMP (i - 300) : Int)
  else v

/-- DRP_COUNT as it was sampled. -/
def State.seeDroops (s : State) (i : Nat) : State :=
  if 96 ≤ i ∧ i < 108 then
    s.setNose { s.nose with droops := mput zeroNat s.nose.droops (i - 96) (s.fget DRP_COUNT.COUNT (i - 96)) }
  else s

/-- SENSOR_SAMPLE (R428, R429). The monitors of critical paths act on their own samples (R356). -/
def State.sensorSample (s : State) (i : Nat) (v : Option Int) : State :=
  let s := match v with
    | some x => if 108 ≤ i ∧ i < 120 ∧ s.up (domArr (i - 108)) then s.monitor (i - 108) (x / 1000).toNat else s
    | none => s
  if !s.fon NOS_STATUS.RUNNING 0 then s
  else
    let x := s.sampleOf i v
    let s := s.seeDroops i
    let s := match x with
      | some x => s.setNose { s.nose with
          absent := mput noBool s.nose.absent i false
          samples := mput (fun _ => []) s.nose.samples i ((x :: mget (fun _ => []) s.nose.samples i).take 8) }
      | none => s.setNose { s.nose with
          absent := mput noBool s.nose.absent i true, samples := mput (fun _ => []) s.nose.samples i [] }
    s.findRequest

def execSensorSample (sensor : Nat) (value : Option Int) (s : State) : Host.Outcome State Fault Refusal :=
  onUnit (okSensor sensor) (s.sensorSample sensor value)

/-- REQUEST_CLEAR: due when no condition has held for 10 s. -/
def State.requestClear (s : State) : State :=
  let quiet := match s.nose.lastCondition with
    | some t => decide (t + 10 ^ 9 ≤ s.tally.time)
    | none => true
  if s.fon NOS_STATUS.RUNNING 0 && s.up (domPlat 0) && quiet && !(s.nose.conditions.any fun e => e.2)
      && s.fget PWR_REQUEST.REASON 0 != 0 then s.setRequest 0 0
  else s

def execRequestClear (s : State) : Host.Outcome State Fault Refusal := onUnit true s.requestClear

/-! ### Error records (R433) -/

def execErrorRecord (record : ErrorRecord) (s : State) : Host.Outcome State Fault Refusal :=
  onUnit record.ok (s.accept record 1)

def noSeq : Nat → Option Nat := fun _ => none

/-- A collector has acknowledged a SEQ at or beyond `seq`. -/
def State.ackedBy (s : State) (k seq : Nat) : Bool :=
  match mget noSeq s.nose.acked k with
  | some n => decide (seq ≤ n)
  | none => false

/-- RECORD_RESEND: a record that a collector has not acknowledged is sent again. -/
def State.pushAgain (s : State) (k seq : Nat) : State :=
  match s.nose.log.find? fun r => r.seq == seq with
  | some r =>
    if s.collectors.contains k && s.aiharOn && !s.ackedBy k seq && s.fon NOS_STATUS.RUNNING 0 then
      s.sendDatagram (s.collectorAddr k) 9 0 seq 0 (r.toBytes false)
    else s
  | none => s

def execRecordResend (collector seq : Nat) (s : State) : Host.Outcome State Fault Refusal :=
  onUnit (decide (collector < 2)) (s.pushAgain collector seq)

/-! ### Operations (R431, R435 to R437) -/

def ansOk := 0
def ansRefused := 1
def ansRange := 2

/-- An operation of Aihar or MCTP; DOE carries attestation only, and the minimal responder answers STATUS and ATTEST only. -/
def State.managed (s : State) (source : Requester) (always : Bool) (act : State → State) : State :=
  if source == .doe || (s.fon NOS_STATUS.MINIMAL 0 && !always) then s else s.admitTo source act

/-- A register's bytes, 4 or 8. -/
def State.regBytes (s : State) (r : Reg) : List Byte := leBytes (if r.info.wide then 8 else 4) (s.readReg r 0).toNat

/-- STATUS. -/
def State.status (s : State) (source : Requester) (xid : Nat) : State :=
  s.managed source true fun s => s.reply source 0x01 ansOk xid
    ([Reg.LCS_STATE, .BRG_STATUS, .PWR_MEASURE, .PWR_REQUEST, .NOS_STATUS, .MEM_SUMMARY, .FAB_STATUS].flatMap s.regBytes)

def execStatus (source : Requester) (xid : Nat) (s : State) : Host.Outcome State Fault Refusal :=
  onUnit source.ok (s.status (s.seen source) xid)

/-- SENSORS: filtered values of sensors that exist, at most 256. -/
def State.sensors (s : State) (source : Requester) (xid first count : Nat) : State :=
  s.managed source false fun s =>
    if 256 < count ∨ 684 < first + count then s.reply source 0x02 ansRange xid []
    else s.reply source 0x02 ansOk xid ((List.range count).flatMap fun i => leBytes 4 (s.sensorWord (first + i)).toNat)

def execSensors (source : Requester) (xid first count : Nat) (s : State) : Host.Outcome State Fault Refusal :=
  onUnit source.ok (s.sensors (s.seen source) xid first count)

/-- RECORDS: from SEQ, or from the oldest held if that was overwritten. -/
def State.records (s : State) (source : Requester) (xid seq count : Nat) : State :=
  s.managed source false fun s =>
    if 20 < count then s.reply source 0x03 ansRange xid []
    else s.reply source 0x03 ansOk xid
      (((s.nose.log.filter fun r => decide (seq ≤ r.seq)).take count).flatMap fun r => r.toBytes false)

def execRecords (source : Requester) (xid seq count : Nat) (s : State) : Host.Outcome State Fault Refusal :=
  onUnit source.ok (s.records (s.seen source) xid seq count)

/-- ACK: the collectors at the source's address have the records up to SEQ; a record that every collector in use has leaves
the log (R433). -/
def State.aiharAck (s : State) (source : Requester) (xid seq : Nat) : State :=
  s.managed source false fun s =>
    let mine := match source with
      | .aihar a => s.collectors.filter fun k => s.collectorAddr k == a
      | _ => []
    let s := s.forEach mine fun k s => s.setNose { s.nose with
      acked := mput noSeq s.nose.acked k (some (max seq ((mget noSeq s.nose.acked k).getD 0))) }
    let s := s.setNose { s.nose with log := s.nose.log.filter fun r =>
      s.collectors.isEmpty || !(s.collectors.all fun k => s.ackedBy k r.seq) }
    s.reply source 0x04 ansOk xid []

def execAiharAck (source : Requester) (xid seq : Nat) (s : State) : Host.Outcome State Fault Refusal :=
  onUnit source.ok (s.aiharAck (s.seen source) xid seq)

/-! ### The management port (R434) -/

/-- A frame is taken while the link is up and the Nose firmware runs: one of at most 1,518 B, 1,522 B with a tag, and no
fragment; with ALLOW_ONLY one of a collector (R434, R436). -/
def State.frameTaken (s : State) (f : MgtFrame) : Bool :=
  s.fon MGT_CTRL.LINK 0 && s.fon NOS_STATUS.RUNNING 0 && !f.fragment
    && decide (f.length ≤ if f.tagged then 1522 else 1518)
    && (!s.fon MGT_CTRL.ALLOW_ONLY 0 || s.collectors.any fun k => s.collectorAddr k == f.source)

/-- A frame that is taken and asks for this station is answered. -/
def State.frameAnswer (s : State) (f : MgtFrame) (mine : Bool) (body : List Byte) : State :=
  if s.frameTaken f && mine then s.emit (.ethernet body) else s

/-- The IPv6 link-local address: its derivation from the MAC address is the modified EUI-64, PRESUMED, log entry 78. -/
def linkLocal : Nat :=
  let m := Config.mac.toNat
  0xFE80 * 2 ^ 112 + Nat.xor (m / 2 ^ 24) 0x020000 * 2 ^ 40 + 0xFFFE * 2 ^ 24 + m % 2 ^ 24

/-- The static IPv6 address; 0 for none. -/
def State.ipv6 (s : State) : Nat := ((List.range 4).map fun w => s.fget MGT_IPV6.ADDR w * 2 ^ (32 * w)).sum

/-- An address of this station, static or link-local. -/
def State.ownAddress (s : State) (ipv6 : Bool) (a : Nat) : Bool :=
  if ipv6 then decide (a = linkLocal ∨ (a = s.ipv6 ∧ a ≠ 0)) else decide (a = s.fget MGT_IPV4.ADDR 0 ∧ a ≠ 0)

def execArpRequest (frame : MgtFrame) (s : State) : Host.Outcome State Fault Refusal :=
  onUnit frame.ok (s.frameAnswer frame (s.ownAddress false frame.target) (leBytes 4 frame.target ++ leBytes 6 Config.mac.toNat))

def execIcmpEcho (frame : MgtFrame) (payload : List Byte) (s : State) : Host.Outcome State Fault Refusal :=
  onUnit frame.ok (s.frameAnswer frame (s.ownAddress frame.ipv6 frame.target) payload)

def execNeighborSolicitation (frame : MgtFrame) (s : State) : Host.Outcome State Fault Refusal :=
  onUnit frame.ok (s.frameAnswer frame (s.ownAddress true frame.target) (leBytes 16 frame.target ++ leBytes 6 Config.mac.toNat))

def execSgmiiLinkUp (s : State) : Host.Outcome State Fault Refusal := onUnit true (s.fset MGT_CTRL.LINK 0 1)

def execSgmiiLinkDown (s : State) : Host.Outcome State Fault Refusal := onUnit true (s.fset MGT_CTRL.LINK 0 0)

/-! ### Snapshots (R438 to R440) -/

/-- An Aihar trigger (bit 2 of SOURCES). -/
def State.snapshotTrigger (s : State) (source : Requester) (xid : Nat) : State :=
  s.managed source false fun s =>
    if s.up (domPlat 0) then (s.localTrigger 2).reply source 0x06 ansOk xid [] else s.reply source 0x06 ansRefused xid []

def execSnapshotTrigger (source : Requester) (xid : Nat) (s : State) : Host.Outcome State Fault Refusal :=
  onUnit source.ok (s.snapshotTrigger (s.seen source) xid)

/-- The bytes of snapshot space in BAR0 (R441). -/
def snapshotSpace : Nat := 0x700000

def State.snapshotRead (s : State) (source : Requester) (xid off n : Nat) : State :=
  s.managed source false fun s =>
    if snapshotSpace < off + n then s.reply source 0x07 ansRange xid []
    else s.reply source 0x07 ansOk xid (s.snapshotBytes off n)

def execSnapshotRead (source : Requester) (xid offset length : Nat) (s : State) : Host.Outcome State Fault Refusal :=
  onUnit source.ok (s.snapshotRead (s.seen source) xid offset length)

def execSnapshotHostTrigger (s : State) : Host.Outcome State Fault Refusal :=
  onUnit true (s.writeTo .SNP_CTRL 0 fun s => s.localTrigger 1)

/-- FULL is cleared and snapshot space is free (R439). -/
def State.snapshotRelease (s : State) : State := (s.setNose { s.nose with snapshot := none }).fset SNP_STATUS.FULL 0 0

def execSnapshotRelease (s : State) : Host.Outcome State Fault Refusal :=
  onUnit true (s.writeTo .SNP_RELEASE 0 State.snapshotRelease)

/-- A trigger fires at the boundary that opens the current tally: it names this tally, its cell came late, or it is a local
one for the tally after `old`. -/
def Trigger.due (t : Trigger) (old now : Nat) : Bool :=
  t.tally == now || t.late || (decide (t.source < 4) && decide (t.tally = (old + 1) % 2 ^ 64))

/-- The snapshot of this boundary, of sources `l`. -/
def State.snapshotOf (s : State) (l : List Trigger) : Snapshot :=
  let first := l.headD ⟨s.tally.count, 0, false, s.fget FAB_MODULE.MODULE 0, 0⟩
  { tally := s.tally.count, edge := s.tally.edge
    sources := ((List.range 5).map fun b => if l.any fun t => t.source == b then 2 ^ b else 0).sum
    late := l.any fun t => t.late, origin := first.origin, id := first.id
    blocks := allBlocks.map fun b => (b.base, s.blockValid b, s.blockWords b) }

/-- The tally trigger falls due (R438). -/
def State.tallyTrigger (s : State) : Bool := s.fon SNP_CTRL.TALLY_ENABLE 0 && s.fget SNP_TALLY.TALLY 0 == s.tally.count

/-- Step 2 (R438, R439): the triggers that fall due make one snapshot, or are counted once while one is held. A tally trigger
is one of the package's own, and occurs here (R440). -/
def State.latch (s : State) (old : Nat) : State :=
  let due := s.nose.triggers.filter fun t => t.due old s.tally.count
  let own := if s.tallyTrigger then
      [(⟨s.tally.count, 0, false, s.fget FAB_MODULE.MODULE 0, s.nose.nextId⟩ : Trigger)] else []
  let s := if s.tallyTrigger then s.ownTrigger s.tally.count else s
  let l := due ++ own
  let rest := s.nose.triggers.filter fun t => !t.due old s.tally.count
  if l.isEmpty then s
  else if s.fon SNP_STATUS.FULL 0 then (s.setNose { s.nose with triggers := rest }).finc SNP_STATUS.MISSED 0
  else
    let x := s.snapshotOf l
    let s := s.setNose { s.nose with triggers := rest, snapshot := some x }
    ((s.fset SNP_STATUS.FULL 0 1).fset SNP_STATUS.LATE 0 x.late.toNat).fset SNP_STATUS.SOURCES 0 x.sources

end Sys2Proof.Machine
end

