-- ==== Sys2Proof/Machine/Boundary.lean ====
section
/-! DEFINITION. What a boundary does to the segments of a context (02_tally.md R33 to R38; 08_dataflow_and_folios.md R181,
R188 to R191): discard, commit, stop, start, slip, and the bindings that go with a segment. -/
namespace Sys2Proof.Machine

open Sys2Proof

/-! ### Where a context stands -/

/-- A schedule runs: a folio is active, and the context is neither DONE nor STOPPED. -/
def State.scheduled (s : State) (c : Nat) : Bool :=
  s.imageActive c && decide (1 ≤ s.folState c) && decide (s.folState c ≤ folSlipped)

/-- The partitions on which a context is active: those that own its clusters, and those that hold them (R234). -/
def State.partsOf (s : State) (c : Nat) : List Nat := ((s.clustersOf c).flatMap fun L => [partOf L, s.hostPart L]).dedup

/-- A partition of the context's clusters is fenced. -/
def State.fencedParts (s : State) (c : Nat) : Bool := (s.partsOf c).any s.fenced

/-- Pages of a context lie in the stack of a partition. -/
def State.pagesIn (s : State) (c p : Nat) : Bool :=
  s.memory.pages.any fun e => e.1 / 2 ^ 20 == c && e.2.any fun t => t.1 == p

/-- A dependant of R382: it has pages in a fenced partition's stack, and no cluster there. -/
def State.depends (s : State) (c : Nat) : Bool :=
  s.scheduled c && !s.fencedParts c && decide ((s.cx c).hold ≠ .suspect)
    && nat12.any fun p => s.fenced p && s.pagesIn c p

/-- The bindings of a context's active folio by direction. -/
def State.bindingsDir (s : State) (c : Nat) (inbound : Bool) : List Nat :=
  (s.bindingsOf c).filter fun k => s.fon FAB_BIND_A.DIR k == inbound

/-- The ring regions of a cluster. -/
def State.ringRegions (s : State) (L : Nat) : List Nat := (List.range 16).filter fun r => (s.region L r).kind == 4

/-! ### A segment is discarded (R34, R91, R181, R255, R263, R312, R314) -/

/-- A core after its segment was discarded; a fault stays shown. -/
def Core.dropped (k : Core) : Core :=
  match k.run with
  | .faulted => { k with tryWait := none }
  | _ => { k with run := .idle, wait := none, tryWait := none }

/-- What a cluster abandons with its segment: core states, descriptors, completion entries, requests, sends. -/
def Cluster.abandon (k : Cluster) : Cluster :=
  { k with cores := k.cores.map Core.dropped, matrix := { Matrix.init with serial := k.matrix.serial }, dma := ⟨[], []⟩
           sends := Vector.replicate 3 none, inSegment := false }

/-- Open halves are emptied, and inbound halves will be passed again whole. -/
def State.dropHalves (s : State) (c : Nat) : State :=
  s.forEach (s.bindingsOf c) fun k s =>
    let b := s.binding k
    s.setBinding k { b with open_ := none, halves := b.halves.map fun h => { h with passed := [] } }

/-- A memory of a cluster's core that faulted is loaded again before the segment runs again (R126). -/
def State.reloadFaulted (s : State) (c L : Nat) : State :=
  if (s.cl L).reload then (s.updCl L fun k => { k with reload := false }).loadAgain c L else s

/-- The running segment of a context is discarded without commit. A last segment will run again as a last segment; a
switch that is due stays due, with its drain. -/
def State.dropRun (s : State) (c : Nat) : State :=
  let l := s.clustersOf c
  let s := s.forEach l fun L s => (s.repairVault L).updCl L Cluster.abandon
  let s := ((s.sweepMesh c false).dropHalves c).resetEndpoints c
  let s := s.forEach l fun L s => (s.forEach (s.ringRegions L) fun r s => s.revertRing L r).reloadFaulted c L
  let due := (s.cx c).switchDue
  let s := s.updCx c fun x => { x with
    segment := false, rerunMark := false, metFence := false, faultParts := [], skips := 0
    withheld := due && x.withheld, drainedAt := if due then x.drainedAt else none }
  if s.folState c = folDrained ∧ !due then s.setFol c folDraining else s

/-! ### A context stops (R38, R190, R338, R386) -/

/-- Completion statuses of conditions (R339). -/
def csScheduleEnd := 1
def csOverrun := 2
def csDrainTimeout := 7
def csQuarantined := 9
def csHostStop := 0xB

/-- A condition record is due at step 11. -/
def State.condition11 (s : State) (c status : Nat) : State :=
  s.updRing c fun r => { r with conditions := r.conditions ++ [status] }

def State.setRecovery (s : State) (r : Recovery) : State := { s with recovery := r }

/-- The replay that runs ends. -/
def State.endReplay (s : State) (c : Nat) : State :=
  ((s.setRecovery { s.recovery with replaying := none }).fset RST_CX_STATUS.REPLAYING c 0).fset RST_STATUS.REPLAYING 0 0

/-- A suspect of a reset that is not over: its clusters start nothing but its own replay (R382, R385). -/
def State.isSuspect (s : State) (c : Nat) : Bool := (s.cx c).hold == .suspect || s.fon RST_CX_STATUS.SUSPECT c

/-- STOPPED; a pending switch stays pending, and a replay of the context ends. A suspect that is stopped has nothing to replay,
and, unless its replay hung again, stays a suspect until the replays end: DEDUCED, log entry 46. -/
def State.hold (s : State) (c : Nat) (h : Hold) : State :=
  let stays := s.isSuspect c && h != .quarantine
  let s := if s.recovery.replaying = some c then s.endReplay c else s
  let s := s.updCx c fun x => { x with
    hold := h, faultMark := none, discarded := false, replayPass := stays && (x.replayPass || x.discarded), hung := false
    hostReset := false }
  (((s.fbit RST_CX_STATUS.SUSPECT c stays).fset HNG_CX_WAIT.COUNT c 0).fset HNG_CX_WAIT.RERUNS c 0).setFol c folStopped

/-- What has become of a mark for Fault whatever the policy and state of its context (R142, R194, R236): lost data, a lost
placement, a load that read poison. -/
def keptMark (m : Option Nat) : Option Nat := m.filter fun st => st == 5 || st == 6 || st == 8

/-- A mark for Fault acts: the context runs its schedule, or the mark is one of those that always act and the context is DONE
or STOPPED. -/
def State.markActs (s : State) (c st : Nat) : Bool :=
  s.scheduled c || (s.imageActive c && s.folState c != folNone && (keptMark (some st)).isSome)

/-- The context is handled as under Fault with a completion status (R38). One that is STOPPED stays as it was stopped. -/
def State.stopFault (s : State) (c status : Nat) (h : Hold) : State :=
  let h := if s.folState c = folStopped then (s.cx c).hold else h
  let s := (s.dropRun c).updCx c fun x => { x with decision := .fault }
  let s :=
    if status = csOverrun then
      (s.finc TLY_CX_OVERRUN.FAULTS c).report sevError blkTLY 2 0xFFFF (some c) []
    else if status = csDrainTimeout then (s.folioCondition c 4).report sevError blkFOL 4 0xFFFF (some c) []
    else s
  (s.condition11 c status).hold c h

/-- The state that a stopped context shows once it goes on (R190, R338): one that was DONE is DONE again. -/
def State.resumed (s : State) (c : Nat) : Nat :=
  let x := s.cx c
  if x.wasDone then folDone
  else if x.switchDue then (if x.drainedAt.isSome then folDrained else folSlipped)
  else if x.lastSegment then folDraining else folRunning

/-- RESUME (R338, R386, R387): of a context that is not STOPPED it fails. A suspect waits on for the end of the replays; a
context that was stopped before its folio 0 was active starts with it. -/
def State.resume (s : State) (c : Nat) : Option (Nat × Nat) × State :=
  if s.folState c = folStopped then
    let x := s.cx c
    let suspect := s.isSuspect c
    let s := s.setFol c (s.resumed c)
    let s := (s.updCx c fun x => { x with
      hold := if suspect then .suspect else .none, faultMark := none, rerunMark := false, wasDone := false
      activatedAt := none }).fset RST_CX_STATUS.QUARANTINED c 0
    (some (0, 0), if x.activatedAt.isSome then s.switchTo c 0 true else s)
  else (some (stCmdState, 0), s)

/-! ### A segment is committed (steps 3 and 4) -/

/-- A slot stays incomplete at a commit (R168). -/
def RowSlot.incomplete (x : RowSlot) (run n : Nat) : Bool := x.run == run && decide (0 < x.count) && decide (x.count < n)

/-- The clearing groups of a context's active folio, each with the slots that are incomplete at the commit. -/
def State.readClearing (s : State) (c : Nat) : List (ClearingRec × Nat) × State :=
  match s.image c with
  | none => ([], s)
  | some im =>
    (im.clearing.filter fun g => g.folio == s.activeFolio c).foldl (fun acc g =>
      let (l, s) := acc.2.readSlots g
      (acc.1 ++ [(g, l.countP fun x => x.incomplete (s.cx c).runNumber g.contributions)], s)) ([], s)

/-- CLR_INCOMPLETE: counted and reported; the slots are left. -/
def State.noteIncomplete (s : State) (c : Nat) (l : List (ClearingRec × Nat)) : State :=
  s.forEach (l.filter fun e => e.2 != 0) fun e s =>
    (s.fadd MSH_CLR_ERROR.INCOMPLETE (s.hostPart e.1.root) e.2).clearCondition c e.1.tag 5 e.1.root

/-- HALF_SEAL: the open half takes the next SSEQ (R312). -/
def State.sealHalf (s : State) (k : Nat) : State :=
  let b := s.binding k
  match b.open_ with
  | some l => (s.setBinding k { b with
      open_ := none, sealed := b.sealed ++ [⟨b.nextSseq, l, false, 0, 0, []⟩], nextSseq := b.nextSseq + 1 }).halfCredits k 0
  | none => s

/-- The half that the segment consumed is freed, and the next but one is granted (R313, R314); while the context drains,
nothing is granted (R188). -/
def State.freeHalf (s : State) (k : Nat) (withheld : Bool) : State :=
  let b := s.binding k
  let n := b.consume
  let s := s.setBinding k { b with
    halves := b.halves.filter fun h => h.sseq != n, consume := n + 1
    granted := (b.granted.filter (· != n)) ++ if withheld then [] else [n + 2] }
  if withheld then s else s.sendCredit k 0 (n + 2) 0

/-- A cluster after the commit: its teller shows that it finished; entries that were not popped are discarded (R106). -/
def Cluster.committed (k : Cluster) : Cluster :=
  { k with matrix := { Matrix.init with serial := k.matrix.serial }, dma := ⟨[], []⟩, sends := Vector.replicate 3 none
           inSegment := false }

/-- Step 3: a finished segment is committed (R33, R181); `clearing` are its groups with their incomplete slots. -/
def State.commitRun (s : State) (c : Nat) (clearing : List (ClearingRec × Nat)) : State :=
  let s := (s.discardLeftovers c).noteIncomplete c clearing
  let s := s.forEach (s.bindingsDir c false) fun k s => s.sealHalf k
  let s := s.forEach (s.bindingsDir c true) fun k s => s.freeHalf k (s.cx c).withheld
  let s := s.forEach (s.clustersOf c) fun L s => s.updCl L Cluster.committed
  let s := s.fset HNG_CX_WAIT.RERUNS c 0
  (s.updRing c fun r => { r with committed := r.committed + 1, segDone := true }).updCx c fun x => { x with
    segment := false, decision := .commit, skips := 0, metFence := false, faultParts := []
    switchDue := x.switchDue || x.lastSegment }

/-- A finished segment is committed, unless the look at its clearing slots meets a parity error, which marks it for rerun
(R141): then `again` decides. -/
def State.closeSegment (s : State) (c : Nat) (again : State → State) : State :=
  let (l, s) := s.readClearing c
  if (s.cx c).rerunMark then again s else s.commitRun c l

/-- Step 4 for a committed segment: CURRENT flips in the clusters that the folio uses (R135), TLR_CYCLES takes their cycles
(R106), every ring of the context commits (R255), and the segment is counted. -/
def State.commitData (s : State) (c : Nat) : State :=
  if (s.cx c).decision = .commit then
    let s := s.forEach (s.folioClusters c) fun L s =>
      let s := s.forEach (List.range 16) fun r s =>
        if (s.region L r).kind = 2 then s.fset VLT_REGION.CURRENT (16 * L + r) (1 - (s.region L r).current) else s
      s.fset TLR_CYCLES.CYCLES L (s.cl L).finishCycles
    let s := s.forEach (s.clustersOf c) fun L s => s.forEach (s.ringRegions L) fun r s => s.commitRing L r
    s.fset FOL_CX_COMMITTED.COUNT c ((s.fget FOL_CX_COMMITTED.COUNT c + 1) % 2 ^ 32)
  else s

/-! ### A segment starts (step 13) -/

/-- TARGET and STAGED show the pending switch (R172, R193). -/
def State.syncTarget (s : State) (c : Nat) : State :=
  if (s.cx c).lastSegment then
    let t := s.targetOf c
    if s.fget FOL_CX_STATE.TARGET c = t then s else (s.fset FOL_CX_STATE.TARGET c t).fset FOL_CX_STATE.STAGED c 0
  else s

/-- A context starts its segment (R104, R165, R172, R188): the run number counts on, and the clusters that wait for nothing
start. -/
def State.startSegment (s : State) (c : Nat) : State :=
  let last := (s.cx c).lastSegment || (s.cx c).nextApplied || s.lastByRepeat c
  let s := s.updCx c fun x => { x with
    segment := true, runNumber := x.runNumber + 1, lastSegment := last, nextApplied := false, withheld := false
    drainedAt := none }
  let s := if last then (s.setFol c folDraining).syncTarget c else s
  let s := { s with mesh := { s.mesh with doneGroups := s.mesh.doneGroups.filter fun e => e.1 != c } }
  let s := s.forEach (s.bindingsDir c false) fun k s => s.openHalf k
  let s := s.forEach (s.bindingsDir c true) fun k s => s.passTokens k
  s.forEach (s.folioClusters c) fun L s => s.startIfReady c L

/-- The context may start a segment: its folio runs, no switch is due, nothing holds it, no fence stands in its way. -/
def State.mayStart (s : State) (c : Nat) : Bool :=
  s.imageActive c && (s.folState c == folRunning || s.folState c == folDraining) && !(s.cx c).segment
    && !(s.cx c).switchDue && (s.cx c).faultMark.isNone && !s.fencedParts c && !s.depends c
    && ((s.cx c).hold == .none || (s.recovery.replaying == some c && !(s.cx c).replayPass))

/-! ### Step 8 (R170, R173, R189 to R191) -/

/-- Slip (R190). -/
def State.slip (s : State) (c : Nat) : State :=
  let s := (s.finc FOL_CX_DRAIN.OVERRUNS c).finc FOL_CX_DRAIN.CONSECUTIVE c
  let s := ((s.folioCondition c 3).report sevWarning blkFOL 3 0xFFFF (some c) []).setFol c folSlipped
  let n := s.fget FOL_DRAIN_LIMIT.LIMIT 0
  if n ≠ 0 ∧ n ≤ s.fget FOL_CX_DRAIN.CONSECUTIVE c then s.markFault c csDrainTimeout else s

/-- Marks raised since step 3 act at this boundary. -/
def State.actMark (s : State) (c : Nat) : State :=
  match (s.cx c).faultMark with
  | some st => if s.markActs c st then s.stopFault c st .fault else s
  | none => s

/-- Step 8 for one context. -/
def State.switchStep (s : State) (c : Nat) : State :=
  let s := s.actMark c
  let x := s.cx c
  if !s.imageActive c then s
  else match x.activatedAt with
  | some t =>
    if t < s.tally.edge ∧ s.folState c ≠ folStopped then
      ((s.updCx c fun x => { x with activatedAt := none, inReset := false }).switchTo c 0 true).actMark c
    else s
  | none =>
    if s.folState c = folDone ∧ x.nextApplied then
      if s.targetOf c = 4095 then (s.fset FOL_CX_NEXT.VALID c 0).updCx c fun x => { x with nextApplied := false }
      else s.switchTo c (s.targetOf c) false
    else if x.switchDue && s.scheduled c && (x.hold == .none || (x.hold == .suspect && x.replayPass)) && !s.fencedParts c then
      if s.drainedBefore c then
        if s.targetOf c = 4095 then (s.enterDone c).condition11 c csScheduleEnd
        else s.switchTo c (s.targetOf c) false
      else s.slip c
    else s

end Sys2Proof.Machine
end

