-- ==== Sys2Proof/Machine/Recovery.lean ====
section
/-! DEFINITION. Recovery (17_fault_recovery.md R376 to R388) and the decisions of step 3 (R33, R34, R38, R379): hangs,
fences, partition resets, replays, context resets. -/
namespace Sys2Proof.Machine

open Sys2Proof

def State.setPartReset (s : State) (p : Nat) (r : Option PartReset) : State :=
  s.setRecovery { s.recovery with parts := mput (fun _ => none) s.recovery.parts p r }

/-- The platform of a die is in reset (R389). -/
def State.dieReset (s : State) (d : Nat) : Bool := mget noBool s.recovery.dies d

/-! ### The wait graph (R377, R378) -/

/-- The clusters of the sites where delay of a receiving endpoint is parked (R186); a spare site has no unit of its own that
could wait, DEDUCED, log entry 46. -/
def State.parkedWith (s : State) (c M q : Nat) : List Nat :=
  (s.placer.depths.filter fun d => d.cx == c && d.folio == s.activeFolio c && d.cluster == M && d.ep == q).flatMap fun d =>
    match d.parkSite with
    | some n => (s.site n).holds
    | none => []

/-- What a unit of a cluster waits on: clusters, or none for the outside of the package. Where delay of the receiving endpoint
is parked, the wait is on the site that holds it and on the cluster with the endpoint, and a cluster's own cores and engines are
that cluster: DEDUCED, log entry 46. -/
def State.waitsOn (s : State) (c L n : Nat) (w : Wait) : List (Option Nat) :=
  match w with
  | .credit q => match s.ep L q with
    | some e => if e.fabric then [none] else some e.peer :: (s.parkedWith c e.peer e.peerEp).map some
    | none => []
  | .token q => match s.ep L q, s.image c with
    | some e, some im =>
      if e.fabric then [none] else (im.producers (s.activeFolio c) L q).map fun p => some p.1
    | _, _ => []
  | .answer => match s.sendOf L n with
    | some x => (s.msgHolder L x.msg).toList.map some
    | none => []
  | .ring M => [some M]
  | _ => [some L]

/-- What a blocked core waits on: its blocking form, or a try form that found its resource absent and has made no progress
since. -/
def Core.blockedOn (k : Core) (progress : Nat) : Option Wait :=
  match k.run with
  | .blocked => k.wait
  | .running => match k.tryWait with
    | some (w, p) => if p = progress then some w else none
    | none => none
  | _ => none

/-- The matrix core has work, or the DMA engine. -/
def Matrix.working (m : Matrix) : Bool := !m.queue.isEmpty || !m.jobs.isEmpty
def Dma.working (d : Dma) : Bool := !d.reqs.isEmpty

/-- An engine that a core waits on has work: a wait on one that has none is no part of a closed set. -/
def Cluster.waitWorks (k : Cluster) (w : Wait) : Bool :=
  match w with
  | .matrixSlot | .matrixEntry => k.matrix.working
  | .dmaTag | .dmaEntry => k.dma.working
  | _ => true

/-- What the matrix core and the DMA engine wait on: stream destinations, peers, remote modules. -/
def State.engineWaits (s : State) (c L : Nat) : List (Option Nat) :=
  let k := s.cl L
  (k.matrix.jobs.flatMap fun j =>
    if descDest j.desc = 1 then s.waitsOn c L 0 (.credit (dfield j.desc 13 31 16)) else [])
  ++ k.dma.reqs.flatMap fun q =>
    if q.op = 7 then [some q.peer]
    else if q.op = 8 then match s.halo c L q.peer with
      | some h => [some h.dst]
      | none => []
    else if 9 ≤ q.op then [none] else []

/-- Every unit of the cluster that is at work is blocked, and there is one. -/
def State.stuck (s : State) (L : Nat) : Bool :=
  let k := s.cl L
  let l := k.cores.toList
  k.inSegment && !s.finished L && k.loading.isNone && !k.moving
    && l.all (fun x => x.run != .running || (x.blockedOn k.progress).isSome)
    && l.all (fun x => match x.blockedOn k.progress with
      | some w => k.waitWorks w
      | none => true)
    && (l.any (fun x => (x.blockedOn k.progress).isSome || (x.run == .wft && !s.allDone L)) || k.matrix.working || k.dma.working)

/-- Everything that the units of a cluster wait on. -/
def State.clusterWaits (s : State) (c L : Nat) : List (Option Nat) :=
  let k := s.cl L
  ((List.range 3).flatMap fun n => match (s.core L n).blockedOn k.progress with
    | some w => s.waitsOn c L n w
    | none => []) ++ s.engineWaits c L

/-- The largest part of `l` whose waits lie in it; `fuel` bounds the search. -/
def closedPart (waits : Nat → List (Option Nat)) : Nat → List Nat → List Nat
  | 0, l => l
  | fuel + 1, l => closedPart waits fuel (l.filter fun L => (waits L).all fun w => match w with
    | some M => l.contains M
    | none => false)

/-- The largest closed set in a list of a context's clusters. -/
def State.closedIn (s : State) (c : Nat) (l : List Nat) : List Nat := closedPart (s.clusterWaits c) l.length l

/-- A context whose segment may hang: its overruns are skipped (R379), and its replay is judged by R386. -/
def State.watched (s : State) (c : Nat) : Bool :=
  s.scheduled c && (s.cx c).segment && (s.cx c).hold == .none && s.fget TLY_CX_POLICY.POLICY c == 0
    && s.fget TLY_CX_POLICY.SKIP_LIMIT c != 0

/-- The closed set of a context: its clusters that are blocked, none of which progressed since the boundary before (R378). -/
def State.closedSet (s : State) (c : Nat) : List Nat :=
  if s.watched c then
    s.closedIn c ((s.clustersOf c).filter fun L => s.stuck L && (s.cl L).progress == (s.cl L).progressSeen)
  else []

/-- The closed set that was found so at `n` boundaries in a row, this one among them. -/
def State.closedFor (s : State) (c n : Nat) : List Nat :=
  s.closedIn c ((s.closedSet c).filter fun L => decide (n ≤ (s.cl L).closedRun + 1))

/-- For how many boundaries in a row some closed set was found, this one among them. -/
def State.closedCount (s : State) (c : Nat) : Nat :=
  (((s.closedSet c).map fun L => (s.cl L).closedRun + 1).filter fun n => !(s.closedFor c n).isEmpty).foldl max 0

def State.hangWindow (s : State) : Nat := max 1 (s.fget HNG_CTRL.WINDOW 0)

/-- The closed set that hangs: found so at WINDOW boundaries in a row. -/
def State.hangSet (s : State) (c : Nat) : List Nat := s.closedFor c s.hangWindow

/-- A hang of the context is to be declared. -/
def State.hangDue (s : State) (c : Nat) : Bool := !(s.hangSet c).isEmpty && !(s.cx c).hung

/-! ### Fences and suspects (R380 to R382) -/

/-- A context becomes a suspect: its segment is discarded throughout the package. With `replay` it waits for its replay;
one that ran no segment has nothing to replay, and waits for the end of the others'. -/
def State.suspect (s : State) (replay : Bool) (c : Nat) : State :=
  let x := s.cx c
  if s.recovery.replaying = some c then
    let s := (s.dropRun c).endReplay c
    (s.fset RST_CX_STATUS.SUSPECT c 1).updCx c fun x => { x with decision := .discard, replayBoundaries := 0 }
  else if s.isSuspect c then s
  else if s.scheduled c then
    let s := (s.dropRun c).updCx c fun y => { y with
      hold := .suspect, decision := .discard, hung := false, faultMark := keptMark y.faultMark
      discarded := replay && x.segment, replayPass := replay && !x.segment, replayBoundaries := 0 }
    ((s.fset RST_CX_STATUS.SUSPECT c 1).fset HNG_CX_WAIT.COUNT c 0).fset HNG_CX_WAIT.RERUNS c 0
  else
    (s.updCx c fun y => { y with hold := if s.folState c = folStopped then y.hold else .suspect, replayPass := replay }).fset
      RST_CX_STATUS.SUSPECT c 1

/-- The causes of RST_PART_STATUS.CAUSE. -/
def causeHang := 0
def causeRerun := 1
def causeHost := 2

/-- DEPENDANT follows R382. -/
def State.syncDependants (s : State) : State :=
  s.forEach contexts fun c s => s.fbit RST_CX_STATUS.DEPENDANT c (s.depends c)

/-- Step 1 of R383: the fence of a partition is raised; one that is fenced already stays so. -/
def State.raiseFence (s : State) (cause : Nat) (replay : Bool) (p : Nat) : State :=
  if s.fenced p then s
  else
    let s := ((s.fset FNC_PART_STATUS.FENCED p 1).fset FNC_PART_STATUS.DRAINING p 1).fset RST_PART_STATUS.STEP p 2
    let s := (s.fset RST_PART_STATUS.CAUSE p cause).setPartReset p (some ⟨s.tally.time, replay, false, s.acceptedAt p⟩)
    (((s.abortPlan p).abortSlices p).forEach (s.suspectsAt p) fun c s => s.suspect replay c).syncDependants

/-- Bits of the partitions in a list. -/
def partMask (l : List Nat) : Nat := (nat12.map fun p => if l.contains p then 2 ^ p else 0).sum

/-- A hang is declared (R378, R379): counted, recorded and reported; with AUTO the partitions that hold the set are reset. -/
def State.declareHang (s : State) (c : Nat) : State :=
  let l := s.hangSet c
  let parts := (l.map s.hostPart).dedup
  let auto := s.fon HNG_CTRL.AUTO 0
  let s := (s.finc HNG_COUNT.DECLARED 0).fset HNG_LAST.TALLY 0 s.count32
  let s := (s.fset HNG_LAST.CONTEXT 0 c).fset HNG_LAST.CLUSTER 0 (l.foldl min (l.headD 0))
  let s := s.fset HNG_LAST.PARTITIONS 0 (if auto then partMask parts else 0)
  let s := s.report sevError blkHNG 1 0xFFFF (some c) []
  let s := s.updCx c fun x => { x with hangNow := true, hung := !auto }
  if auto then
    let suspects := (parts.flatMap s.suspectsAt).dedup
    (s.setRecovery { s.recovery with hang := s.recovery.hang ++ [suspects] }).forEach parts fun p s =>
      s.raiseFence causeHang true p
  else s

/-- HANG_DECLARED: the decision that heads step 3 for a context. -/
def State.hangDeclared (s : State) (c : Nat) : State := if s.hangDue c then s.declareHang c else s

def execHangDeclared (cx : Nat) (s : State) : Host.Outcome State Fault Refusal := onUnit (okCx cx) (s.hangDeclared cx)

/-- The hang evaluation of a boundary: the decision, and the boundaries that closed sets have lasted. -/
def State.hangStep (s : State) (c : Nat) : State :=
  let l := s.closedSet c
  let n := s.closedCount c
  let s := s.hangDeclared c
  let go := n != 0 && (s.cx c).hold == .none
  let s := s.fset HNG_CX_WAIT.COUNT c (if go then min 255 n else 0)
  let s := if go then s else s.updCx c fun x => { x with hung := false }
  s.forEach (s.clustersOf c) fun L s => s.updCl L fun k => { k with
    progressSeen := k.progress, closedRun := if go && l.contains L then k.closedRun + 1 else 0 }

/-- A rerun that falls due after RERUN_LIMIT consecutive ones, replays included; a hang declared at the same boundary takes its
place (R379). -/
def State.rerunLimitDue (s : State) (c : Nat) : Bool :=
  let n := s.fget HNG_CTRL.RERUN_LIMIT 0
  s.scheduled c && ((s.cx c).hold == .none || s.recovery.replaying == some c) && !(s.cx c).hangNow && (s.cx c).rerunMark && !(s.cx c).faultParts.isEmpty && n != 0
    && decide (n ≤ s.fget HNG_CX_WAIT.RERUNS c)

/-- RERUN_LIMIT: the partitions that hold the sites which reported the faults are reset with cause RERUN, each counted. -/
def State.rerunLimit (s : State) (c : Nat) : State :=
  if s.rerunLimitDue c then
    s.forEach ((s.cx c).faultParts.dedup.filter fun p => !s.fenced p) fun p s =>
      (s.finc HNG_COUNT.RERUN 0).raiseFence causeRerun true p
  else s

def execRerunLimit (cx : Nat) (s : State) : Host.Outcome State Fault Refusal :=
  onUnit (okCx cx) (if s.hangDue cx then s else s.rerunLimit cx)

/-! ### Partition resets by the host (R376, R383) -/

/-- RST_PART_CTRL takes a write: it is RWT. -/
def execPartitionResetRequest (mask : Nat) (replay : Bool) (s : State) : Host.Outcome State Fault Refusal :=
  onUnit true (s.writeTo .RST_PART_CTRL 0 fun s =>
    s.putRwt .RST_PART_CTRL 0 (some (BitVec.ofNat 64 (mask % 2 ^ 12 + 2 ^ 12 * replay.toNat))))

/-- A pending value of an RWT register is taken. -/
def State.takeRwt (s : State) (r : Reg) (i : Nat) : Option DWord × State :=
  (mget (fun _ => none) s.rwt (regKey r i), s.putRwt r i none)

/-- Step 3 applies RST_PART_CTRL: a partition that is fenced, or whose die is in reset, is left, and the command counted. -/
def State.hostResets (s : State) : State :=
  match s.takeRwt .RST_PART_CTRL 0 with
  | (none, s) => s
  | (some v, s) =>
    let replay := v.getLsbD 12
    let s := (s.fset RST_PART_CTRL.REPLAY 0 replay.toNat).fset RST_PART_CTRL.PARTITIONS 0 0
    s.forEach (nat12.filter fun p => v.getLsbD p) fun p s =>
      if s.fenced p || s.dieReset (dieOfPart p) then s.finc RST_STATUS.IGNORED 0 else s.raiseFence causeHost replay p

/-! ### The steps of a partition reset (R381, R383) -/

/-- A remote write that was accepted has blocks in the stack of a partition. -/
def State.writesTo (s : State) (p : Nat) (w : RemoteWrite) : Bool :=
  (blockPieces w.addr w.len).any fun pc => match s.place w.cx pc.1 with
    | some (q, _, _, _) => q == p
    | none => false

/-- Packets that the partition accepted before its fence and that still wait there. -/
def State.waitAt (s : State) (p : Nat) : List Nat :=
  (s.mesh.packets.filter fun k => (s.partReset p).any fun r => r.accepted.contains k.serial).map (·.serial)

/-- What is outstanding while a partition drains (R381): requests that it accepted, and requests of its units whose answers
are still to come. -/
def State.outstanding (s : State) (p : Nat) : Bool :=
  !(s.waitAt p).isEmpty
    || (s.fabric.writes.any fun w => !w.bad && w.took.contains p && s.writesTo p w)
    || (s.fabric.tx.any fun t => s.hostPart t.cluster == p)
    || (s.mesh.packets.any fun k =>
        if pktClass k.type = 1 then s.partOfUnit k.dst == some p
        else (k.type == .READ_REQ || k.type == .WRITE_REQ) && s.partOfUnit k.src == some p)

/-- FENCE_TIMEOUT: requests that the partition accepted and that are not complete are answered FENCED: its remote writes, and
the packets that wait at its units, which `refusal` lets answer no longer. -/
def State.fenceTimeout (s : State) (p : Nat) : State :=
  if s.fon FNC_PART_STATUS.DRAINING p then
    let n := s.fabric.writes.countP fun w => !w.bad && s.writesTo p w
    let l := s.fabric.writes.map fun w => if s.writesTo p w then { w with bad := true } else w
    let s := { s with fabric := { s.fabric with writes := l } }
    (s.fadd FNC_PART_STATUS.ANSWERED p (n + (s.waitAt p).length)).fset FNC_PART_STATUS.DRAINING p 0
  else s

def execFenceTimeout (part : Nat) (s : State) : Host.Outcome State Fault Refusal := onUnit (okPart part) (s.fenceTimeout part)

/-- Steps 3 to 6 of R383: self-refresh, reset and release, restore, scrub, ring epochs. Domains that are switched off stay
off. -/
def State.resetDomains (s : State) (p : Nat) : State :=
  let mem := s.up (domMem p)
  let s := if s.up (domArr p) then (s.memStop p).arrReset p (s.resetClusters p) else s
  let s := s.fset MSH_ATTACH.CURRENT p (s.fget MSH_ATTACH.MODE p)
  let s := if mem then s.memReturn p else s
  s.forEach (s.clustersOn p) fun L s =>
    let s := s.forEach (s.ringRegions L) fun r s => s.bumpEpoch L r
    s.scrubVault L

/-- FENCE_DRAIN_END: every outstanding request has been answered, or FNC_TIMEOUT has passed; the partition is ready for step 7. -/
def State.fenceDrainEnd (s : State) (p : Nat) : State :=
  match s.partReset p with
  | some r =>
    if r.ready || s.dieReset (dieOfPart p) || (s.fon FNC_PART_STATUS.DRAINING p && s.outstanding p) then s
    else
      let s := (s.fset FNC_PART_STATUS.DRAINING p 0).resetDomains p
      (s.fset RST_PART_STATUS.STEP p 6).setPartReset p (some { r with ready := true })
  | none => s

def execFenceDrainEnd (part : Nat) (s : State) : Host.Outcome State Fault Refusal :=
  onUnit (okPart part) (s.fenceDrainEnd part)

/-- Step 7 of the first boundary after step 6 places the partitions that are ready. -/
def State.returnStep (s : State) : State :=
  s.forEach (nat12.filter fun p => (s.partReset p).any fun r => r.ready) fun p s => s.fset RST_PART_STATUS.STEP p 7

/-- The clusters of a partition that returns load their configuration, after the placement of step 7 (R383); a cluster
that moved loads it with its move. -/
def State.returnLoads (s : State) : State :=
  let ps := nat12.filter fun p => (s.partReset p).any (·.ready) && s.fget RST_PART_STATUS.STEP p == 7
  s.forEach (ps.flatMap s.resetClusters).dedup fun L s =>
    match s.owner L with
    | some c => if (s.cl L).moving || (s.cl L).loading.isSome then s else s.loadAgain c L
    | none => s

/-- Step 8 of R383, at step 13: the fence is lowered. -/
def State.lowerFence (s : State) (p : Nat) : State :=
  match s.partReset p with
  | some r =>
    if r.ready && s.fget RST_PART_STATUS.STEP p == 7 && !s.dieReset (dieOfPart p) then
      let s := ((s.fset FNC_PART_STATUS.FENCED p 0).fset RST_PART_STATUS.STEP p 0).finc RST_PART_STATUS.COUNT p
      (s.fset RST_PART_STATUS.DURATION p (min 65535 ((s.tally.edge - r.raised) / 1000))).setPartReset p none
    else s
  | none => s

/-! ### Replays (R385 to R387) -/

/-- The suspects that wait for their replay. -/
def State.toReplay (s : State) : List Nat :=
  contexts.filter fun c => (s.cx c).hold == .suspect && (s.cx c).discarded && !(s.cx c).replayPass

/-- A suspect's replay starts. -/
def State.startReplay (s : State) (c : Nat) : State :=
  let s := (s.setRecovery { s.recovery with replaying := some c }).updCx c fun x => { x with replayBoundaries := 0 }
  ((s.fset RST_CX_STATUS.SUSPECT c 0).fset RST_CX_STATUS.REPLAYING c 1).fset RST_STATUS.REPLAYING 0 1

/-- A suspect goes on with its schedule; one that is STOPPED stays so. -/
def State.releaseSuspect (s : State) (c : Nat) : State :=
  (s.updCx c fun x => { x with hold := if x.hold = .suspect then .none else x.hold, discarded := false, replayPass := false }).fset RST_CX_STATUS.SUSPECT c 0

/-- Suspects that nothing is replayed for go on once their partitions are in service (R387, R389). -/
def State.releaseUnreplayed (s : State) : State :=
  s.forEach (contexts.filter fun c => s.isSuspect c && !(s.cx c).discarded && !(s.cx c).replayPass
    && (s.recovery.replaying != some c) && (s.partsOf c).all fun p => !s.fenced p && !s.dieReset (dieOfPart p))
    fun c s => s.releaseSuspect c

/-- A reset whose suspects are replayed is in progress. -/
def State.replayPending (s : State) : Bool := nat12.any fun p => (s.partReset p).any fun r => r.replay

/-- The suspect of lowest rank in a list. -/
def State.lowestRank (s : State) (l : List Nat) : Option Nat :=
  l.foldl (fun (a : Option Nat) c => match a with
    | none => some c
    | some b => if s.rank (some c) < s.rank (some b) then some c else some b) none

/-- The hangs none of whose suspects hung again. -/
def Recovery.transient (r : Recovery) : Nat := r.hang.countP fun l => l.all fun c => !r.hungAgain.contains c

/-- Step 13: while no replay runs, the next one starts; after the last one, the suspects that passed go on, and each hang that
none of its suspects met again counts as transient. -/
def State.replayStep (s : State) : State :=
  let s := s.releaseUnreplayed
  if s.recovery.replaying.isSome then s
  else match s.lowestRank (s.toReplay.filter fun c => !s.fencedParts c) with
  | some c => s.startReplay c
  | none =>
    if s.toReplay.isEmpty && !s.replayPending then
      let s := s.forEach (contexts.filter fun c => s.isSuspect c && (s.cx c).replayPass) fun c s => s.releaseSuspect c
      let s := s.fadd HNG_COUNT.TRANSIENT 0 s.recovery.transient
      s.setRecovery { s.recovery with hang := [], hungAgain := [] }
    else s

/-- A replay hung again: its segment is discarded and its context quarantined (R386). -/
def State.quarantine (s : State) (c : Nat) : State :=
  let s := (s.dropRun c).finc HNG_COUNT.QUARANTINED 0
  let s := s.setRecovery { s.recovery with hungAgain := c :: s.recovery.hungAgain }
  let s := s.report sevError blkHNG 9 0xFFFF (some c) []
  let s := (s.condition11 c csQuarantined).updCx c fun x => { x with decision := .fault }
  (s.hold c .quarantine).fset RST_CX_STATUS.QUARANTINED c 1

/-- The replay of a context has not finished by the (WINDOW + 1)-th boundary after it started. -/
def State.quarantineDue (s : State) (c : Nat) : Bool :=
  s.recovery.replaying == some c && (s.cx c).segment && !s.segmentFinished c
    && decide (s.hangWindow ≤ (s.cx c).replayBoundaries)

def State.quarantined (s : State) (c : Nat) : State := if s.quarantineDue c then s.quarantine c else s

def execQuarantined (cx : Nat) (s : State) : Host.Outcome State Fault Refusal := onUnit (okCx cx) (s.quarantined cx)

/-- A rerun: the segment is discarded and starts again at step 13, a last segment as a last segment (R34). Reruns for
hardware faults are counted (R379). -/
def State.rerun (s : State) (c : Nat) : State :=
  let counted := (s.cx c).rerunMark && !(s.cx c).faultParts.isEmpty
  let s := (s.dropRun c).updCx c fun x => { x with decision := .rerun }
  if counted then s.finc HNG_CX_WAIT.RERUNS c else s.fset HNG_CX_WAIT.RERUNS c 0

/-- A replay's segment is rerun: the replay starts again, and the rerun counts as any other (R379). -/
def State.replayAgain (s : State) (c : Nat) : State := (s.rerun c).updCx c fun x => { x with replayBoundaries := 0 }

/-- Step 3 for the context that replays. -/
def State.decideReplay (s : State) (c : Nat) : State :=
  if s.quarantineDue c then s.quarantine c
  else
    let s := s.updCx c fun x => { x with replayBoundaries := x.replayBoundaries + 1 }
    let x := s.cx c
    if !x.segment then s
    else if x.rerunMark then s.replayAgain c
    else if s.segmentFinished c then
      let s := s.closeSegment c fun s => s.replayAgain c
      if (s.cx c).decision = .commit then (s.endReplay c).updCx c fun x => { x with replayPass := true } else s
    else s.updCx c fun x => { x with decision := .skip }

/-! ### Context reset (R388) -/

/-- RST_CX_CTRL takes a write: it is RWT. -/
def execContextReset (mask : Nat) (s : State) : Host.Outcome State Fault Refusal :=
  onUnit true (s.writeTo .RST_CX_CTRL 0 fun s =>
    s.putRwt .RST_CX_CTRL 0 (some (BitVec.ofNat 64 (mask % 2 ^ 16))))

/-- Step 3 for a context that is reset: its segment is discarded, and it is no suspect any more. -/
def State.discardForReset (s : State) (c : Nat) : State :=
  let s := s.dropRun c
  let s := if s.recovery.replaying = some c then s.endReplay c else s
  let s := s.updCx c fun x => { x with
    resetPending := true, inReset := true, decision := .discard, hold := .none, faultMark := none, discarded := false, replayPass := false
    hung := false, hostReset := false, skips := 0 }
  ((s.fset RST_CX_STATUS.SUSPECT c 0).fset HNG_CX_WAIT.COUNT c 0).fset HNG_CX_WAIT.RERUNS c 0

/-- Step 3 applies RST_CX_CTRL: to contexts with an ACTIVE image; one whose reset still lasts is left, and the command counted
(R376). -/
def State.contextResets (s : State) : State :=
  match s.takeRwt .RST_CX_CTRL 0 with
  | (none, s) => s
  | (some v, s) =>
    (s.fset RST_CX_CTRL.CONTEXTS 0 0).forEach (contexts.filter fun c => v.getLsbD c && s.imageActive c) fun c s =>
      if (s.cx c).inReset then s.finc RST_STATUS.IGNORED 0 else s.discardForReset c

/-- The regions of a cluster are initialised as at ACTIVATE, and its rings are reset. -/
def State.resetRegions (s : State) (c : Nat) (r : ClusterRec) : State :=
  let L := r.cluster
  let epochs := (List.range 16).map fun i => s.hdr L (s.region L i).base ringEpoch
  let s := s.writeRegions L r.regions
  if (s.cl L).site.isSome then
    (s.initRegions c L).forEach (s.ringRegions L) fun i s =>
      (s.setHdr L (s.region L i).base ringEpoch (epochs.getD i 0)).resetRing L i
  else s

/-- The fabric logs of a binding are emptied, and its SSEQs return to 0. -/
def Binding.emptied (b : Binding) : Binding :=
  { b with open_ := none, sealed := [], nextSseq := 0, grants := [], halves := [], granted := [], consume := 0, pass := []
           active := false, target := none, recorded := false }

/-- Step 7 for a context that is reset. -/
def State.resetContext (s : State) (c : Nat) : State :=
  match (s.cx c).resetPending, s.image c with
  | true, some im =>
    let bs := (s.fabric.binds.map (·.1)).filter fun k => s.fget FAB_BIND_A.CONTEXT k == c
    let s := s.forEach bs fun k s => s.setBinding k (s.binding k).emptied
    let s := s.forEach im.clusters fun r s =>
      (s.resetRegions c r).updCl r.cluster fun k => { k with eps := [], loading := none, staged := none }
    let s := (((s.rset .FOL_CX_STATE c 0).fset FOL_CX_COMMITTED.COUNT c 0).rset .FOL_CX_NEXT c 0).fset RST_CX_STATUS.QUARANTINED c 0
    s.updCx c fun x => { x with
      resetPending := false, hold := .none, wasDone := false, activatedAt := some s.tally.edge, lastSegment := false, switchDue := false, nextApplied := false
      drainedAt := none, withheld := false }
  | _, _ => s

def State.resetContexts (s : State) : State := s.forEach contexts fun c s => s.resetContext c

/-! ### Step 3 (R33, R34, R38) -/

/-- The marks of a context that runs no schedule lapse. -/
def State.clearMarks (s : State) (c : Nat) : State :=
  s.updCx c fun x => { x with
    rerunMark := false, metFence := false, faultParts := [], hung := false
    faultMark := if s.folState c = folNone then x.faultMark else none }

/-- STOP at step 3 (R338): a segment that has finished is committed, any other is discarded; STOPPED by the host. A Function
Level Reset stops with status HOST_RESET and writes no records (R343). -/
def State.stopHost (s : State) (c : Nat) (record : Bool) : State :=
  let done := s.folState c == folDone
  let s := if !s.scheduled c then s
    else if (s.cx c).segment && s.segmentFinished c && !(s.cx c).rerunMark then s.closeSegment c fun s => s.dropRun c
    else s.dropRun c
  let s := if record then s.condition11 c csHostStop else s.updRing c fun r => { r with segDone := false }
  (s.updCx c fun x => { x with wasDone := done }).hold c .host

/-- STOP of a context that is STOPPED, or whose reset acts at this boundary, changes nothing. -/
def State.stopCommand (c : Nat) (_ : Command) (s : State) : Option (Nat × Nat) × State :=
  (some (0, 0), if s.folState c = folStopped ∨ (s.cx c).resetPending then s else s.stopHost c true)

/-- The STOP commands that lead the ring. -/
def State.stopLeading (s : State) (c : Nat) : State := s.actLeading c opStop (State.stopCommand c) (s.ring c).queue.length

/-- The segment is marked for rerun (R97, R126, R141), or met a fence as a dependant's (R382). -/
def State.rerunDue (s : State) (c : Nat) : Bool := (s.cx c).rerunMark || ((s.cx c).metFence && s.depends c)

/-- An unfinished segment by the context's policy (R38): SKIP_LIMIT 0 acts as Fault. A dependant's runs on uncounted, and so
does one that a declared hang left as it stands (R379, R382). -/
def State.overrun (s : State) (c : Nat) : State :=
  if s.depends c || (s.cx c).hung then s.updCx c fun x => { x with decision := .skip }
  else if s.fget TLY_CX_POLICY.POLICY c = 1 ∨ s.fget TLY_CX_POLICY.SKIP_LIMIT c ≤ (s.cx c).skips then
    s.stopFault c csOverrun .fault
  else
    ((s.finc TLY_CX_OVERRUN.SKIPS c).fset HNG_CX_WAIT.RERUNS c 0).updCx c fun x => { x with skips := x.skips + 1, decision := .skip }

/-- The decision for a context that runs its schedule; a hang declared at this boundary takes the place of a rerun that is
due (R379). -/
def State.decideRun (s : State) (c : Nat) : State :=
  if !(s.cx c).segment then s
  else if s.rerunDue c && !(s.cx c).hangNow then s.rerun c
  else if s.segmentFinished c then s.closeSegment c fun s => s.rerun c
  else s.overrun c

/-- A Function Level Reset stops an ACTIVE context that is not STOPPED (R343). -/
def State.stopForReset (s : State) (c : Nat) : State :=
  let s := if (s.cx c).hostReset && s.imageActive c && s.folState c != folStopped && !(s.cx c).resetPending then s.stopHost c false
    else s
  s.updCx c fun x => { x with hostReset := false }

/-- Step 3 for a context after hangs and resets: a mark for Fault, a Function Level Reset (R343), STOP, the segment. -/
def State.decideCx (s : State) (c : Nat) : State :=
  if (s.cx c).decision ≠ .none then (s.stopForReset c).stopLeading c
  else if !s.scheduled c then (((s.actMark c).stopForReset c).stopLeading c).clearMarks c
  else match (s.cx c).faultMark with
  | some st => (s.stopFault c st .fault).stopLeading c
  | none =>
    if (s.cx c).hostReset then (s.stopForReset c).stopLeading c
    else if s.leadingIs c opStop then s.stopLeading c
    else if s.recovery.replaying = some c then s.decideReplay c
    else if (s.cx c).hold = .suspect then s
    else s.decideRun c

/-- Step 3: hangs first, then reruns beyond their limit, resets of partitions and contexts, then each context. -/
def State.step3 (s : State) : State :=
  let s := (s.forEach contexts fun c s => s.hangStep c).forEach contexts fun c s => s.rerunLimit c
  s.hostResets.contextResets.forEach contexts fun c s => s.decideCx c

/-- SKIP_LIMIT: after SKIP_LIMIT consecutive skips a segment that has not finished is handled as under Fault (R38), unless a hang
takes the place of the overrun (R379). -/
def State.skipLimit (s : State) (c : Nat) : State :=
  let n := s.fget TLY_CX_POLICY.SKIP_LIMIT c
  if s.scheduled c && (s.cx c).segment && (s.cx c).hold == .none && !s.segmentFinished c && !s.rerunDue c && !s.depends c
      && !s.hangDue c && !(s.cx c).hangNow && s.fget TLY_CX_POLICY.POLICY c == 0 && n != 0 && decide (n ≤ (s.cx c).skips) then
    s.stopFault c csOverrun .fault
  else s

def execSkipLimit (cx : Nat) (s : State) : Host.Outcome State Fault Refusal := onUnit (okCx cx) (s.skipLimit cx)

/-- FOL_DRAIN_TIMEOUT: after LIMIT consecutive slips the context is handled as under Fault (R190). -/
def State.drainTimeout (s : State) (c : Nat) : State :=
  if s.folState c == folSlipped && (s.cx c).faultMark == some csDrainTimeout then s.stopFault c csDrainTimeout .fault else s

def execFolDrainTimeout (cx : Nat) (s : State) : Host.Outcome State Fault Refusal := onUnit (okCx cx) (s.drainTimeout cx)

end Sys2Proof.Machine
end

