-- ==== Sys2Proof/Machine/Resets.lean ====
section
/-! DEFINITION. Resets of a die, of the package and of the power domains, and the loss of power (17_fault_recovery.md R375,
R376, R389, R390; 15_power_and_thermal.md R360; 18_bring_up.md R392; 22_package_and_signals.md R450 to R454). -/
namespace Sys2Proof.Machine

open Sys2Proof

/-! ### What a reset leaves -/

def partsOfDie (d : Nat) : List Nat := [3 * d, 3 * d + 1, 3 * d + 2]

/-- Registers whose values a reset of PD_PLAT0 leaves: the FAB global registers held in PD_FAB (R402), the number of the last
die reset. -/
def globalsKept : List Reg := [.FAB_MODULE, .FAB_ROUTE_VALID, .FAB_ESC_TIMEOUT, .FAB_ACK_TIMEOUT]

/-- The fields of a partition's registers that outlive its die's platform: the trim, and whether the training cache is
complete (AGE_TRIM, MEM_TRAIN). -/
def State.keepPart (old : State) (p : Nat) (s : State) : State :=
  (((s.fset AGE_TRIM.TRIM p (old.fget AGE_TRIM.TRIM p)).fset AGE_TRIM.LIMIT p (old.fget AGE_TRIM.LIMIT p)).fset
    AGE_TRIM.FMAX_LOSS p (old.fget AGE_TRIM.FMAX_LOSS p)).fset MEM_TRAIN.CACHE_VALID p (old.fget MEM_TRAIN.CACHE_VALID p)

/-- The channel states of a partition, which last until the next bring-up (R284). -/
def State.keepChannels (old : State) (p : Nat) (s : State) : State :=
  (s.forEach (List.range 32) fun ch s => s.rset .MEM_CH_STATE (chKey p ch) (old.rget .MEM_CH_STATE (chKey p ch))).syncPart p

/-- The registers of partitions return to their reset values, but for what outlives their die's platform. -/
def State.dropParts (s : State) (ps : List Nat) (channels : Bool) : State :=
  let t := s.dropRegs fun r i => r.info.kind == .P && ps.contains (regionOf r i)
  (t.forEach ps fun p t => if channels then s.keepChannels p (s.keepPart p t) else s.keepPart p t).syncSummary

/-- The working copies of the trained values are lost with the platform of the die (R281). -/
def State.dropCopies (s : State) (ps : List Nat) : State :=
  let k := mkeep (fun k => !ps.contains (k / 32)) s.memory.working
  s.setMem { s.memory with
    working := k, ceTimes := mkeep (fun k => !ps.contains (k / 32)) s.memory.ceTimes
    ueTimes := mkeep (fun k => !ps.contains (k / 32)) s.memory.ueTimes }

/-- A context that holds a cluster on a die that is reset: its segment is discarded, and it is not replayed (R376, R389). -/
def State.dieSuspect (s : State) (c : Nat) : State :=
  let s := s.suspect false c
  if s.isSuspect c then s.updCx c fun x => { x with discarded := false, replayPass := false } else s

/-! ### Die platform reset of CD1 to CD3 (R389) -/

/-- A packet with a flit in a router that has lost its domain: a request is answered FENCED on the live side, a response comes
with that status, and what carries none is dropped (R24, R152). -/
def State.lostPacket (s : State) (p : Packet) : State :=
  match p.type with
  | .READ_REQ => s.refuseRequest p .READ_RSP 1
  | .WRITE_REQ => s.refuseRequest p .WRITE_ACK 1
  | .READ_RSP => s.response p.dst p.reqId 1 p.addr false []
  | .WRITE_ACK => s.response p.dst p.reqId 1 p.addr false []
  | .MCAST_RSP => match p.payload with
    | .dests d _ => s.forEach d fun e s => s.response e.1 e.2 1 p.addr false []
    | _ => s
  | _ => s.dropPosted p

/-- The routers of a die lose what they hold with PD_PLAT of the die: buffers, flits, combining buffers, pointers and slot
tables; those of the other dies keep theirs (R22). -/
def Mesh.routersLost (m : Mesh) (d : Nat) : Mesh :=
  let kept := fun (k : Nat) => dieOfPart (partOfSite k) != d
  { m with
    buffers := mkeep (fun k => kept (k / 30)) m.buffers, flits := m.flits.filter fun f => kept f.router
    combine := mkeep kept m.combine, pointers := mkeep (fun k => kept (k / 5)) m.pointers
    slots := mkeep (fun k => kept (k / 320)) m.slots, shadow := mkeep (fun k => kept (k / 320)) m.shadow }

/-- The packets with a flit in a router of a die. -/
def Mesh.packetsIn (m : Mesh) (d : Nat) : List Packet :=
  let on := fun (k : Nat) => dieOfPart (partOfSite k) == d
  let gone := ((m.buffers.filter fun b => on (b.1 / 30)).flatMap fun b => b.2.map (·.pkt))
    ++ (m.flits.filter fun f => on f.router).map (·.pkt)
  m.packets.filter fun p => gone.contains p.serial

/-- PD_PLAT of a die takes its routers along (R22). -/
def State.routersDown (s : State) (d : Nat) : State :=
  let l := s.mesh.packetsIn d
  let s := { s with mesh := (s.mesh.without fun p => l.contains p).routersLost d }
  s.forEach l fun p s => s.lostPacket p

/-- The die goes into reset at once. -/
def State.dieDown (s : State) (d : Nat) : State :=
  let ps := partsOfDie d
  let hit := contexts.filter fun c => ps.any fun p => (s.suspectsAt p).contains c
  let s := s.forEach ps fun p s => (s.abortPlan p).memStop p
  let s := s.forEach hit fun c s => s.dieSuspect c
  let s := s.setRecovery { s.recovery with hang := s.recovery.hang.filter fun l => !l.all hit.contains }
  let s := s.forEach ps fun p s => s.arrOff p
  let s := s.forEach ps fun p s => s.setDomain (domMem p) .reset
  let s := (((s.setDomain (domPlat d) .reset).routersDown d).dropParts ps true).dropCopies ps
  s.setRecovery { s.recovery with dies := mput noBool s.recovery.dies d true }

/-- The die is back: its partitions return with empty vaults and are placed from the defect ledger; a partition reset that
it took in is complete. -/
def State.dieUp (s : State) (d : Nat) : State :=
  let ps := partsOfDie d
  let s := s.setRecovery { s.recovery with dies := mput noBool s.recovery.dies d false }
  let s := s.forEach (s.guests d) fun L s => s.leaveSite L
  let s := s.setDomain (domPlat d) .on
  let s := s.forEach ps fun p s =>
    let off := s.pwState p = pwSleep ∨ s.pwState p = pwHold
    let s := s.fset MSH_ATTACH.CURRENT p (s.fget MSH_ATTACH.MODE p)
    let s := if off then (s.setDomain (domMem p) .off).fset MEM_STATUS.SR p 2 else (s.setDomain (domArr p) .on).memReturn p
    match s.partReset p with
    | some r =>
      let s := (s.fset RST_PART_STATUS.DURATION p (min 65535 ((s.tally.time - r.raised) / 1000))).finc RST_PART_STATUS.COUNT p
      (s.fset RST_PART_STATUS.STEP p 0).setPartReset p none
    | none => s
  let s := if s.placed then s.placeParts ps else s
  let k := ((List.range 96).map fun i => (96 * d + i, decide (s.chState (3 * d + i / 32) (i % 32) ≤ 1))).filter fun e => e.2
  let s := s.setMem { s.memory with working := mputs noBool s.memory.working k }
  s.forEach (allClusters.filter fun L => dieOfPart (partOf L) == d) fun L s => s.updCl L fun k => { k with vaultLost := true }

/-! ### Die platform reset of CD0 (R390, R402) -/

/-- Times of the time base before it starts again. -/
def State.rebase (s : State) : State :=
  let now := s.tally.time
  let s := s.setNose { s.nose with
    floorTimes := (s.nose.floorTimes.filter fun t => decide (now < t + 10 ^ 8)).map fun _ => 0
    requests := (s.nose.requests.filter fun e => decide (now < e.2 + 10 ^ 8)).map fun e => (e.1, 0)
    lastCondition := s.nose.lastCondition.map fun _ => 0 }
  s.setSec { s.security with unlockEnd := s.security.unlockEnd.map fun t => t - now }

/-- The time base starts as PD_PLAT0 leaves reset: the first edge comes one period later (R27). -/
def State.startTime (s : State) : State :=
  { s with tally := { Tally.init with passed := s.tally.passed, nextEdge := s.fget TLY_PERIOD.PERIOD 0 } }

/-- The placer as a reset of PD_PLAT0 leaves it: the defect ledger in flash and what is on its way there, and the audit
windows of the sites, which only a cold bring-up ends (R98). -/
def Placer.kept (p : Placer) : Placer :=
  { Placer.init with
    defects := p.defects, appends := p.appends, ledgerBad := p.ledgerBad
    sites := mmap (fun _ => Site.init) (fun x => { Site.init with window := x.window }) p.sites }

/-- The platform firmware and the pattern set stop with PD_PLAT0. -/
def Security.stopped (x : Security) : Security := { x with running := mkeep (fun k => k == 2) x.running }

/-- Bring-up after a die platform reset of CD0: it starts again, but after BRG_FIRMWARE only a package cold reset helps
(R405). -/
def BringUp.afterDie (b : BringUp) : BringUp :=
  { BringUp.init with ledgerLost := b.ledgerLost, failCode := if b.failCode = brgFirmware then brgFirmware else 0 }

/-- The power controller as a reset leaves it. Pins keep their levels: a PWR_BRAKE_N that is low has not been high since the
boundary before (R358). -/
def Power.afterReset (w : Power) : Power :=
  { Power.init with brakeLow := w.brakeLow, brakeHigh := !w.brakeLow, thermTrip := w.thermTrip }

/-- After a die platform reset of CD0 partitions whose PD_ARR stayed on are in the thermal floor still (R359). -/
def State.powerKept (s : State) : Power :=
  let hot := nat12.filter fun p => s.up (domArr p) && (mget (fun _ => PartPower.init) s.power.parts p).hot
  { s.power.afterReset with
    parts := mputs (fun _ => PartPower.init) [] (hot.map fun p => (p, { PartPower.init with hot := true })) }

/-- PD_PLAT0 is lost: the global blocks, with every image, page, placement and schedule. -/
def State.loseGlobals (s : State) : State :=
  let s := s.forEach contexts fun c s => s.dropImage c
  let s := s.forEach (s.memory.used.map fun e => e.1 / 16384).dedup fun k s => s.fset MEM_CH_STATE.USED k 0
  let s := s.dropRegs fun r i => s.regDomain r i == domPlat 0 && r.info.kind == .G && !globalsKept.contains r
  let s := s.fset PCI_LINK.READY 0 0
  { s with
    ctxs := [], placer := s.placer.kept, imageJob := .idle, security := s.security.stopped
    mesh := { s.mesh.without (s.mesh.packetsIn 0).contains with doneGroups := [] }.routersLost 0
    power := s.powerKept
    test := { SelfTest.init with clearDue := s.test.clearDue }
    recovery := { Recovery.init with dies := s.recovery.dies }
    bringUp := s.bringUp.afterDie
    memory := { s.memory with pages := [], used := [] }
    nose := { s.nose with triggers := [], snapshot := none }
    host := { s.host with rings := [], ringCmds := [], gotRecord := [], lastMessage := [], overloadMessage := false }
    clusters := mmap (fun _ => Cluster.init) (fun k => { k with site := none, moving := false, copyFrom := none }) s.clusters }

/-- CD0 goes into reset at once: PD_PLAT0, and PD_ARR and PD_MEM of P0 to P2. -/
def State.dieZeroDown (s : State) : State :=
  let ps := partsOfDie 0
  let s := s.forEach ps fun p s => s.memStop p
  let s := s.forEach ps fun p s => s.arrOff p
  let s := s.forEach ps fun p s => s.setDomain (domMem p) .off
  let s := { s with bringUp := s.bringUp.afterDie }
  let s := ((s.dropParts ps false).dropCopies ps).loseGlobals
  let s := s.setDomain (domPlat 0) .reset
  let s := s.setRecovery { s.recovery with dies := mput noBool s.recovery.dies 0 true }
  if s.placer.appends.isEmpty then s else s.fset PLC_LEDGER.PENDING 0 1

/-! ### The rows of the die reset -/

/-- RST_DIE_CTRL with its CONFIRM: a die that is in reset is left, and the command counted (R376). -/
def State.resetDie (s : State) (d : Nat) : State :=
  if s.dieReset d then s.finc RST_STATUS.IGNORED 0
  else
    let s := if d = 0 then s.dieZeroDown else s.dieDown d
    (s.fset RST_STATUS.LAST_DIE 0 d).fset RST_STATUS.DIE_RESET 0 1

/-- DIE_RESET_COMPLETE: the die leaves reset. CD0 waits for bring-up, its partitions switched off. -/
def State.dieComplete (s : State) (d : Nat) : State :=
  if !s.dieReset d then s
  else if d = 0 then
    let s := s.setRecovery { s.recovery with dies := mput noBool s.recovery.dies 0 false }
    (s.setDomain (domPlat 0) .on).rebase.startTime
  else s.dieUp d

/-! ### Package cold reset (R375, R390) -/

/-- A register of PD_AON. -/
def aonReg (r : Reg) : Bool := r.info.kind == .N || (r.info.kind == .G && aonBlocks.contains r.info.block)

/-- Everything outside PD_AON is lost, but for the contents of DRAM in self-refresh (R282). Cartridges stay in their cages,
and pins keep their levels. -/
def State.loseAllButAon (s : State) : State :=
  let t := (s.dropRegs fun r _ => !aonReg r).forEach nat12 fun p t => s.keepPart p t
  { t with
    clusters := [], ctxs := [], placer := s.placer.kept, mesh := Mesh.init
    fabric := { Fabric.init with
      ports := mmap (fun _ => FabPort.init) (fun q => { FabPort.init with cartridge := q.cartridge }) s.fabric.ports }
    memory := { s.memory with
      pages := [], used := [], ceTimes := [], ueTimes := [], laneTimes := [], working := [] }
    domains := [], host := { HostIf.init with perst := s.host.perst }, imageJob := .idle
    security := s.security.stopped
    power := s.power.afterReset
    test := { SelfTest.init with clearDue := s.test.clearDue }, recovery := Recovery.init
    bringUp := { BringUp.init with ledgerLost := s.bringUp.ledgerLost }
    nose := { s.nose with triggers := [], snapshot := none } }

/-- The boot sequencer powers PD_PCIE and PD_PLAT0 (R392). -/
def State.bootPower (s : State) : State :=
  let s := (s.setDomain domPcie (if s.host.perst then .reset else .on)).setDomain (domPlat 0) .on
  let s := s.rebase.startTime
  if s.placer.appends.isEmpty then s else s.fset PLC_LEDGER.PENDING 0 1

/-- The memories go into self-refresh first (R282). -/
def State.coldReset (s : State) : State := (s.forEach nat12 fun p s => s.memStop p).loseAllButAon.bootPower

def execPackageColdReset (s : State) : Host.Outcome State Fault Refusal :=
  onUnit true (s.writeTo .RST_PKG_CTRL 0 State.coldReset)

/-! ### Power-on and loss of power (R392, R415, R450, R454) -/

/-- What outlives the loss of all power: flash, fuses, host memory, what was sent, the commands that wait. -/
def State.unpowered (s : State) : State :=
  let t := { State.reset with
    fresh := s.fresh, hostMem := s.hostMem, hostPoison := s.hostPoison, out := s.out, pending := s.pending
    placer := { Placer.init with defects := s.placer.defects, ledgerBad := s.placer.ledgerBad }
    memory := { Memory.init with identity := s.memory.identity }
    host := { HostIf.init with perst := s.host.perst }
    power := s.power.afterReset
    test := { SelfTest.init with clearDue := s.test.clearDue }
    security := { s.security with
      running := [], log := [], challengeValid := false, challengeDue := false, startTest := true, waiting := []
      unlockEnd := none, command := none } }
  let t := (t.fset LCS_STATE.STATE 0 (lifeState s.security.lifeFuses)).rset .ATT_EPOCH 0 (s.rget .ATT_EPOCH 0)
  t.forEach nat12 fun p t =>
    (t.fset AGE_TRIM.TRIM p (s.fget AGE_TRIM.TRIM p)).fset AGE_TRIM.LIMIT p (s.fget AGE_TRIM.LIMIT p)

/-- POWER_DOWN: AON_POR_N is asserted, or PD_AON loses power. -/
def State.powerDown (s : State) : State := s.unpowered.setDomain domAon .off

def execPowerDown (s : State) : Host.Outcome State Fault Refusal := onUnit true s.powerDown

/-- An envelope in flash verifies at boot (R415, R416): its root may sign in this state, and it is not too old. The
signature was verified when it was stored. -/
def State.bootOk (s : State) (e : Envelope) : Bool :=
  (if e.kind = 4 then e.signer == 2 && rootOk 2
   else (e.signer == 0 && rootOk 0) || (e.signer == 1 && rootOk 1 && decide (s.lcs ≤ 1)))
  && decide (mget (fun _ => 0) s.security.svn e.kind ≤ e.sequence)

/-- The slot that a component starts from: the pending one first, then the active one. -/
def State.bootSlot (s : State) (k : Nat) : Option Envelope × State :=
  let use := fun (e : Envelope) (s : State) =>
    let moved := e.kind != 4 && (mget noEnv s.security.pendingSlot k == some e)
    s.setSec { s.security with
      active := mput noEnv s.security.active k (some e), pendingSlot := mput noEnv s.security.pendingSlot k none
      inSlotB := if moved then mput noFlag s.security.inSlotB k (!mget noFlag s.security.inSlotB k) else s.security.inSlotB }
  let fallBack := fun (s : State) => match mget noEnv s.security.active k with
    | some e => if s.bootOk e then (some e, use e s) else (none, s)
    | none => (none, s)
  match mget noEnv s.security.pendingSlot k with
  | some e => if s.bootOk e then (some e, use e s) else fallBack (s.fset SEC_STATUS.FW_FALLBACK 0 1)
  | none => fallBack s

/-- A component is measured, and runs (R415, R424). -/
def State.runComponent (s : State) (e : Envelope) : State :=
  let s := s.measure e.kind e.sequence s.tally.count e.digest
  s.setSec { s.security with running := mput noEnv s.security.running e.kind (some e) }

/-- The boot ROM verifies the Nose firmware and starts it, or the minimal responder (R415, R431). -/
def State.bootNose (s : State) : State :=
  match s.bootSlot 2 with
  | (some e, s) => (s.runComponent e).fset NOS_STATUS.RUNNING 0 1
  | (none, s) => s.fset NOS_STATUS.MINIMAL 0 1

/-- POWER_ON_RESET: AON_POR_N is released. The entropy source runs its start-up test, for which the challenge waits (R412, R419),
and the registers show what flash holds. -/
def State.powerOn (s : State) : State :=
  let s := (s.unpowered.setDomain domAon .on).bootPower
  let s := (s.bootNose.drawChallenge).syncOwner
  s.fset LIC_STATE.PENDING 0 (mget noEnv s.security.pendingSlot 4).isSome.toNat

def execPowerOnReset (s : State) : Host.Outcome State Fault Refusal := onUnit true s.powerOn

/-- DRAM_RAIL_LOSS: every channel loses its contents, and fails when it is next restored (R283, R454). -/
def State.dramLost (s : State) : State :=
  let all := (List.range (12 * 32)).map fun k => (k, (mget noFault s.memory.fault k).orElse fun _ => some ChannelFault.rail)
  s.setMem { s.memory with bytes := [], poison := [], fault := mputs noFault s.memory.fault all }

def execDramRailLoss (s : State) : Host.Outcome State Fault Refusal := onUnit true s.dramLost

/-! ### Critical trips (R360) -/

/-- The memories that respond go into self-refresh, every domain but PD_AON is switched off, and THERM_TRIP_N is asserted;
the Nose records the cause while its firmware runs. -/
def State.criticalTrip (s : State) (cause : Uncoded) (source : Nat) : State :=
  let s := s.forEach nat12 fun p s => s.memStop p
  let s := s.loseAllButAon
  let s := (s.setPower { s.power with thermTrip := true }).emit .thermTrip
  if s.fon NOS_STATUS.RUNNING 0 then s.report sevFatal blkPWR cause.code source none [] else s

/-- CRITICAL_TRIP: a field sensor's second comparator fires. No other sensor has one: coolant makes requests (R455), and no trip
acts on DRAM temperature (R456). -/
def execCriticalTrip (sensor : Nat) (s : State) : Host.Outcome State Fault Refusal :=
  onUnit (okSensor sensor) (if sensor < 96 then s.criticalTrip .criticalTrip sensor else s)

def State.regulatorFault (s : State) (rail : Nat) : State :=
  if s.fon NOS_STATUS.RUNNING 0 then s.criticalTrip .regulatorFault rail else s

def execRegulatorFault (rail : Nat) (s : State) : Host.Outcome State Fault Refusal :=
  onUnit (okRail rail) (s.regulatorFault rail)

end Sys2Proof.Machine
end

