-- ==== Sys2Proof/Machine/BringUp.lean ====
section
/-! DEFINITION. Bring-up (18_bring_up.md R394 to R405), with the life-cycle token that ends in a package cold reset (R407). A
step's actions are taken as it starts, and its outcome shows when it ends. -/
namespace Sys2Proof.Machine

open Sys2Proof

/-! ### Starting a step (R394) -/

/-- Codes of R405. -/
def brgBusy := 1
def brgOrder := 2
def brgFuse := 4
def brgLedger := 5
def brgThermal := 6
def brgPower := 7
def brgLock := 8

/-- Notes of BRG_STATUS.NOTES, by bit. -/
def noteFallback := 1
def notePending := 2
def noteCopy := 4
def noteChannels := 8
def noteBelow := 16
def noteRetired := 32
def noteUnplaced := 64
def noteOver := 128
/-- COLD_RETRAIN, which shows in the bit of OVER_BUDGET. -/
def noteCold := 256

/-- What a step came to: code, notes, budget in ms. -/
structure StepOutcome where
  code : Nat
  notes : Nat
  budget : Nat
  deriving DecidableEq, Repr

def State.setBringUp (s : State) (b : BringUp) : State := { s with bringUp := b }

/-- A failed step may be started again (R405): never after BRG_FIRMWARE, once after BRG_FUSE, BRG_POWER and BRG_LOCK. -/
def State.mayRetry (s : State) : Bool :=
  let b := s.bringUp
  b.failCode == 0 || b.failCode == brgLedger || b.failCode == brgThermal
    || (b.failCode != brgFirmware && decide (b.failures ≤ 1))

/-- Step `n`, one of the nine, is the next one. -/
def State.nextStep (s : State) (n : Nat) : Bool := n == s.bringUp.done + 1 && decide (n ≤ 9) && s.mayRetry

/-- A write of `n` to BRG_STEP: refused while a step is in progress or out of order; otherwise the step's actions `run`. -/
def State.brgStart (s : State) (n : Nat) (run : State → StepOutcome × State) : State :=
  if s.bringUp.running.isSome then s.fset BRG_STATUS.CODE 0 brgBusy
  else if !s.nextStep n then s.fset BRG_STATUS.CODE 0 brgOrder
  else
    let s := ((s.fset BRG_STATUS.BUSY 0 1).fset BRG_STATUS.STEP 0 n).fset BRG_STATUS.CODE 0 0
    let s := if n = 1 then s.fset BRG_TOTAL.TOTAL 0 0 else s
    let (o, s) := run s
    s.setBringUp { s.bringUp with running := some (n, o.code, o.notes, o.budget) }

/-- BRG_STEP takes a write. -/
def State.brgWrite (s : State) (n : Nat) (run : State → StepOutcome × State) : State :=
  s.writeTo .BRG_STEP 0 fun s => s.brgStart n run

/-! ### Step 1 (R395, R415) -/

/-- The platform firmware and the pattern set are verified and measured, and the firmware runs. -/
def stepFirmware (s : State) : StepOutcome × State :=
  let (f, s) := s.bootSlot 1
  let (p, s) := s.bootSlot 3
  match f, p with
  | some f, some p => (⟨0, 0, 150⟩, (s.runComponent f).runComponent p)
  | _, none => (⟨brgFirmware, 0, 150⟩, s.patternsBad)
  | none, some _ => (⟨brgFirmware, 0, 150⟩, s)

def execBrgStepFirmware (s : State) : Host.Outcome State Fault Refusal := onUnit true (s.brgWrite 1 stepFirmware)

/-! ### Step 2 (R398, R399) -/

/-- A licence is in force. -/
def State.install (s : State) (e : Envelope) : State :=
  let s := ((s.fset LIC_STATE.SEQUENCE 0 (e.sequence % 2 ^ 16)).fset LIC_STATE.VARIANT 0 (e.variant % 4)).fset LIC_STATE.FALLBACK 0 0
  let s := s.forEach (List.range 8) fun i s => s.fset LIC_DIGEST.DIGEST i (rd e.digest (4 * i) 4)
  (s.setSec { s.security with running := mput noEnv s.security.running 4 (some e) }).fset LIC_STATE.PENDING 0 0

/-- No licence verifies: the EV4-S feature set. -/
def State.fallBack (s : State) : State :=
  let s := ((s.fset LIC_STATE.SEQUENCE 0 0).fset LIC_STATE.VARIANT 0 2).fset LIC_STATE.FALLBACK 0 1
  let s := s.forEach (List.range 8) fun i s => s.fset LIC_DIGEST.DIGEST i 0
  (s.setSec { s.security with running := mput noEnv s.security.running 4 none }).fset LIC_STATE.PENDING 0 0

/-- The licence of this bring-up, and its notes. -/
def State.licenceStep (s : State) : Nat × State :=
  let pending := mget noEnv s.security.pendingSlot 4
  if (List.range Config.nPorts).any fun n => s.portState n == portUp then
    (if pending.isSome then notePending else 0, s)
  else
    let failed := pending.any fun e => !s.bootOk e
    let s := if failed then s.report sevWarning blkLIC Uncoded.licenceFailed.code 0xFFFF none [] else s
    let use := match pending, mget noEnv s.security.active 4 with
      | some e, old => if s.bootOk e then some e else old
      | none, old => old
    let s := s.setSec { s.security with pendingSlot := mput noEnv s.security.pendingSlot 4 none }
    match use with
    | some e =>
      if s.bootOk e then
        (0, ((s.setSec { s.security with active := mput noEnv s.security.active 4 (some e) }).install e).idleUnlicensed)
      else (noteFallback, s.fallBack.idleUnlicensed)
    | none => (noteFallback, s.fallBack.idleUnlicensed)

def State.setPlacer (s : State) (p : Placer) : State := { s with placer := p }

/-- The field entries go: by a rebuild from the fuses, or by LEDGER_CLEAR. -/
def State.clearField (s : State) : State :=
  s.setPlacer { s.placer with defects := s.placer.defects.filter fun d => d.cause == 1 }

/-- The defect ledger is read: code, notes and budget. -/
def State.ledgerStep (s : State) (rebuild : Bool) : StepOutcome × State :=
  if rebuild && s.bringUp.ledgerLost then
    let s := (s.clearField).report sevError blkBRG Uncoded.ledgerRebuilt.code 0xFFFF none []
    (⟨0, 0, 220⟩, s.setPlacer { s.placer with ledgerBad := [] })
  else if s.placer.ledgerBad.contains 0 && s.placer.ledgerBad.contains 1 then
    (⟨brgLedger, 0, 20⟩, s.setBringUp { s.bringUp with ledgerLost := true })
  else if s.placer.ledgerBad.isEmpty then (⟨0, 0, 20⟩, s)
  else (⟨0, noteCopy, 20⟩, s.setPlacer { s.placer with ledgerBad := [] })

/-- The spare-row maps of R145 and the trims of R357 are restored from flash. -/
def State.restoreMaps (s : State) : State :=
  let rows := s.placer.defects.filter fun d => d.kind == 4
  let s := s.setPlacer { s.placer with
    spareRows := rows.foldl (fun m d => let a := d.location / 65536; mput zeroNat m a (mget zeroNat m a + 1)) [] }
  s.forEach nat12 fun p s =>
    let n := mget zeroNat s.security.trims p
    (s.fset AGE_TRIM.TRIM p n).fbit AGE_TRIM.LIMIT p (n == 20)

def stepFuses (rebuild : Bool) (found : FuseRead) (s : State) : StepOutcome × State :=
  if !found.ok then (⟨brgFuse, 0, 20⟩, s)
  else
    let (n, s) := s.licenceStep
    let s := s.setPlacer { s.placer with ledgerBad := (s.placer.ledgerBad ++ found.badCopies).dedup }
    let (o, s) := s.ledgerStep rebuild
    if o.code ≠ 0 then ({ o with notes := n }, s)
    else
      let s := if s.test.clearDue then s.clearField.setTest { s.test with clearDue := false } else s
      let s := s.restoreMaps.syncLedger
      ({ o with notes := n + o.notes }, s)

def execBrgStepFuses (rebuild : Bool) (found : FuseRead) (s : State) : Host.Outcome State Fault Refusal :=
  onUnit true (s.brgWrite 2 (stepFuses rebuild found))

/-- LEDGER_REBUILD: step 2 with REBUILD 1. -/
def execLedgerRebuild (s : State) : Host.Outcome State Fault Refusal := onUnit true (s.brgWrite 2 (stepFuses true ⟨true, []⟩))

/-! ### Steps 3 and 4 (R360, R395, R451) -/

/-- After a critical trip, a sensor has not come below TARGET. -/
def State.tooHot (s : State) : Bool :=
  s.power.thermTrip && nat12.any fun p => decide ((1000 * s.thermTarget : Nat) ≤ s.temperature p)

/-- The domains that step 3 switches on. -/
def stepDomains : List Nat :=
  ([1, 2, 3].map domPlat) ++ (List.range 4).map domFab ++ nat12.map domMem ++ nat12.map domArr

def stepPower (ok : Bool) (s : State) : StepOutcome × State :=
  if s.tooHot then (⟨brgThermal, 0, 30⟩, s)
  else if !ok then (⟨brgPower, 0, 30⟩, s)
  else
    let s := s.setBringUp { s.bringUp with switchedOn := nat12.filter fun p => !s.up (domMem p) }
    (⟨0, 0, 30⟩, s.forEach stepDomains fun d s => s.setDomain d .on)

def execBrgStepPower (ok : Bool) (s : State) : Host.Outcome State Fault Refusal := onUnit true (s.brgWrite 3 (stepPower ok))

/-- A partition starts Active at the lower of point 15 and its FMAX; one that has tripped stays in the thermal floor. -/
def State.startPoint (s : State) (p : Nat) : State :=
  let n := min 15 (s.fmax p)
  let s := (s.updPw p fun w => { PartPower.init with volt := n, hot := w.hot }).fset PWR_PART_STATUS.STATE p pwActive
  ((s.fset PWR_PART_STATUS.POINT p n).fset PWR_PART_STATUS.TARGET p n).fset PWR_PART_STATUS.CHANGING p 0

def stepLock (ok : Bool) (s : State) : StepOutcome × State :=
  if !ok then (⟨brgLock, 0, 5⟩, s)
  else
    let s := s.forEach nat12 fun p s => s.startPoint p
    let s := if s.power.brakeLow && !s.fon PWR_STATUS.BRAKE 0 then (s.fset PWR_STATUS.BRAKE 0 1).finc PWR_STATUS.BRAKES 0 else s
    (⟨0, 0, 5⟩, s.forEach nat12 fun p s => s.syncFloor p)

def execBrgStepLock (ok : Bool) (s : State) : Host.Outcome State Fault Refusal := onUnit true (s.brgWrite 4 (stepLock ok))

/-! ### Step 5 (R280, R281, R284) -/

/-- The defect ledger has an entry of a KIND for a channel. -/
def State.channelEntry (s : State) (kind p ch : Nat) : Option Defect :=
  (s.placer.defects ++ s.placer.appends).find? fun d => d.kind == kind && d.location % 65536 == chKey p ch

def zeroId : Nat → Nat := fun _ => 0

/-- A channel whose training succeeded: GOOD, or DEGRADING with its lane marked. -/
def State.channelStarts (s : State) (p ch : Nat) : State :=
  let k := chKey p ch
  match s.channelEntry 5 p ch with
  | some d =>
    let s := ((s.fset MEM_CH_STATE.LANE k 1).fset MEM_CH_STATE.PIN k (bitsOf d.location 20 16)).fset MEM_CH_STATE.STATE k chDegrading
    s.report sevWarning blkMEM 2 k none [BitVec.ofNat 32 k, BitVec.ofNat 32 chDegrading]
  | none =>
    (s.fset MEM_CH_STATE.STATE k chGood).report sevInfo blkMEM Uncoded.channelGood.code k none
      [BitVec.ofNat 32 k, BitVec.ofNat 32 chGood]

/-- The trained values of a channel enter the training cache and the working copy (R281). -/
def State.cacheChannel (s : State) (p ch : Nat) : State :=
  let k := chKey p ch
  s.setMem { s.memory with
    cache := mput noBool s.memory.cache k true, working := mput noBool s.memory.working k true
    cacheIdentity := mput zeroId s.memory.cacheIdentity k (mget zeroId s.memory.identity k)
    cacheTemp := mput zeroId s.memory.cacheTemp k (s.fget MEM_CH_STATE.TEMP k) }

/-- A channel that is to be trained once more takes its chance. -/
def State.tryAgain (s : State) (p ch : Nat) : State :=
  s.setMem { s.memory with again := mput noBool s.memory.again (chKey p ch) false }

/-- Cold training of a channel; `bad`: it failed twice. One that did not acknowledge its entry into self-refresh is FAILED
(R283). -/
def State.trainChannel (s : State) (bad : List Nat) (p ch : Nat) : State :=
  let k := chKey p ch
  let lost := mget noFault s.memory.fault k == some .entry
  let s := (s.leaveRefresh p ch).tryAgain p ch
  if lost then s.chFail p ch 4 0
  else if bad.contains k then s.chFail p ch 5 0
  else ((s.channelStarts p ch).cacheChannel p ch).finc MEM_TRAIN.RETRAINED p

/-- A restore from the training cache or the working copy; one whose contents were lost fails (R283, R454). -/
def State.restoreChannel (s : State) (p ch : Nat) : State :=
  let k := chKey p ch
  let lost := (mget noFault s.memory.fault k).isSome
  let s := (s.leaveRefresh p ch).tryAgain p ch
  let s := s.setMem { s.memory with working := mput noBool s.memory.working k true }
  if lost then s.chFail p ch 4 0 else (s.channelStarts p ch).finc MEM_TRAIN.RESTORED p

/-- The cache may be used for a channel: its entry exists, the DRAM is the same, its temperature report is near that of the
entry, and its check passes. `other`: channels whose identity, temperature or pattern check failed. -/
def State.restorable (s : State) (other : List Nat) (p ch : Nat) : Bool :=
  let k := chKey p ch
  (mget noBool s.memory.cache k || mget noBool s.memory.working k)
    && mget zeroId s.memory.cacheIdentity k == mget zeroId s.memory.identity k && !other.contains k
    && mget noFault s.memory.fault k != some .check

/-- A channel has a CHANNEL entry, and is not to be trained once more (R282, R284). -/
def State.barred (s : State) (p ch : Nat) : Bool :=
  (s.channelEntry 3 p ch).isSome && !mget noBool s.memory.again (chKey p ch)

/-- The channels that step 5 trains: all of the partitions switched on in step 3, but those that are barred. -/
def State.trainable (s : State) : List (Nat × Nat) :=
  s.bringUp.switchedOn.flatMap fun p => ((List.range 32).filter fun ch => !s.barred p ch).map fun ch => (p, ch)

/-- A channel with a CHANNEL entry is FAILED without training. -/
def State.failKnown (s : State) : State :=
  s.forEach s.bringUp.switchedOn fun p s =>
    let s := (s.fset MEM_TRAIN.RETRAINED p 0).fset MEM_TRAIN.RESTORED p 0
    s.forEach ((List.range 32).filter (s.barred p)) fun ch s =>
      if s.chState p ch = chFailed then s else s.chChange p ch chFailed 3 0 false

/-- The registers after training, and the notes of R400. -/
def State.trainedNotes (s : State) : Nat × State :=
  let s := s.forEach s.bringUp.switchedOn fun p s =>
    let full := (List.range 32).all fun ch => mget noBool s.memory.cache (chKey p ch)
    ((s.fset MEM_STATUS.SR p 0).fbit MEM_TRAIN.CACHE_VALID p full).syncMem p
  let s := s.judgeSummary
  let s := s.fset BRG_DETAIL.FAILED_CHANNELS 0 ((nat12.map fun p => s.chCount p chFailed).sum)
  ((if s.fget BRG_DETAIL.FAILED_CHANNELS 0 = 0 then 0 else noteChannels)
    + (if s.fon MEM_SUMMARY.BELOW_GUARANTEE 0 then noteBelow else 0), s)

/-- The cold budget of training channels `l`: 440 ms more if one of them needs a second attempt (R395). -/
def coldBudget (t : Training) (l : List (Nat × Nat)) : Nat :=
  if l.any fun e => (t.failed ++ t.retried).contains (chKey e.1 e.2) then 2240 else 1800

/-- The cold path, which ends the audit windows of R98. -/
def stepTrain (found : Training) (s : State) : StepOutcome × State :=
  let s := s.failKnown.fset BRG_STATUS.WARM 0 0
  let l := s.trainable
  let s := s.forEach l fun e s => s.trainChannel found.failed e.1 e.2
  let s := s.setPlacer { s.placer with sites := mmap (fun _ => Site.init) (fun x => { x with window := [] }) s.placer.sites }
  let (n, s) := s.trainedNotes
  (⟨0, n, coldBudget found l⟩, s)

def execBrgStepTrain (found : Training) (s : State) : Host.Outcome State Fault Refusal :=
  onUnit true (s.brgWrite 5 (stepTrain found))

/-- The warm path; a channel that cannot be restored is trained cold, and the step runs under its cold budget. WARM: every
channel was restored (R396). -/
def stepRestore (other : List Nat) (found : Training) (s : State) : StepOutcome × State :=
  let s := s.failKnown
  let l := s.trainable
  let cold := l.filter fun e => !s.restorable other e.1 e.2
  let all := cold.isEmpty && l.all fun e => (mget noFault s.memory.fault (chKey e.1 e.2)).isNone
  let s := s.forEach l fun e s =>
    if cold.contains e then s.trainChannel found.failed e.1 e.2 else s.restoreChannel e.1 e.2
  let (n, s) := s.trainedNotes
  let s := s.fbit BRG_STATUS.WARM 0 all
  if cold.isEmpty then (⟨0, n, 60⟩, s) else (⟨0, n ||| noteCold, coldBudget found cold⟩, s)

def execBrgStepRestore (mismatched : List Nat) (found : Training) (s : State) : Host.Outcome State Fault Refusal :=
  onUnit true (s.brgWrite 5 (stepRestore mismatched found))

/-- The pattern store: 24 pages in each partition (R368). -/
def State.allocStore (s : State) : State :=
  s.forEach ((List.range (12 * 24))) fun i s => match s.newFrame (i / 24) with
    | some (f, s) => s.setFrame storeCx i f
    | none => s

/-! ### Steps 6 to 9 (R371, R229, R153, R161, R401, R403) -/

/-- A unit that failed at bring-up (R369, R371): a row of the teller instruction memory gets a spare row while there is
one; else the site is retired. Answers the sites retired. -/
def bootFailure (acc : List Nat × State) (f : UnitFailure) : List Nat × State :=
  let (bad, s) := acc
  let a := imemArray f.site
  if bad.contains f.site then acc
  else if f.unit = 24 ∧ mget zeroNat s.placer.spareRows a < spareRowsOf a then (bad, s.mapRow a f.row 5)
  else (f.site :: bad, s.failSite f.site 5)

/-- VAULT_FULL on every site, which leaves its background there: what fails makes its entries, without repeats, before
placement. -/
def stepVaultTest (failed : List UnitFailure) (s : State) : StepOutcome × State :=
  let l := failed.filter fun f => (s.siteFromLedger f.site).state != .DEFECTIVE
  let s := s.forEach allSites fun n s => s.marchedWhole n
  let s := s.forEach l fun f s => s.planFailure 1 f
  let s := s.planSummary 1 (if l.isEmpty then outPass else outFailed) (failedSites l).length
  let (bad, s) := l.foldl bootFailure ([], s)
  let s := s.fset BRG_DETAIL.RETIRED 0 bad.length
  (⟨0, if bad.isEmpty then 0 else noteRetired, 5⟩, s)

def execBrgStepVaultTest (failed : List UnitFailure) (s : State) : Host.Outcome State Fault Refusal :=
  onUnit (failed.all UnitFailure.ok) (s.brgWrite 6 (stepVaultTest failed))

def stepPlace (s : State) : StepOutcome × State :=
  let s := s.placeAll.forEach nat12 fun p s => s.fset MSH_ATTACH.CURRENT p (s.fget MSH_ATTACH.MODE p)
  let n := allClusters.countP fun L => (s.cl L).site.isNone
  (⟨0, if n = 0 then 0 else noteUnplaced, 20⟩, s.fset BRG_DETAIL.UNPLACED 0 n)

def execBrgStepPlace (s : State) : Host.Outcome State Fault Refusal := onUnit true (s.brgWrite 7 stepPlace)

/-- Ports that a failed table held are IDLE again (R323). -/
def State.freeSpoiled (s : State) : State :=
  ({ s with fabric := { s.fabric with spoiled := [] } }).forEach s.fabric.spoiled fun n s =>
    if s.portState n = portHeld then s.setPort n portIdle 0 else s

def stepFabric (s : State) : StepOutcome × State :=
  (⟨0, 0, 10⟩, s.freeSpoiled.setRouteValid 1)

def execBrgStepFabric (s : State) : Host.Outcome State Fault Refusal := onUnit true (s.brgWrite 8 stepFabric)

def execBrgStepReady (s : State) : Host.Outcome State Fault Refusal := onUnit true (s.brgWrite 9 fun s => (⟨0, 0, 5⟩, s))

/-! ### A step ends (R394, R397, R405) -/

/-- The fused security versions rise to those of the components that run, as far as their 64 fuses go (R416). -/
def State.raiseVersions (s : State) : State :=
  s.forEach [1, 2, 3] fun k s => match mget noEnv s.security.running k with
    | some e => s.setSec { s.security with
        svn := mput zeroNat s.security.svn k (max (min e.sequence 64) (mget zeroNat s.security.svn k)) }
    | none => s

/-- What the completion of a step brings. -/
def State.stepDone (s : State) (n : Nat) : State :=
  match n with
  | 3 => s.setPower { s.power with thermTrip := false }
  | 5 => s.allocStore
  | 9 => ((s.fbit PCI_LINK.READY 0 (s.up domPcie)).fset BRG_STATUS.READY 0 1).raiseVersions
  | _ => s

/-- NOTES as the register shows the notes: OVER_BUDGET and COLD_RETRAIN share its last bit. -/
def notesShown (n : Nat) : Nat := n % 256 ||| if n.testBit 8 then noteOver else 0

/-- Notes accumulate, each with one record. -/
def State.addNotes (s : State) (notes : Nat) : State :=
  let old := s.bringUp.noted
  let s := s.setBringUp { s.bringUp with noted := old ||| notes }
  let s := s.fset BRG_STATUS.NOTES 0 (notesShown (old ||| notes))
  s.forEach ((List.range 9).filter fun b => notes.testBit b && !old.testBit b) fun b s =>
    s.report sevWarning blkBRG (Uncoded.note b).code 0xFFFF none []

/-- BRING_UP_STEP_END: BUSY clears; a step that exceeded its budget is noted, and still completes. -/
def State.stepEnd (s : State) (elapsedUs : Nat) : State :=
  match s.bringUp.running with
  | none => s
  | some (n, code, notes, budget) =>
    let s := ((s.fset BRG_STATUS.BUSY 0 0).fset BRG_STATUS.DONE 0 1).fset BRG_STATUS.CODE 0 code
    let s := (s.fset BRG_TIME.BUDGET 0 budget).fset BRG_TIME.ELAPSED 0 (min 65535 (elapsedUs / 1000))
    let s := s.fset BRG_TOTAL.TOTAL 0 ((s.fget BRG_TOTAL.TOTAL 0 + elapsedUs) % 2 ^ 32)
    let s := s.addNotes (notes ||| if 1000 * budget < elapsedUs then noteOver else 0)
    if code = 0 then
      (s.setBringUp { s.bringUp with running := none, done := n, failures := 0, failCode := 0 }).stepDone n
    else
      let b := s.bringUp
      let again := if code = brgLedger ∨ code = brgThermal then b.failures else b.failures + 1
      (s.setBringUp { b with running := none, failures := again, failCode := code }).report sevFatal blkBRG code 0xFFFF none []

def execBringUpStepEnd (elapsedUs : Nat) (s : State) : Host.Outcome State Fault Refusal := onUnit true (s.stepEnd elapsedUs)

/-! ### Life-cycle tokens (R407) -/

/-- Blocks of working channels are zero-filled, and the owner keys and the policy are erased. -/
def State.eraseAll (s : State) : State :=
  let off := fun (k : Nat) => !s.working (k / (64 * 16384 * 2048) / 32) (k / (64 * 16384 * 2048) % 32)
  let offBlock := fun (k : Nat) => !s.working (k / (16384 * 2048) / 32) (k / (16384 * 2048) % 32)
  let s := s.setMem { s.memory with bytes := mkeep off s.memory.bytes, poison := mkeep offBlock s.memory.poison }
  (s.setSec { s.security with ownerKeys := [], policy := 0 }).syncOwner

/-- An accepted transition to the state PARAM; the identity key is generated with the one to Development (R406). -/
def State.transition (e : Env) (s : State) : State :=
  let s := if e.param = 3 ∨ e.param = 4 then s.eraseAll else s
  let s := if e.param = 1 then s.setSec { s.security with keyMade := true } else s
  ((s.blowLife e.param).unlockOver).coldReset

def execLifeCycleToken (fetched written : Bool) (s : State) : Host.Outcome State Fault Refusal :=
  onUnit true (s.secCommand 7 fetched written State.transition)

end Sys2Proof.Machine
end

