-- ==== Sys2Proof/Machine/RegWrite.lean ====
section
/-! DEFINITION. Register writes: the access codes of R7, the actions that registers with a row of their own start, both
words of 64-bit registers, the MSI-X table, and the three ways to a register: BAR0, a register packet to a cluster, and
SET_CONFIG (00_scope.md R6 to R12; 14_host_interface.md R331; 21_address_map.md R441 to R446). -/
namespace Sys2Proof.Machine

open Sys2Proof

/-! ### The access codes (R7) -/

/-- A register's value after a write of `v`: W1C and W1S bits where `v` has a 1, RW fields (and RWL ones, while they take
writes) whole; every other field is left. -/
def Reg.merge (r : Reg) (old v : DWord) : DWord :=
  let rw := r.mask .RW ||| r.mask .RWL
  ((((old &&& ~~~(v &&& r.mask .W1C)) ||| (v &&& r.mask .W1S)) &&& ~~~rw) ||| (v &&& rw))

/-- A write by the access codes alone: RWT fields wait for the next boundary (R8). -/
def State.plainWrite (s : State) (r : Reg) (i : Nat) (v : DWord) : State :=
  let s := s.rset r i (r.merge (s.rget r i) v)
  if r.mask .RWT = 0 then s else s.pend r i (v &&& r.mask .RWT)

/-! ### Registers that start an action -/

/-- A unit that fails, from a free number. -/
def failureOf (n : Nat) : UnitFailure :=
  let (site, n) := (n % 336, n / 336)
  let (unit, n) := (n % 30, n / 30)
  let (row, n) := (n % 2 ^ 14, n / 2 ^ 14)
  ⟨site, unit, row, n % 6, n / 6 % 2, 0⟩

/-- A write of BRG_STEP (R394): the outcome of the step is a free value, and `k` its number. -/
def State.brgValue (s : State) (k n : Nat) (warm rebuild : Bool) : State :=
  let ok := Config.wentWell k
  let bad := Config.failures k
  match n with
  | 1 => s.brgStart 1 stepFirmware
  | 2 => s.brgStart 2 (stepFuses rebuild ⟨ok, Config.retried k⟩)
  | 3 => s.brgStart 3 (stepPower ok)
  | 4 => s.brgStart 4 (stepLock ok)
  | 5 => s.brgStart 5 (let t : Training := ⟨bad, Config.retried k⟩; if warm then stepRestore (Config.failures (k + 1)) t else stepTrain t)
  | 6 => s.brgStart 6 (stepVaultTest (bad.map failureOf))
  | 7 => s.brgStart 7 stepPlace
  | 8 => s.brgStart 8 stepFabric
  | 9 => s.brgStart 9 fun s => (⟨0, 0, 5⟩, s)
  | _ => s.brgStart n fun s => (⟨0, 0, 0⟩, s)

/-- SCN_RAW_CTRL (R373). -/
def State.rawValue (s : State) (v : DWord) : State :=
  let site := fieldOf v 8 0
  let row := fieldOf v 24 11
  let unit := fieldOf v 29 25
  match fieldOf v 31 30 with
  | 2 => s.rawWrite 2 site unit row fun s => s.hostWrite s.rawAddr (s.rawWord site unit row)
  | 3 => s.rawWrite 3 site unit row fun s => s.setRawWord site unit row (s.hostRead s.rawAddr (unitWidth unit))
  | op => s.rawWrite op site unit row id

/-- FAB_PORT_CTRL: ENABLE first; a RESET goes before a RETRAIN. -/
def State.portValue (s : State) (n : Nat) (v : DWord) : State :=
  let s := if v.getLsbD 0 == s.fon FAB_PORT_CTRL.ENABLE n then s else s.portEnable n (v.getLsbD 0)
  if v.getLsbD 2 then s.portReset n else if v.getLsbD 1 then s.retrain n else s

/-- The free values that two outcomes take. -/
def State.takeTwo (s : State) : Nat × State := (s.fresh, { s with fresh := s.fresh + 2 })

/-- A register takes a value: what the value starts, or its access codes. -/
def State.putReg (s : State) (r : Reg) (i : Nat) (v : DWord) : State :=
  let f := fun hi lo => fieldOf v hi lo
  match r with
  | .MXC_COMPLETION_POP => if v.getLsbD 0 then s.popCompletion i else s
  | .IMG_CTRL => s.imgCtrl (f 2 0) (f 11 8)
  | .MSG_RING_CTRL => if f 1 0 = 0 then s else s.ringCommand (f 27 24) (f 23 12) (f 1 0)
  | .FAB_PORT_CTRL => s.portValue i v
  | .FAB_TABLE_DATA => (s.rset r i v).stageWrite i (f 31 0)
  | .FAB_ROUTE_HIGH => s.routeWrite (f 31 0)
  | .FAB_ESCAPE => s.escapeWrite (f 31 0)
  | .FAB_ROUTE_VALID => s.routeValidWrite (f 0 0)
  | .FOL_CX_NEXT => s.nextWrite i (v.getLsbD 31) (f 11 0)
  | .BST_PLAN_CTRL => s.planWrite (f 31 28) (f 11 0) (f 27 19)
  | .BST_RESULT_POP => if v.getLsbD 0 then s.popResult else s
  | .SCN_RAW_CTRL => s.rawValue v
  | .RST_DIE_CTRL => if f 31 16 = 0x5A5A then s.resetDie (f 1 0) else s
  | .RST_PKG_CTRL => if f 31 16 = 0xA5A5 then s.coldReset else s
  | .BRG_STEP => let (k, s) := s.takeTwo; s.brgValue k (f 3 0) (v.getLsbD 8) (v.getLsbD 9)
  | .SEC_CMD_CTRL => if v.getLsbD 0 then s.secGo else s
  | .SNP_CTRL => let s := s.plainWrite r i v; if v.getLsbD 31 then s.localTrigger 1 else s
  | .CRT_OVERRIDE => s.overrideCartridges (f 23 0)
  | .SNP_RELEASE => if v.getLsbD 0 then s.snapshotRelease else s
  | _ => s.plainWrite r i v

/-! ### Words of registers (R6) -/

/-- A lower word that waits for its upper word. -/
def State.setLow (s : State) (r : Reg) (i : Nat) (v : Option Word) : State :=
  { s with low := mput (fun _ => none) s.low (regKey r i) v }

/-- The lower word that a 64-bit register takes: the last one written since it took a value, or the one it holds. -/
def State.lowWord (s : State) (r : Reg) (i : Nat) : Word :=
  (mget (fun _ => none) s.low (regKey r i)).getD ((s.shown r i).setWidth 32)

/-- Every field of the register is RWL. -/
def Reg.locked (r : Reg) : Bool := !r.info.fields.isEmpty && r.info.fields.all fun f => f.access == .RWL

/-- A write of `size` bytes to a register, or to the upper word of a 64-bit one. A write of an RWL register that the
life-cycle state does not permit is counted, and has no other effect on either word (R7, R9, R427). -/
def State.putWord (s : State) (r : Reg) (i : Nat) (upper : Bool) (size value : Nat) : State :=
  let w := BitVec.ofNat 32 value
  if r.locked && !s.rwlOpen then s.finc SEC_STATUS.DENIED 0
  else if !r.info.wide then s.putReg r i (w.setWidth 64)
  else if size = 8 then (s.setLow r i none).putReg r i (BitVec.ofNat 64 value)
  else if upper then (s.setLow r i none).putReg r i (w ++ s.lowWord r i)
  else s.setLow r i (some w)

/-- An access of `size` bytes at `addr` fits the register found there. -/
def sizeFits (r : Reg) (upper : Bool) (size : Nat) : Bool := size == 4 || (r.info.wide && !upper)

/-- An access of `size` bytes to register space is of a legal size and aligned (R331). -/
def aligned (addr size : Nat) : Bool := (size == 4 || size == 8) && decide (addr % size = 0)

/-! ### BAR0 -/

/-- The MSI-X table: 18 entries of address, data and mask (R442). -/
def msixTable : Nat := 0xF0000
def inMsix (addr : Nat) : Bool := decide (msixTable ≤ addr) && decide (addr < msixTable + 18 * 16)

/-- A word of the table is written; a vector that is unmasked with its message pending sends it: PRESUMED, as MSI-X
defines. -/
def State.msixWord (s : State) (off w : Nat) : State :=
  let v := off / 16
  let h := s.host
  let a := mget noAddr h.msixAddr v
  match off % 16 / 4 with
  | 0 => s.setHost { h with msixAddr := mput noAddr h.msixAddr v (a / 2 ^ 32 * 2 ^ 32 + w / 4 * 4) }
  | 1 => s.setHost { h with msixAddr := mput noAddr h.msixAddr v (w * 2 ^ 32 + a % 2 ^ 32) }
  | 2 => s.setHost { h with msixData := mput noAddr h.msixData v w }
  | _ =>
    let masked := w.testBit 0
    let s := s.setHost { h with msixMask := mput allMasked h.msixMask v masked }
    if !masked && mget noFlag h.msixPending v then
      (s.setHost { s.host with msixPending := mput noFlag s.host.msixPending v false }).sendVector v
    else s

def State.msixWrite (s : State) (off size value : Nat) : State :=
  let s := s.msixWord off (value % 2 ^ 32)
  if size = 8 then s.msixWord (off + 4) (value / 2 ^ 32 % 2 ^ 32) else s

/-- The pending-bit array, which only the device writes. -/
def inPba (addr : Nat) : Bool := decide (0xF1000 ≤ addr) && decide (addr < 0xF1008)

/-- An address of a cluster that is being moved (R12). -/
def State.movingAt (s : State) (addr : Nat) : Bool :=
  match bar0Region addr with
  | some (.C, L, _) => (s.cl L).moving
  | _ => false

/-- An access to it waits. -/
def State.holdAt (s : State) (addr size : Nat) (w : Option Nat) : State :=
  match bar0Region addr with
  | some (_, L, off) => s.holdAccess L off size w
  | none => s

/-- A write to BAR0 (R331): an illegal size or alignment, or an offset that nothing is assigned to, is an Unsupported
Request. -/
def State.regWrite (s : State) (addr size value : Nat) : State :=
  if !s.barsOn then s
  else if s.aborting then s.finc PCI_ACCESS_ERR.FENCED 0
  else if !aligned addr size then s.finc PCI_ACCESS_ERR.UR 0
  else if s.movingAt addr then s.holdAt addr size (some value)
  else if inMsix addr then s.msixWrite (addr - msixTable) size value
  else if inPba addr then s
  else match bar0Reg addr with
    | some (r, i, upper) =>
      if sizeFits r upper size then s.writeTo r i fun s => s.putWord r i upper size value
      else s.finc PCI_ACCESS_ERR.UR 0
    | none => s.finc PCI_ACCESS_ERR.UR 0

/-- REGISTER_WRITE: a write of 4 or 8 bytes at an address of BAR0. -/
def execRegisterWrite (addr size value : Nat) (s : State) : Host.Outcome State Fault Refusal :=
  onUnit true (s.regWrite addr size value)

/-! ### Register packets to a cluster (R12, R236, R445) -/

/-- The address of an offset in a cluster's window (R441). -/
def clusterAddr (L off : Nat) : Nat := 0x03000000 + L * 0x4000 + off

/-- The bytes of a register that a read of `size` bytes returns. -/
def State.readWord (s : State) (r : Reg) (i : Nat) (upper : Bool) (size : Nat) : List Byte :=
  let v := (s.shown r i).toNat
  leBytes size (if upper then v / 2 ^ 32 else v)

/-- A word of the MSI-X table as it reads: address, data, the mask bit. -/
def HostIf.msixWordOf (h : HostIf) (off : Nat) : Nat :=
  let v := off / 16
  match off % 16 / 4 with
  | 0 => mget noAddr h.msixAddr v % 2 ^ 32
  | 1 => mget noAddr h.msixAddr v / 2 ^ 32 % 2 ^ 32
  | 2 => mget noAddr h.msixData v % 2 ^ 32
  | _ => (mget allMasked h.msixMask v).toNat

/-- The bytes of the MSI-X table, and of the pending-bit array, from an offset on. -/
def HostIf.msixBytes (h : HostIf) (off n : Nat) : List Byte :=
  (List.range (n / 4)).flatMap fun k => leBytes 4 (h.msixWordOf (off + 4 * k))

def HostIf.pendingBytes (h : HostIf) (off n : Nat) : List Byte :=
  leBytes n (((List.range 18).map fun v => if mget noFlag h.msixPending v then 2 ^ v else 0).sum / 2 ^ (8 * off))

/-- Snapshot space (R441, R444). -/
def inSnapshot (addr : Nat) : Bool := decide (0x03800000 ≤ addr) && decide (addr < 0x03F00000)

/-- What a read of a register returns: 0 of an unplaced cluster (R236), all ones where the block does not answer (R331). A read
of MXC_AUDIT_TALLY holds both audit registers (R97). -/
def State.readAt (s : State) (r : Reg) (i : Nat) (upper : Bool) (size : Nat) : State :=
  if s.unplacedReg r i then s.emit (.readData (leBytes size 0) rdOk)
  else if s.served r i false then
    let s := s.emit (.readData (s.readWord r i upper size) rdOk)
    if r = .MXC_AUDIT_TALLY then s.updCl (regionOf r i) fun c => { c with auditHold := true } else s
  else (s.finc PCI_ACCESS_ERR.FENCED 0).emit (.readData (List.replicate size 0xFF) rdOk)

/-- A read of BAR0 at any address (R331, R442, R444). The only row of the table that brings one is REG, at a cluster's window; of
the other regions this says what the host reads there, log entry 80. -/
def State.regRead (s : State) (addr size : Nat) : State :=
  let unsupported := (s.finc PCI_ACCESS_ERR.UR 0).emit (.readData [] rdUnsupported)
  if !s.barsOn then s
  else if s.aborting then (s.finc PCI_ACCESS_ERR.FENCED 0).emit (.readData [] rdAbort)
  else if !aligned addr size then unsupported
  else if s.movingAt addr then s.holdAt addr size none
  else if inSnapshot addr then s.emit (.readData (s.snapshotBytes (addr - 0x03800000) size) rdOk)
  else if inMsix addr then s.emit (.readData (s.host.msixBytes (addr - msixTable) size) rdOk)
  else if inPba addr then s.emit (.readData (s.host.pendingBytes (addr - 0xF1000) size) rdOk)
  else match bar0Reg addr with
    | some (r, i, upper) => if sizeFits r upper size then s.readAt r i upper size else unsupported
    | none => unsupported

/-- A register access to a cluster: a write of a value, or a read. -/
def State.clusterAccess (s : State) (L off size : Nat) (w : Option Nat) : State :=
  match w with
  | some v => s.regWrite (clusterAddr L off) size v
  | none => s.regRead (clusterAddr L off) size

/-- The accesses that waited for a move complete, in the order they came (R12). -/
def State.settleAccesses (s : State) (L : Nat) : State :=
  if (s.cl L).moving || (s.cl L).accesses.isEmpty then s
  else
    let l := (s.cl L).accesses
    (s.updCl L fun k => { k with accesses := [] }).forEach l fun e s => s.clusterAccess L e.1 e.2.1 e.2.2

/-- MOVE_COPY_COMPLETE (R238): the move ends, and accesses that waited for it complete against the new site. -/
def execMoveCopyComplete (cluster : Nat) (readable : Bool) (s : State) : Host.Outcome State Fault Refusal :=
  onUnit (okCluster cluster) ((s.moveComplete cluster readable).settleAccesses cluster)

/-- The accesses of every cluster whose move has ended. -/
def State.settleAll (s : State) : State := s.forEach (s.clusters.map (·.1)) fun L s => s.settleAccesses L

def execDiePlatformReset (die : Nat) (s : State) : Host.Outcome State Fault Refusal :=
  onUnit (okDie die) (s.writeTo .RST_DIE_CTRL 0 fun s => (s.resetDie die).settleAll)

/-- The clusters of a die that returns are placed anew, which ends their moves (R12, R389). -/
def execDieResetComplete (die : Nat) (s : State) : Host.Outcome State Fault Refusal :=
  onUnit (okDie die) (s.dieComplete die).settleAll

/-- A row of the placement ledger was read with a single-bit error: corrected, and noted for the row of the array that holds
the partition's entries (R144, R145, R226). -/
def State.ledgerCorrected (s : State) (p : Nat) (row : Option Nat) : State :=
  match row with
  | some r => s.noteRow ((mget noNat s.placer.ledgerHome p).getD p) (r % 65536)
  | none => s

/-- REG: a register access packet reaches a cluster; its registers belong to the logical cluster, whatever site holds it
(R18). -/
def execReg (cluster offset size : Nat) (access : RegAccess) (s : State) : Host.Outcome State Fault Refusal :=
  onUnit (okCluster cluster && decide (offset < 0x4000))
    ((s.ledgerCorrected (partOf cluster) access.ledgerError).clusterAccess cluster offset size access.write)

/-! ### SET_CONFIG (R437) -/

/-- The MGT registers, at offsets from the base of the Nose mailbox (R441). -/
def mgtReg (off : Nat) : Option (Reg × Nat × Bool) :=
  if 0x100 ≤ off then Reg.all.findSome? (matchReg .N 0 off) else none

/-- SET_CONFIG writes a word of an MGT register by its access codes; an offset that names none is answered RANGE (R435). The OP
of its answer is a free value. -/
def State.setConfig (s : State) (xid off value : Nat) : State :=
  s.managed .mctp false fun s => match mgtReg off with
    | some (r, i, upper) => (s.putWord r i upper 4 value).reply .mctp Config.setConfigOp.toNat ansOk xid []
    | none => s.reply .mctp Config.setConfigOp.toNat ansRange xid []

def execSetConfig (at_ : ConfigWrite) (value : Nat) (s : State) : Host.Outcome State Fault Refusal :=
  onUnit true (s.setConfig at_.xid at_.offset value)

end Sys2Proof.Machine
end

