-- ==== Sys2Proof/Machine/Tally.lean ====
section
/-! DEFINITION. The tally: a Follower's source (R39 to R42), pending register writes (R8, R35, R457), and the boundary with
its ordered actions (R33). -/
namespace Sys2Proof.Machine

open Sys2Proof

def State.setTally (s : State) (t : Tally) : State := { s with tally := t }

/-- TLY_SYNC.ROLE: 0 Free, 1 Master, 2 pin Follower, 3 fabric Follower. -/
def State.role (s : State) : Nat := s.fget TLY_SYNC.ROLE 0

/-! ### The source of a Follower (R39 to R42) -/

/-- The local edge nearest to a source edge at `src` ns: the one that opened this tally or the next one. -/
def Tally.nearest (t : Tally) (src : Int) : Nat :=
  if (10 * (t.edge : Int) - src).natAbs ≤ (10 * (t.nextEdge : Int) - src).natAbs then t.edge else t.nextEdge

/-- The next edge once a source edge is known: the first one taken in a role places it one period on; later ones move it
by at most one step of 10 ns, once in a tally (R41). -/
def Tally.place (t : Tally) (src : Int) (period : Nat) : Nat :=
  let err := 10 * (t.nearest src : Int) - src
  if !t.acquired then max (t.time + 1) (src / 10 + (period : Int)).toNat
  else if t.sourceEdge.isSome then t.nextEdge
  else if 10 ≤ err then max (t.time + 1) (t.nextEdge - 1)
  else if err ≤ -10 then t.nextEdge + 1 else t.nextEdge

/-- A Follower takes a source edge (R39 to R42): the error before correction shows in TLY_PHASE, and holdover ends. -/
def State.takeSource (s : State) (src : Int) (period : Nat) : State :=
  let t := s.tally
  let err := 10 * (t.nearest src : Int) - src
  let s := s.setTally { t with nextEdge := t.place src period, sourceEdge := some src.toNat, acquired := true, missed := 0 }
  let s := s.fset TLY_PHASE.ERROR 0 (BitVec.ofInt 32 err).toNat
  (s.fset TLY_STATUS.HOLDOVER 0 0).fbit TLY_STATUS.LOCKED 0 (decide (err.natAbs ≤ 50))

/-- A pulse at TALLY_IN, a pin of PD_FAB0 (R22), seen at `arrival` ns of the time base. -/
def State.pulse (s : State) (arrival : Nat) : State :=
  if s.up (domPlat 0) && s.up (domFab 0) && s.role == 2 then
    s.takeSource ((arrival : Int) - (s.fget TLY_IN_DELAY.DELAY 0 : Int)) s.period
  else s

def execTallyInPulse (arrivalNs : Nat) (s : State) : Host.Outcome State Fault Refusal := onUnit true (s.pulse arrivalNs)

/-- Fields of a TALLY cell's payload (R296). -/
def tallyOfCell (c : PacketCell) : Nat := rd c.payload 0 8
def periodOfCell (c : PacketCell) : Nat := rd c.payload 16 3 % 2 ^ 19

/-- A tally cell: its number is that of the tally its edge opens. That is the running one where the source's edge is nearest
to the edge that opened it, and where the first cell places the next edge one period on; number and period take effect at
the next boundary (R40). -/
def State.tallyCell (s : State) (n : Nat) (c : PacketCell) (arrival : Nat) : State :=
  let s := s.takeCell n c
  if s.up (domPlat 0) && s.role == 3 && s.fget TLY_SYNC.SOURCE_PORT 0 == n && c.kind == 6 then
    let src := (arrival : Int) - (s.fget FAB_PORT_DELAY.DELAY n : Int)
    let number := if !s.tally.acquired || s.tally.nearest src == s.tally.edge then tallyOfCell c + 1 else tallyOfCell c
    let s := s.takeSource src (periodOfCell c)
    s.setTally { s.tally with cellTally := some (number % 2 ^ 64, periodOfCell c) }
  else s

def execTallyCell (port : Nat) (cell : PacketCell) (arrivalNs : Nat) (s : State) : Host.Outcome State Fault Refusal :=
  onUnit (okPort port && cell.ok) (s.tallyCell port cell arrivalNs)

/-- A Follower has missed LIMIT edges in a row, at least one. A write that clears LOST leaves the count of missed edges, so
LOST is set again at the next missed edge, DESIGN CHOICE, log entry 60. -/
def State.lostDue (s : State) : Bool :=
  s.up (domPlat 0) && decide (2 ≤ s.role) && decide (max 1 (s.fget TLY_HOLDOVER.LIMIT 0) ≤ s.tally.missed)
    && !s.fon TLY_STATUS.LOST 0

/-- LOST (R42): from then on no circuit cell is sent, and those that wait are discarded (R322, R324). -/
def State.lost (s : State) : State :=
  if s.lostDue then ((s.fset TLY_STATUS.LOST 0 1).dropCircuits).report sevError blkTLY Uncoded.lost.code 0xFFFF none [] else s

def execLost (s : State) : Host.Outcome State Fault Refusal := onUnit true s.lost

/-- LOST_CLEAR (R42): the host clears LOST. -/
def execLostClear (s : State) : Host.Outcome State Fault Refusal :=
  onUnit true (s.writeTo .TLY_STATUS 0 fun s => s.fset TLY_STATUS.LOST 0 0)

/-- An edge that a Follower generated without its source (R42). LOCKED keeps its last value: DESIGN CHOICE, log entry 60. -/
def State.holdover (s : State) : State :=
  let t := s.tally
  if 2 ≤ s.role ∧ t.sourceEdge.isNone then
    ((s.setTally { t with missed := t.missed + 1 }).fset TLY_STATUS.HOLDOVER 0 1).lost
  else s.setTally { t with sourceEdge := none }

/-! ### Step 1 (R29, R39) -/

/-- The number of the tally that opens: a pending TLY_COUNT_LOAD, or a cell's number on a fabric Follower, or one more. -/
def State.nextCount (s : State) (load : Option DWord) : Nat :=
  let one := (s.tally.count + 1) % 2 ^ 64
  if s.role = 3 then (s.tally.cellTally.map (·.1)).getD one else (load.map (·.toNat)).getD one

/-- Step 1: the edge is captured, the tally has its number, and TALLY_OUT, a pin of PD_FAB0 (R22), drives its pulse. -/
def State.openTally (s : State) : State :=
  let (load, s) := s.takeRwt .TLY_COUNT_LOAD 0
  let s := match load with
    | some v => if s.role = 3 then s else s.rset .TLY_COUNT_LOAD 0 v
    | none => s
  let t := s.tally
  let s := s.setTally { t with count := s.nextCount load, passed := t.passed + 1, edge := t.nextEdge, time := t.nextEdge }
  if s.fon TLY_SYNC.OUT_ENABLE 0 && s.up (domFab 0) then s.emit (.tallyOut t.nextEdge) else s

/-! ### What is kept for one tally -/

/-- Cycles lost to bank conflicts, which the model does not count (R132): what each counter gained in the tally is a free
value. -/
def State.gains (s : State) : State :=
  s.forEach ((s.clusters.map (·.1)).filter s.reachable) fun L s =>
    let (k, s) := s.take
    s.fadd VLT_CONFLICT.CYCLES L (Config.timed k).toNat

/-- The summary of a cluster's further faults in the tally that ends, which it names (R97). -/
def State.summaries (s : State) : State :=
  s.forEach (s.clusters.filter fun e => decide (0 < e.2.faults.counts.sum)) fun e s =>
    match e.2.faults.first with
    | some (block, code) =>
      s.accept ⟨false, sevWarning, block, code, e.1, s.owner e.1, e.2.faults.counts.map fun n => BitVec.ofNat 32 n⟩
        e.2.faults.counts.sum
    | none => s

def Cluster.opened (k : Cluster) : Cluster :=
  { k with faults := ⟨none, [0, 0, 0, 0, 0, 0]⟩, protectRecorded := false, refusalRecorded := false }

def Ctx.opened (x : Ctx) : Ctx :=
  { x with poisonRecorded := false, leftoverRecorded := false, clearRecorded := [], windowRecorded := [] }

/-- Records that are sent once in a tally may be sent again. -/
def State.closeRecords (s : State) : State :=
  { s with
    clusters := mmap (fun _ => Cluster.init) Cluster.opened s.clusters
    ctxs := mmap (fun _ => Ctx.init) Ctx.opened s.ctxs
    fabric := { s.fabric with
      binds := mmap (fun _ => Binding.init) (fun b => { b with recorded := false }) s.fabric.binds }
    tally := { s.tally with entropyNoted := false, lastFinish := none } }

/-! ### Step 4 (R33, R135, R255, R337) -/

/-- Step 4: committed data, then ring commands, then host messages. -/
def State.step4 (s : State) : State :=
  let s := s.forEach contexts fun c s => s.commitData c
  let cmds := s.host.ringCmds
  let s := s.setHost { s.host with ringCmds := [] }
  let s := s.forEach cmds fun e s => s.applyRing e
  s.forEach (contexts.filter fun c => (s.cx c).decision != .skip) fun c s => s.placeMsgs c

/-! ### Step 5 (R8, R35, R37, R457) -/

/-- TLY_SYNC: a value with a reserved SOURCE_PORT is refused whole (R8, R10; log entry 59), and with a new ROLE the package
looks for its source anew. Once ROLE is fabric Follower no more, TLY_PERIOD is in force again as it stands: DESIGN CHOICE,
log entry 61. -/
def State.applySync (s : State) : State :=
  match s.takeRwt .TLY_SYNC 0 with
  | (none, s) => s
  | (some v, s) =>
    let was := s.role
    let s := if 24 ≤ fieldOf v 8 4 then s else s.putRwtFields .TLY_SYNC 0 v
    if s.role = was then s
    else
      let s := s.setTally { s.tally with
        sourceEdge := none, cellTally := none, cellPeriod := none, missed := 0, acquired := false }
      (s.fset TLY_STATUS.HOLDOVER 0 0).fset TLY_STATUS.LOCKED 0 0

/-- The period of a cell is in force from the boundary after it came (R40). -/
def State.applyCell (s : State) : State :=
  match s.tally.cellTally with
  | some (_, p) =>
    let old := s.period
    let s := s.setTally { s.tally with cellTally := none, cellPeriod := some p }
    if s.period = old then s else s.forEach contexts fun c s => s.checkBudget c
  | none => s

/-- Every loaded context fits a period and window length (R37). -/
def State.allFit (s : State) (period length : Nat) : Bool :=
  contexts.all fun c => s.contextFits c (usableNs period length)

/-- A pending TLY_PERIOD and a pending BST_WINDOW are checked together (R28, R457); on a fabric Follower TLY_PERIOD is
ignored. -/
def State.applyPeriods (s : State) : State :=
  let (pv, s) := s.takeRwt .TLY_PERIOD 0
  let (wv, s) := s.takeRwt .BST_WINDOW 0
  let p := if s.role = 3 then none else pv.map fun v => fieldOf v 18 0
  let bad := p.any fun n => decide (n < 400) || decide (400000 < n)
  let s := if bad then s.fset TLY_STATUS.PERIOD_REFUSED 0 1 else s
  let p := if bad then none else p
  let w := wv.map fun v => fieldOf v 15 0
  if s.allFit (p.getD s.period) (w.getD (s.fget BST_WINDOW.LENGTH 0)) then
    let s := match p with
      | some n => s.fset TLY_PERIOD.PERIOD 0 n
      | none => s
    match w with
    | some n => s.fset BST_WINDOW.LENGTH 0 n
    | none => s
  else
    let s := if p.isSome then s.fset TLY_STATUS.PERIOD_REFUSED 0 1 else s
    if w.isSome then s.fset BST_STATUS.LENGTH_REFUSED 0 1 else s

/-- The three classes each once (R348). -/
def isOrder (v : DWord) : Bool :=
  let l := [fieldOf v 5 4, fieldOf v 3 2, fieldOf v 1 0]
  l.all (fun x => decide (x < 3)) && decide l.Nodup

/-- A ring register takes its fields; `start` is what a change of ENABLE from 0 to 1 does (R334). A value whose SIZE is
reserved is refused (R10, log entry 59). -/
def State.applyRingReg (s : State) (r : Reg) (i : Nat) (v : DWord) (start : State → State) : State :=
  if 12 < fieldOf v 5 2 then s
  else
    let was := (s.rget r i).getLsbD 0
    let s := s.putRwtFields r i v
    if v.getLsbD 0 && !was then start s else s

/-- One pending value is applied or refused. -/
def State.applyRwt (s : State) (r : Reg) (i : Nat) (v : DWord) : State :=
  match r with
  | .MSH_SLOT_LIMIT =>
    if fieldOf v 6 0 ≤ 60 ∧ s.mostReserved i ≤ fieldOf v 6 0 then s.putRwtFields r i v
    else s.fset MSH_STATUS.LIMIT_REFUSED i 1
  | .PWR_CAP =>
    if 400 ≤ fieldOf v 11 0 ∧ fieldOf v 11 0 ≤ 2400 then s.putRwtFields r i v else s.fset PWR_STATUS.CAP_REFUSED 0 1
  | .PWR_ORDER => if isOrder v then s.putRwtFields r i v else s.fset PWR_STATUS.ORDER_REFUSED 0 1
  | .PWR_STATE_CTRL => s.setPower { s.power with command := some v }
  | .SUB_CX_SQ => s.applyRingReg r i v fun s => s.enableSq i
  | .SUB_CX_CQ => s.applyRingReg r i v fun s => s.enableCq i
  | .SUB_ERR_RING => s.applyRingReg r i v State.enableErr
  | .FOL_CX_NEXT => s.applyNext i v
  | _ => s.putRwtFields r i v

/-- Step 5: every pending write is applied or refused, then the NEXT commands of the rings. -/
def State.step5 (s : State) : State :=
  let s := s.applySync.applyCell.applyPeriods
  let l := s.rwt
  let s := s.forEach l fun e s => match regOfKey e.1, e.2 with
    | some r, some v => { s with rwt := mput (fun _ => none) s.rwt e.1 none }.applyRwt r (e.1 % 2 ^ 20) v
    | _, _ => s
  let s := s.forEach contexts fun c s => s.actNext c
  s.forEach contexts fun c s => s.syncTarget c

/-- A Master or Follower sends a tally cell by each port of TLY_FWD_MASK that is up (R40); it waits there while the partner is
not READY (R321). -/
def State.sendTally (s : State) : State :=
  if s.role = 0 then s
  else s.forEach ((List.range Config.nPorts).filter fun n =>
      (s.fget TLY_FWD_MASK.PORTS 0).testBit n && s.portLicensed n && s.portState n == portUp) fun n s =>
    s.sendCell n (s.neighbourCell n 6 (leBytes 8 s.tally.count ++ leBytes 8 s.tally.edge ++ leBytes 3 s.period))

/-! ### Steps 7 to 13 -/

/-- Step 7: returns of partitions, confirmed failures, the placer, vaults, images, contexts that are reset. A site that an
unloading made SPARE may be the rotating spare that its partition lacks (R242), and the last one may have gone with a
load (R246). -/
def State.step7 (s : State) : State :=
  let spares := s.spareParts
  let s := s.returnStep.actConfirmed.restoreSites.heal.reloadVaults.returnLoads.commitImages.resetContexts
  if s.placed then s.fillAll.spareLow spares else s

/-- Step 8. -/
def State.step8 (s : State) : State := s.forEach contexts fun c s => s.switchStep c

/-- Step 9: mesh slot tables, fabric tables. -/
def State.step9 (s : State) : State :=
  s.writeShadow.swapSlots.forEach (List.range Config.nPorts) fun n s =>
    if s.up (domFab (dieOfPort n)) then s.tableStep n else s

/-- Step 11: completion records and messages. -/
def State.step11 (s : State) : State := (s.forEach contexts fun c s => s.completions c).messages

/-- Step 12: the rings are polled; an overload that a poll finds shows at once (R341). -/
def State.step12 (s : State) : State := s.pollAll.forEach contexts fun c s => s.overload c

/-- Step 13: fences are lowered, contexts resume, a replay starts, segments start. -/
def State.step13 (s : State) : State :=
  let s := (s.forEach nat12 fun p s => s.lowerFence p).syncDependants
  let s := s.forEach contexts fun c s => s.actLeading c opResume (fun _ s => s.resume c) (s.ring c).queue.length
  let s := s.replayStep
  s.forEach contexts fun c s => if s.mayStart c then s.startSegment c else s

/-! ### The boundary -/

/-- The device is ready: every boundary action falls due (R403). -/
def State.ready (s : State) : Bool := decide (9 ≤ s.bringUp.done)

/-- What the edge finds before it changes anything: circuit flits on their way, boundary commands that have arrived, the slack
of the ending tally. -/
def State.ending (s : State) : State :=
  if s.ready then (s.landFlits.forEach contexts fun c s => s.arrive c).slack else s

/-- The tally that has opened: decisions of step 3 are done with, and the next edge is one period on. -/
def State.opened (s : State) : State :=
  let s := s.forEach contexts fun c s => s.updCx c fun x => { x with decision := .none, hangNow := false }
  let s := { s with clusters := mmap (fun _ => Cluster.init) (fun k => { k with failed := [] }) s.clusters }
  let s := s.settleAll
  s.setTally { s.tally with nextEdge := s.tally.edge + max 1 s.period }

/-- TALLY_EDGE (R33). -/
def State.boundary (s : State) : State :=
  let old := s.tally.count
  let s := s.ending.gains.summaries.openTally
  let s := ((s.latch old).holdover).closeRecords
  let s := if s.ready then s.step3.step4 else s
  let s := s.step5.sendTally
  let s := if 4 ≤ s.bringUp.done then s.powerStep else s
  let s := if s.ready then s.step7.step8.step9.testStep.step11.step12.step13 else s
  s.opened

def execTallyEdge (s : State) : Host.Outcome State Fault Refusal :=
  onUnit true (if s.up (domPlat 0) then s.boundary else s)

end Sys2Proof.Machine
end

