-- ==== Sys2Proof/Machine/Dispatch.lean ====
section
/-! DEFINITION. The effect of every command: one arm for each, one call of its meaning. -/
namespace Sys2Proof.Machine

def exec (i : Instr) (s : State) : Host.Outcome State Fault Refusal :=
  match i with
  | .overload cx => Sys2Proof.Machine.execOverload cx s
  | .skipLimit cx => Sys2Proof.Machine.execSkipLimit cx s
  | .folDrainTimeout cx => Sys2Proof.Machine.execFolDrainTimeout cx s
  | .hangDeclared cx => Sys2Proof.Machine.execHangDeclared cx s
  | .rerunLimit cx => Sys2Proof.Machine.execRerunLimit cx s
  | .quarantined cx => Sys2Proof.Machine.execQuarantined cx s
  | .auditRetire site => Sys2Proof.Machine.execAuditRetire site s
  | .tallyInPulse arrivalNs => Sys2Proof.Machine.execTallyInPulse arrivalNs s
  | .tallyCell port cell arrivalNs => Sys2Proof.Machine.execTallyCell port cell arrivalNs s
  | .registerWrite addr size value => Sys2Proof.Machine.execRegisterWrite addr size value s
  | .alu who => Sys2Proof.Machine.execAlu who s
  | .addi who => Sys2Proof.Machine.execAddi who s
  | .andi who => Sys2Proof.Machine.execAndi who s
  | .ori who => Sys2Proof.Machine.execOri who s
  | .xori who => Sys2Proof.Machine.execXori who s
  | .lui who => Sys2Proof.Machine.execLui who s
  | .shli who => Sys2Proof.Machine.execShli who s
  | .shri who => Sys2Proof.Machine.execShri who s
  | .srai who => Sys2Proof.Machine.execSrai who s
  | .cmp who => Sys2Proof.Machine.execCmp who s
  | .kop who => Sys2Proof.Machine.execKop who s
  | .vv who => Sys2Proof.Machine.execVv who s
  | .vs who => Sys2Proof.Machine.execVs who s
  | .vcmp who => Sys2Proof.Machine.execVcmp who s
  | .vcmps who => Sys2Proof.Machine.execVcmps who s
  | .sel who => Sys2Proof.Machine.execSel who s
  | .red who => Sys2Proof.Machine.execRed who s
  | .ldw who => Sys2Proof.Machine.execLdw who s
  | .stw who => Sys2Proof.Machine.execStw who s
  | .vld who => Sys2Proof.Machine.execVld who s
  | .vst who => Sys2Proof.Machine.execVst who s
  | .sld who => Sys2Proof.Machine.execSld who s
  | .sst who => Sys2Proof.Machine.execSst who s
  | .vldr who => Sys2Proof.Machine.execVldr who s
  | .vstr who => Sys2Proof.Machine.execVstr who s
  | .bmax who => Sys2Proof.Machine.execBmax who s
  | .rescale who => Sys2Proof.Machine.execRescale who s
  | .smul who => Sys2Proof.Machine.execSmul who s
  | .smov who => Sys2Proof.Machine.execSmov who s
  | .sshift who => Sys2Proof.Machine.execSshift who s
  | .sget who => Sys2Proof.Machine.execSget who s
  | .sput who => Sys2Proof.Machine.execSput who s
  | .smaxe who => Sys2Proof.Machine.execSmaxe who s
  | .lut who => Sys2Proof.Machine.execLut who s
  | .qsend who => Sys2Proof.Machine.execQsend who s
  | .qrecv who => Sys2Proof.Machine.execQrecv who s
  | .qsendt who => Sys2Proof.Machine.execQsendt who s
  | .qrecvt who => Sys2Proof.Machine.execQrecvt who s
  | .msend who => Sys2Proof.Machine.execMsend who s
  | .msendt who => Sys2Proof.Machine.execMsendt who s
  | .dmaq who => Sys2Proof.Machine.execDmaq who s
  | .dmaqt who => Sys2Proof.Machine.execDmaqt who s
  | .dmapop who => Sys2Proof.Machine.execDmapop who s
  | .dmapopt who => Sys2Proof.Machine.execDmapopt who s
  | .mxi who => Sys2Proof.Machine.execMxi who s
  | .mxit who => Sys2Proof.Machine.execMxit who s
  | .mxpop who => Sys2Proof.Machine.execMxpop who s
  | .mxpopt who => Sys2Proof.Machine.execMxpopt who s
  | .beqz who => Sys2Proof.Machine.execBeqz who s
  | .bnez who => Sys2Proof.Machine.execBnez who s
  | .jal who => Sys2Proof.Machine.execJal who s
  | .jr who => Sys2Proof.Machine.execJr who s
  | .sysNop who => Sys2Proof.Machine.execSysNop who s
  | .halt who => Sys2Proof.Machine.execHalt who s
  | .wft who => Sys2Proof.Machine.execWft who s
  | .vrun who => Sys2Proof.Machine.execVrun who s
  | .vwait who => Sys2Proof.Machine.execVwait who s
  | .fence who => Sys2Proof.Machine.execFence who s
  | .trap who => Sys2Proof.Machine.execTrap who s
  | .rdsr who => Sys2Proof.Machine.execRdsr who s
  | .coreUnblock cluster core => Sys2Proof.Machine.execCoreUnblock cluster core s
  | .clusterFinished cluster => Sys2Proof.Machine.execClusterFinished cluster s
  | .doubledSiteSwitch site => Sys2Proof.Machine.execDoubledSiteSwitch site s
  | .descriptorStart cluster => Sys2Proof.Machine.execDescriptorStart cluster s
  | .accumulatorSetFree cluster freed => Sys2Proof.Machine.execAccumulatorSetFree cluster freed s
  | .auditResult cluster upset => Sys2Proof.Machine.execAuditResult cluster upset s
  | .descriptorComplete cluster index => Sys2Proof.Machine.execDescriptorComplete cluster index s
  | .mxcCompletionPop cluster => Sys2Proof.Machine.execMxcCompletionPop cluster s
  | .mxcAuditInject cluster => Sys2Proof.Machine.execMxcAuditInject cluster s
  | .mxcAuditTallyRead cluster => Sys2Proof.Machine.execMxcAuditTallyRead cluster s
  | .mxcAuditLastRead cluster => Sys2Proof.Machine.execMxcAuditLastRead cluster s
  | .auditHoldExpire cluster => Sys2Proof.Machine.execAuditHoldExpire cluster s
  | .vecResidueInject cluster core => Sys2Proof.Machine.execVecResidueInject cluster core s
  | .vltParityInject cluster => Sys2Proof.Machine.execVltParityInject cluster s
  | .readReq service => Sys2Proof.Machine.execReadReq service s
  | .writeReq pkt => Sys2Proof.Machine.execWriteReq pkt s
  | .readRsp pkt => Sys2Proof.Machine.execReadRsp pkt s
  | .writeAck pkt => Sys2Proof.Machine.execWriteAck pkt s
  | .mcastRsp pkt => Sys2Proof.Machine.execMcastRsp pkt s
  | .reg cluster offset size access => Sys2Proof.Machine.execReg cluster offset size access s
  | .routerForward x y cycle => Sys2Proof.Machine.execRouterForward x y cycle s
  | .aged index now => Sys2Proof.Machine.execAged index now s
  | .clearCombine x y index => Sys2Proof.Machine.execClearCombine x y index s
  | .combineHoldExpire x y slot => Sys2Proof.Machine.execCombineHoldExpire x y slot s
  | .clearRootAbsorb index => Sys2Proof.Machine.execClearRootAbsorb index s
  | .tokenArrival index => Sys2Proof.Machine.execTokenArrival index s
  | .creditReturn index => Sys2Proof.Machine.execCreditReturn index s
  | .drained cx => Sys2Proof.Machine.execDrained cx s
  | .configurationStage cx => Sys2Proof.Machine.execConfigurationStage cx s
  | .configurationLoadComplete cluster => Sys2Proof.Machine.execConfigurationLoadComplete cluster s
  | .folCxNextWrite cx valid folio => Sys2Proof.Machine.execFolCxNextWrite cx valid folio s
  | .load cx => Sys2Proof.Machine.execLoad cx s
  | .imageFetchComplete ok => Sys2Proof.Machine.execImageFetchComplete ok s
  | .activate cx => Sys2Proof.Machine.execActivate cx s
  | .unload cx => Sys2Proof.Machine.execUnload cx s
  | .moveCopyComplete cluster readable => Sys2Proof.Machine.execMoveCopyComplete cluster readable s
  | .ledgerAppendRetry ok => Sys2Proof.Machine.execLedgerAppendRetry ok s
  | .migrationCopyComplete index => Sys2Proof.Machine.execMigrationCopyComplete index s
  | .messageReceive index => Sys2Proof.Machine.execMessageReceive index s
  | .messageAnswer cluster core => Sys2Proof.Machine.execMessageAnswer cluster core s
  | .messageRetry cluster core => Sys2Proof.Machine.execMessageRetry cluster core s
  | .ringClose cx ring => Sys2Proof.Machine.execRingClose cx ring s
  | .ringOpen cx ring => Sys2Proof.Machine.execRingOpen cx ring s
  | .ringReset cx ring => Sys2Proof.Machine.execRingReset cx ring s
  | .dmaRead cluster tag => Sys2Proof.Machine.execDmaRead cluster tag s
  | .dmaWrite cluster tag => Sys2Proof.Machine.execDmaWrite cluster tag s
  | .vcopy cluster tag => Sys2Proof.Machine.execVcopy cluster tag s
  | .vfill cluster tag => Sys2Proof.Machine.execVfill cluster tag s
  | .mcopy cluster tag => Sys2Proof.Machine.execMcopy cluster tag s
  | .mfill cluster tag => Sys2Proof.Machine.execMfill cluster tag s
  | .xcopy cluster tag => Sys2Proof.Machine.execXcopy cluster tag s
  | .halo cluster tag => Sys2Proof.Machine.execHalo cluster tag s
  | .rread cluster tag => Sys2Proof.Machine.execRread cluster tag s
  | .rwrite cluster tag => Sys2Proof.Machine.execRwrite cluster tag s
  | .dmaCompletion cluster tag => Sys2Proof.Machine.execDmaCompletion cluster tag s
  | .dmaRemoteTimeout cluster tag => Sys2Proof.Machine.execDmaRemoteTimeout cluster tag s
  | .blockRead part ch block cx errors => Sys2Proof.Machine.execBlockRead part ch block cx errors s
  | .blockWrite part ch block cx offset data => Sys2Proof.Machine.execBlockWrite part ch block cx offset data s
  | .ceLimitReached part ch => Sys2Proof.Machine.execCeLimitReached part ch s
  | .ueLimitReached part ch => Sys2Proof.Machine.execUeLimitReached part ch s
  | .laneMark part ch pin => Sys2Proof.Machine.execLaneMark part ch pin s
  | .channelCommandTimeout part ch => Sys2Proof.Machine.execChannelCommandTimeout part ch s
  | .selfRefreshTimeout part timeout => Sys2Proof.Machine.execSelfRefreshTimeout part timeout s
  | .patrolScrub part ch block errors => Sys2Proof.Machine.execPatrolScrub part ch block errors s
  | .memInjectCe part ch => Sys2Proof.Machine.execMemInjectCe part ch s
  | .memInjectUe part ch => Sys2Proof.Machine.execMemInjectUe part ch s
  | .portEnable port on => Sys2Proof.Machine.execPortEnable port on s
  | .portReset port => Sys2Proof.Machine.execPortReset port s
  | .portRetrain port => Sys2Proof.Machine.execPortRetrain port s
  | .linkTrainingComplete port partner peerPort delayNs => Sys2Proof.Machine.execLinkTrainingComplete port partner peerPort delayNs s
  | .trainFailed port => Sys2Proof.Machine.execTrainFailed port s
  | .linkBlock port block => Sys2Proof.Machine.execLinkBlock port block s
  | .nakRetrain port => Sys2Proof.Machine.execNakRetrain port s
  | .retrainComplete port ok => Sys2Proof.Machine.execRetrainComplete port ok s
  | .packetCellForward port vc => Sys2Proof.Machine.execPacketCellForward port vc s
  | .escapeTimeout port vc => Sys2Proof.Machine.execEscapeTimeout port vc s
  | .rreq port cell => Sys2Proof.Machine.execRreq port cell s
  | .wreq port cell => Sys2Proof.Machine.execWreq port cell s
  | .wdata port cell => Sys2Proof.Machine.execWdata port cell s
  | .rdata port cell => Sys2Proof.Machine.execRdata port cell s
  | .rsp port cell => Sys2Proof.Machine.execRsp port cell s
  | .grant port cell => Sys2Proof.Machine.execGrant port cell s
  | .ack port cell => Sys2Proof.Machine.execAck port cell s
  | .revoke port cell => Sys2Proof.Machine.execRevoke port cell s
  | .revoked port cell => Sys2Proof.Machine.execRevoked port cell s
  | .trigger port cell => Sys2Proof.Machine.execTrigger port cell s
  | .circuitCell port cell => Sys2Proof.Machine.execCircuitCell port cell s
  | .halfTransmit port binding => Sys2Proof.Machine.execHalfTransmit port binding s
  | .halfRetransmit port binding => Sys2Proof.Machine.execHalfRetransmit port binding s
  | .clearingAdd port binding index => Sys2Proof.Machine.execClearingAdd port binding index s
  | .tableCopyComplete port => Sys2Proof.Machine.execTableCopyComplete port s
  | .routeEntryWrite value => Sys2Proof.Machine.execRouteEntryWrite value s
  | .escapeEntryWrite value => Sys2Proof.Machine.execEscapeEntryWrite value s
  | .routeValidWrite value => Sys2Proof.Machine.execRouteValidWrite value s
  | .cartridgePresent port record => Sys2Proof.Machine.execCartridgePresent port record s
  | .cartridgeVerified port => Sys2Proof.Machine.execCartridgeVerified port s
  | .cartridgeRemoved port => Sys2Proof.Machine.execCartridgeRemoved port s
  | .pciePerst asserted => Sys2Proof.Machine.execPciePerst asserted s
  | .apertureRead offset length => Sys2Proof.Machine.execApertureRead offset length s
  | .apertureWrite offset data => Sys2Proof.Machine.execApertureWrite offset data s
  | .nop cx => Sys2Proof.Machine.execNop cx s
  | .copyIn cx => Sys2Proof.Machine.execCopyIn cx s
  | .copyOut cx => Sys2Proof.Machine.execCopyOut cx s
  | .copyComplete cx index => Sys2Proof.Machine.execCopyComplete cx index s
  | .msg cx => Sys2Proof.Machine.execMsg cx s
  | .next cx => Sys2Proof.Machine.execNext cx s
  | .stop cx => Sys2Proof.Machine.execStop cx s
  | .resume cx => Sys2Proof.Machine.execResume cx s
  | .doeRequest request => Sys2Proof.Machine.execDoeRequest request s
  | .powerActive mask => Sys2Proof.Machine.execPowerActive mask s
  | .powerIdle mask => Sys2Proof.Machine.execPowerIdle mask s
  | .powerSleep mask => Sys2Proof.Machine.execPowerSleep mask s
  | .powerTransitionComplete part => Sys2Proof.Machine.execPowerTransitionComplete part s
  | .powerInnerLoop fabricW memoryW computeW partW => Sys2Proof.Machine.execPowerInnerLoop fabricW memoryW computeW partW s
  | .voltageSettled part => Sys2Proof.Machine.execVoltageSettled part s
  | .voltageLowered part => Sys2Proof.Machine.execVoltageLowered part s
  | .droopAssert part detector => Sys2Proof.Machine.execDroopAssert part detector s
  | .droopRelease part => Sys2Proof.Machine.execDroopRelease part s
  | .changeAbandoned part => Sys2Proof.Machine.execChangeAbandoned part s
  | .thermalTrip part => Sys2Proof.Machine.execThermalTrip part s
  | .criticalTrip sensor => Sys2Proof.Machine.execCriticalTrip sensor s
  | .regulatorFault rail => Sys2Proof.Machine.execRegulatorFault rail s
  | .marchSliceEnd part engine result => Sys2Proof.Machine.execMarchSliceEnd part engine result s
  | .scanSliceEnd part engine ok => Sys2Proof.Machine.execScanSliceEnd part engine ok s
  | .sliceAbort part engine => Sys2Proof.Machine.execSliceAbort part engine s
  | .vaultFull mask => Sys2Proof.Machine.execVaultFull mask s
  | .scanFull mask => Sys2Proof.Machine.execScanFull mask s
  | .scanNext cluster => Sys2Proof.Machine.execScanNext cluster s
  | .retest mask => Sys2Proof.Machine.execRetest mask s
  | .planComplete failed => Sys2Proof.Machine.execPlanComplete failed s
  | .rawApplyPatterns site => Sys2Proof.Machine.execRawApplyPatterns site s
  | .rawReadWord site unit row => Sys2Proof.Machine.execRawReadWord site unit row s
  | .rawWriteWord site unit row => Sys2Proof.Machine.execRawWriteWord site unit row s
  | .patternStoreCopyComplete ok => Sys2Proof.Machine.execPatternStoreCopyComplete ok s
  | .partitionResetRequest mask replay => Sys2Proof.Machine.execPartitionResetRequest mask replay s
  | .fenceDrainEnd part => Sys2Proof.Machine.execFenceDrainEnd part s
  | .fenceTimeout part => Sys2Proof.Machine.execFenceTimeout part s
  | .contextReset mask => Sys2Proof.Machine.execContextReset mask s
  | .diePlatformReset die => Sys2Proof.Machine.execDiePlatformReset die s
  | .dieResetComplete die => Sys2Proof.Machine.execDieResetComplete die s
  | .brgStepFuses rebuild fusesOk => Sys2Proof.Machine.execBrgStepFuses rebuild fusesOk s
  | .brgStepPower ok => Sys2Proof.Machine.execBrgStepPower ok s
  | .brgStepLock ok => Sys2Proof.Machine.execBrgStepLock ok s
  | .brgStepTrain failed => Sys2Proof.Machine.execBrgStepTrain failed s
  | .brgStepRestore mismatched failed => Sys2Proof.Machine.execBrgStepRestore mismatched failed s
  | .brgStepVaultTest failed => Sys2Proof.Machine.execBrgStepVaultTest failed s
  | .bringUpStepEnd elapsedUs => Sys2Proof.Machine.execBringUpStepEnd elapsedUs s
  | .platformFirmware fetched written => Sys2Proof.Machine.execPlatformFirmware fetched written s
  | .noseFirmware fetched written => Sys2Proof.Machine.execNoseFirmware fetched written s
  | .scanPatterns fetched written => Sys2Proof.Machine.execScanPatterns fetched written s
  | .licence fetched written => Sys2Proof.Machine.execLicence fetched written s
  | .ownerKey fetched written => Sys2Proof.Machine.execOwnerKey fetched written s
  | .policy fetched written => Sys2Proof.Machine.execPolicy fetched written s
  | .lifeCycleToken fetched written => Sys2Proof.Machine.execLifeCycleToken fetched written s
  | .unlockToken fetched => Sys2Proof.Machine.execUnlockToken fetched s
  | .bottomTreeReady written => Sys2Proof.Machine.execBottomTreeReady written s
  | .attestReport nonce asker => Sys2Proof.Machine.execAttestReport nonce asker s
  | .attestPublicKey asker => Sys2Proof.Machine.execAttestPublicKey asker s
  | .attestLog asker => Sys2Proof.Machine.execAttestLog asker s
  | .sensorSample sensor value => Sys2Proof.Machine.execSensorSample sensor value s
  | .errorRecord record => Sys2Proof.Machine.execErrorRecord record s
  | .recordResend collector seq => Sys2Proof.Machine.execRecordResend collector seq s
  | .status source xid => Sys2Proof.Machine.execStatus source xid s
  | .sensors source xid first count => Sys2Proof.Machine.execSensors source xid first count s
  | .records source xid seq count => Sys2Proof.Machine.execRecords source xid seq count s
  | .aiharAck source xid seq => Sys2Proof.Machine.execAiharAck source xid seq s
  | .snapshotTrigger source xid => Sys2Proof.Machine.execSnapshotTrigger source xid s
  | .snapshotRead source xid offset length => Sys2Proof.Machine.execSnapshotRead source xid offset length s
  | .setConfig at_ value => Sys2Proof.Machine.execSetConfig at_ value s
  | .arpRequest frame => Sys2Proof.Machine.execArpRequest frame s
  | .icmpEcho frame payload => Sys2Proof.Machine.execIcmpEcho frame payload s
  | .neighborSolicitation frame => Sys2Proof.Machine.execNeighborSolicitation frame s
  | .linkDown port => Sys2Proof.Machine.execLinkDown port s
  | .configurationRequest req => Sys2Proof.Machine.execConfigurationRequest req s
  | .clockSwitchComplete part => Sys2Proof.Machine.execClockSwitchComplete part s
  | .rotationVisit part => Sys2Proof.Machine.execRotationVisit part s
  | .ledgerUncorrectable part => Sys2Proof.Machine.execLedgerUncorrectable part s
  | .dramTemperatureRead part ch report => Sys2Proof.Machine.execDramTemperatureRead part ch report s
  | .refresh part ch bank => Sys2Proof.Machine.execRefresh part ch bank s
  | .periodicCalibration part ch => Sys2Proof.Machine.execPeriodicCalibration part ch s
  | .tableEntryUncorrectable port table entry => Sys2Proof.Machine.execTableEntryUncorrectable port table entry s
  | .usageRecordWrite port hours => Sys2Proof.Machine.execUsageRecordWrite port hours s
  | .tallyEdge => Sys2Proof.Machine.execTallyEdge s
  | .lost => Sys2Proof.Machine.execLost s
  | .lostClear => Sys2Proof.Machine.execLostClear s
  | .activateComplete => Sys2Proof.Machine.execActivateComplete s
  | .abort => Sys2Proof.Machine.execAbort s
  | .ledgerAppendComplete => Sys2Proof.Machine.execLedgerAppendComplete s
  | .configurationReady => Sys2Proof.Machine.execConfigurationReady s
  | .functionLevelReset => Sys2Proof.Machine.execFunctionLevelReset s
  | .doeAbort => Sys2Proof.Machine.execDoeAbort s
  | .powerHold => Sys2Proof.Machine.execPowerHold s
  | .brake => Sys2Proof.Machine.execBrake s
  | .ledgerClear => Sys2Proof.Machine.execLedgerClear s
  | .raw => Sys2Proof.Machine.execRaw s
  | .bstResultPop => Sys2Proof.Machine.execBstResultPop s
  | .packageColdReset => Sys2Proof.Machine.execPackageColdReset s
  | .powerOnReset => Sys2Proof.Machine.execPowerOnReset s
  | .brgStepFirmware => Sys2Proof.Machine.execBrgStepFirmware s
  | .ledgerRebuild => Sys2Proof.Machine.execLedgerRebuild s
  | .brgStepPlace => Sys2Proof.Machine.execBrgStepPlace s
  | .brgStepFabric => Sys2Proof.Machine.execBrgStepFabric s
  | .brgStepReady => Sys2Proof.Machine.execBrgStepReady s
  | .unlockExpire => Sys2Proof.Machine.execUnlockExpire s
  | .entropyHealthFail => Sys2Proof.Machine.execEntropyHealthFail s
  | .requestClear => Sys2Proof.Machine.execRequestClear s
  | .snapshotHostTrigger => Sys2Proof.Machine.execSnapshotHostTrigger s
  | .snapshotRelease => Sys2Proof.Machine.execSnapshotRelease s
  | .brakeDeassert => Sys2Proof.Machine.execBrakeDeassert s
  | .powerDown => Sys2Proof.Machine.execPowerDown s
  | .dramRailLoss => Sys2Proof.Machine.execDramRailLoss s
  | .entropyHealthPass => Sys2Proof.Machine.execEntropyHealthPass s
  | .attEntropy => Sys2Proof.Machine.execAttEntropy s
  | .testWindowStart => Sys2Proof.Machine.execTestWindowStart s
  | .sgmiiLinkUp => Sys2Proof.Machine.execSgmiiLinkUp s
  | .sgmiiLinkDown => Sys2Proof.Machine.execSgmiiLinkDown s

end Sys2Proof.Machine
end

