-- ==== Sys2Proof/Machine/Links.lean ====
section
/-! DEFINITION. What the device does while time passes: the time base counts on, and every fabric port that is UP sends a
link block every 12.8 ns (13_cikel_fabric.md, R290 to R293, R302, R307, R309). -/
namespace Sys2Proof.Machine

open Sys2Proof

/-! ### Time, blocks and frames -/

/-- The number of the last block that started by a time, kept in 10 ns. That blocks start at whole multiples of 12.8 ns of
the time base is DESIGN CHOICE. -/
def blockAt (t : Nat) : Nat := 50 * t / 64

/-- The first block of frame 0 of the running tally: the first that starts at or after the edge plus 200 ns (R307). -/
def State.frameZero (s : State) : Nat := (50 * s.tally.edge + 1000 + 63) / 64

/-- The first slot of block `k` in its frame; none outside the frames, the last of which ends by the next edge (R307). -/
def State.frameAt (s : State) (k : Nat) : Option Nat :=
  let k0 := s.frameZero
  let j := k - k0
  if k0 ≤ k ∧ 64 * (k0 + 16 * (j / 16 + 1)) ≤ 50 * s.tally.nextEdge then some (26 * (j % 16)) else none

/-- The circuit that owns a slot of a port's output (R307). -/
def FabPort.slotOwner (p : FabPort) (slot : Nat) : Option Nat :=
  let v := mget zeroNat p.scur slot
  if v.testBit 31 then some (v % 4096) else none

/-! ### What an output sends in a cell position (R302) -/

/-- The first element that a predicate holds of, and the list without it. -/
def takeFirst {α : Type} (f : α → Bool) : List α → Option (α × List α)
  | [] => none
  | x :: t => if f x then some (x, t) else (takeFirst f t).map fun r => (r.1, x :: r.2)

/-- A circuit cell that waits at an output and satisfies a predicate goes. -/
def State.takeCircuit (s : State) (n : Nat) (f : CircuitCell → Bool) : Option (CircuitCell × State) :=
  (takeFirst f (s.fp n).circOut).map fun r => (r.1, s.updFp n fun p => { p with circOut := r.2 })

/-- The next cell of a half that is being transmitted on a circuit, while its log is reached (R312, R313, R325). -/
def State.takeHalf (s : State) (n circuit : Nat) : Option (CircuitCell × State) :=
  (s.bindingOf n false circuit).bind fun k =>
    if s.logsReached n then
      ((s.binding k).sealed.find? OutHalf.going).bind fun h => (s.halfCell k circuit h).map fun c => (c, s.halfSent k h)
    else none

/-- Rule 1: a circuit cell of the current phase whose slot this is. -/
def State.slotCell (s : State) (n circuit : Nat) : Option (CircuitCell × State) :=
  (s.takeCircuit n fun c => c.circuit == circuit && c.phase == s.tally.count % 4).orElse fun _ => s.takeHalf n circuit

/-- Rule 2: a circuit cell of the previous phase (R309). -/
def State.oldCell (s : State) (n : Nat) : Option (CircuitCell × State) :=
  s.takeCircuit n fun c => !s.inStep || (c.phase + 1) % 4 == s.tally.count % 4

/-- The first cell of a channel that each input offers at an output. -/
def offers (vc : Nat) (l : List QueuedCell) : List QueuedCell :=
  (l.filter fun q => q.cell.vc == vc).foldl (fun acc q => if acc.any fun r => r.input == q.input then acc else acc ++ [q]) []

/-- The offer of the first input at or after the rotating pointer. -/
def chosen (ptr : Nat) (l : List QueuedCell) : Option QueuedCell :=
  (sortBy (fun a b : QueuedCell => decide ((a.input + 25 - ptr) % 25 < (b.input + 25 - ptr) % 25)) l).head?

/-- A packet cell goes: it uses a credit, its input's buffer is free again, and the pointer advances past its input. -/
def State.sendPacket (s : State) (n vc : Nat) (q : QueuedCell) : State :=
  (s.updFp n fun p => { p with
    outq := p.outq.erase q, pointers := mput zeroNat p.pointers vc ((q.input + 1) % 25)
    credit := mput zeroNat p.credit vc (mget zeroNat p.credit vc - 1) }).freeInput q.input q.buf

/-- Rule 3: a packet cell against a credit, VC2 before VC3 before VC1 before VC0. -/
def State.packetAt (s : State) (n : Nat) : Option (PacketCell × State) :=
  [2, 3, 1, 0].findSome? fun vc =>
    let p := s.fp n
    if 0 < mget zeroNat p.credit vc then
      (chosen (mget zeroNat p.pointers vc) (offers vc p.outq)).map fun q => (q.cell, s.sendPacket n vc q)
    else none

/-- The slot of a bad entry: the circuit cell that would go in it is discarded as TABLE (R323). -/
def State.spoilSlot (s : State) (n circuit : Nat) : State :=
  match s.slotCell n circuit with
  | some (_, s) => s.finc FAB_PORT_DISCARD.TABLE n
  | none => s

/-- What goes in a cell position whose slot of the frame is `slot`. While LOST no circuit cell goes (R324). -/
def State.cellAt (s : State) (n : Nat) (slot : Option Nat) : Cell × State :=
  let owner := if s.circuitOpen n then slot.bind (s.fp n).slotOwner else none
  let bad := match slot with | some x => (s.fp n).badSlot.contains x | none => false
  let s := match bad, owner with
    | true, some c => s.spoilSlot n c
    | _, _ => s
  match (if bad then none else owner).bind (s.slotCell n) with
  | some (c, s) => (.circuit c, s)
  | none =>
    match if s.circuitOpen n then s.oldCell n else none with
    | some (c, s) => (.circuit c, s)
    | none =>
      match s.packetAt n with
      | some (c, s) => (.packet c, s)
      | none => (.idle, s)

/-- Circuit cells at an output whose phase is neither the current nor the previous one are discarded as LATE (R309). -/
def State.dropLate (s : State) (n : Nat) : State :=
  let old := fun (c : CircuitCell) => s.inStep && c.phase != s.tally.count % 4 && (c.phase + 1) % 4 != s.tally.count % 4
  let p := s.fp n
  (s.setFp n { p with circOut := p.circOut.filter fun c => !old c }).fadd FAB_PORT_DISCARD.LATE n (p.circOut.countP old)

/-- The 26 cell positions of the block that starts now (R290): none is filled before the partner is READY (R321). -/
def State.fillBlock (s : State) (n : Nat) (first : Option Nat) : List Cell × State :=
  (List.range 26).foldl (fun acc i =>
    if acc.2.linkOpen n then
      let (c, s) := acc.2.cellAt n (first.map (· + i))
      (acc.1 ++ [c], s)
    else (acc.1 ++ [.idle], acc.2)) ([], s.dropLate n)

/-! ### Link blocks (R290 to R293) -/

/-- A block goes out with the link control of the moment: ACK, NAK and READY (R291). That a block sent again shows those of
the moment is DESIGN CHOICE. -/
def State.emitBlock (s : State) (n : Nat) (b : OutBlock) : State :=
  let p := s.fp n
  (s.setFp n { p with nakDue := false, resendAt := p.resendAt + 1 }).emit
    (.linkBlock n ((p.expect + 4095) % 4096) p.nakDue (s.fon FAB_PORT_STATUS.READY n) b)

/-- A new block: its cells, and the credits to be returned, at most 255 for a channel. It is an idle block if it carries no
cell. The replay buffer keeps it. -/
def State.newBlock (s : State) (n k : Nat) : State :=
  let (cells, s) := s.fillBlock n (s.frameAt k)
  let p := s.fp n
  let credit := (List.range 4).map fun v => min 255 (mget zeroNat p.toReturn v)
  let b : OutBlock := { seq := p.nextSeq, btype := if cells.all (· == .idle) then 1 else 0, credit := credit, cells := cells }
  (s.setFp n { p with
    nextSeq := (p.nextSeq + 1) % 4096, blocks := p.blocks ++ [b]
    toReturn := mputs zeroNat p.toReturn ((List.range 4).map fun v => (v, mget zeroNat p.toReturn v - credit.getD v 0)) }).emitBlock
      n b

/-- A port that is UP sends its next block: one of the replay buffer that is to be sent again, each counted in RETRIES; or a
new one, while the replay buffer of 256 blocks has room (R292). -/
def State.sendBlock (s : State) (n k : Nat) : State :=
  let p := s.fp n
  if s.portState n ≠ portUp then s
  else
    match p.blocks[p.resendAt]? with
    | some b => (s.finc FAB_PORT_LINK_ERR.RETRIES n).emitBlock n b
    | none => if p.blocks.length < 256 then s.newBlock n k else s

/-- Route and escape entries known bad are rewritten from another port's copy, which takes less than 1 µs (R323). -/
def State.rewriteCopies (s : State) : State :=
  s.forEach (List.range Config.nPorts) fun n s =>
    if (s.fp n).badRoute.isEmpty && (s.fp n).badEscape.isEmpty then s
    else s.updFp n fun p => { p with badRoute := [], badEscape := [] }

/-- The ports send the block that starts in the 10 ns that end now. -/
def State.linkTick (s : State) : State :=
  let s := s.rewriteCopies
  let k := blockAt s.tally.time
  if blockAt (s.tally.time - 1) < k then s.forEach (List.range Config.nPorts) fun n s => s.sendBlock n k else s

/-- Nothing is commanded for one 10 ns step of the time base (R27): TLY_TIME counts on, up to the step before the next edge,
which TALLY_EDGE alone passes, and the fabric ports send what they have. -/
def State.idle (s : State) : State :=
  if s.tally.time + 1 < s.tally.nextEdge then { s with tally := { s.tally with time := s.tally.time + 1 } }.linkTick
  else s

/-! ### The bytes of a block (R290, R291, R294, R295, R297) -/

/-- The 48 bytes of a cell. -/
def cellBytes : Cell → List Byte
  | .packet c =>
    leBytes 16 (1 + 2 ^ 2 * c.vc + 2 ^ 4 * c.esc.toNat + 2 ^ 5 * c.revValid.toNat + 2 ^ 6 * c.ptr + 2 ^ 10 * c.kind
      + 2 ^ 14 * (c.route.foldr (fun f n => f + 32 * n) 0) + 2 ^ 84 * c.src + 2 ^ 100 * c.dst + 2 ^ 116 * c.xid
      + 2 ^ 125 * c.index) ++ c.payload
  | .circuit c => leBytes 4 (2 + 2 ^ 2 * c.phase + 2 ^ 4 * c.circuit + 2 ^ 16 * c.part) ++ c.payload
  | _ => List.replicate 48 0

/-- Eight steps of the CRC-32 of IEEE 802.3, least significant bit first, for one byte. -/
def crcByte (r : BitVec 32) (b : Byte) : BitVec 32 :=
  (List.range 8).foldl (fun r _ => if r.getLsbD 0 then (r >>> 1) ^^^ 0xEDB88320#32 else r >>> 1) (r ^^^ b.setWidth 32)

/-- The CRC-32 of a list of bytes. That it starts from all ones and is inverted at the end, as IEEE 802.3 has it, is
PRESUMED: R291 names the polynomial alone. -/
def crc32 (l : List Byte) : BitVec 32 := (l.foldl crcByte 0xFFFFFFFF#32) ^^^ 0xFFFFFFFF#32

/-- The 1,285 bytes of a link block. -/
def blockBytes (ack : Nat) (nak ready : Bool) (b : OutBlock) : List Byte :=
  let body := b.cells.flatMap cellBytes ++ leBytes 2 (b.seq + 2 ^ 12 * b.btype)
    ++ leBytes 2 (ack + 2 ^ 12 * nak.toNat + 2 ^ 13 * ready.toNat)
    ++ leBytes 4 ((List.range 4).map fun v => 2 ^ (8 * v) * b.credit.getD v 0).sum ++ List.replicate 25 0
  body ++ leBytes 4 (crc32 body).toNat

end Sys2Proof.Machine
end

