-- ==== Sys2Proof/Safety.lean ====
section
/-! DEFINITION. What statements say about a command: that the device takes it, when a core meets an instruction, and
what a command leaves as it was. -/
namespace Sys2Proof

open Machine

/-- The command runs on the state: it neither faults nor is refused. -/
def Completes (c : Instr) (s : State) : Prop := ∃ t, exec c s = .next t

/-- The core `who` names issues its next instruction, no upset strikes it, and that instruction decodes to `i`, which
its class of core has (R102, R108, R109). -/
structure Fetches (s : State) (who : Issue) (i : Insn) : Prop where
  ok : who.ok = true
  upset : who.upset = .none
  issues : s.issues who.cluster who.core = true
  inside : (s.core who.cluster who.core).pc < imemWords who.core
  decodes : decodeInsn (mget (fun _ => 0) (s.core who.cluster who.core).imem (s.core who.cluster who.core).pc) = some i
  known : i.wrongCore who.core = false

/-- The state with the issuing core changed by `f` and gone on to its next instruction. -/
def goesOn (s : State) (who : Issue) (f : Core → Core) : State :=
  s.setCore who.cluster who.core (f (s.core who.cluster who.core)).advance

/-- No group of a cluster's vault holds an upset, and no injection of one is armed (R140, R141). -/
structure VaultSound (s : State) (L : Nat) : Prop where
  sound : ∀ g, mget (fun _ => false) (s.cl L).bad g = false
  quiet : s.fon VLT_PARITY_INJECT.ARM L = false

/-- A register write from the host reaches register `r` at `i`: its function answers, PLAT0 is up, the unit is placed, and
the register serves a write (R6, R8, R20). -/
structure Reached (s : State) (r : Reg) (i : Nat) : Prop where
  bars : s.barsOn = true
  up : s.up (domPlat 0) = true
  placed : s.unplacedReg r i = false
  served : s.served r i true = true

/-- A request from `source` is taken up (R424, R435, R436): on the management port only from whom the allow list and the
rates let in, and on MCTP while the Nose firmware runs. -/
def admits (s : State) : Requester → Bool
  | .doe => true
  | .mctp => s.fon NOS_STATUS.RUNNING 0 || s.fon NOS_STATUS.MINIMAL 0
  | .malformed _ => false
  | .udp .. => false
  | .aihar a => (s.fon NOS_STATUS.RUNNING 0 || s.fon NOS_STATUS.MINIMAL 0) && s.aiharOn
      && !(s.fon MGT_CTRL.ALLOW_ONLY 0 && !(s.collectors.any fun k => s.collectorAddr k == a))
      && decide (s.requestsOf a < 64) && decide (s.outstandingOf a < 16)

/-- The state in which a request from `source` that is taken up acts: one from the management port is counted. -/
def counted (s : State) : Requester → State
  | .aihar a => { s with nose := { s.nose with requests := s.recentRequests ++ [(a, s.tally.time)] } }
  | _ => s

/-- The next state of a command, where it has one. -/
def After (c : Instr) (s t : State) : Prop := exec c s = .next t

/-- Everything but the core `n` of cluster `L` is as it was: registers, memories, other cores, every other unit. -/
structure OnlyCore (s t : State) (L n : Nat) : Prop where
  others : ∀ m, m ≠ L → t.cl m = s.cl m
  cores : ∀ m, m ≠ n → t.core L m = s.core L m
  rest : { t with clusters := s.clusters } = s
  cluster : ∃ v, t.cl L = { s.cl L with cores := v }

/-! ### What the rows of the tally instruction set leave as it was -/

/-- The issuing core of a row of the tally instruction set. -/
def Instr.issue? : Instr → Option Issue
  | .alu w | .addi w | .andi w | .ori w | .xori w | .lui w | .shli w | .shri w | .srai w | .cmp w | .kop w | .vv w
  | .vs w | .vcmp w | .vcmps w | .sel w | .red w | .ldw w | .stw w | .vld w | .vst w | .sld w | .sst w | .vldr w
  | .vstr w | .bmax w | .rescale w | .smul w | .smov w | .sshift w | .sget w | .sput w | .smaxe w | .lut w | .qsend w
  | .qrecv w | .qsendt w | .qrecvt w | .msend w | .msendt w | .dmaq w | .dmaqt w | .dmapop w | .dmapopt w | .mxi w
  | .mxit w | .mxpop w | .mxpopt w | .beqz w | .bnez w | .jal w | .jr w | .sysNop w | .halt w | .wft w | .vrun w
  | .vwait w | .fence w | .trap w | .rdsr w => some w
  | _ => none

/-- A register that an instruction writes. -/
inductive Dest where
  | none
  | g (i : Nat)
  | k (i : Nat)
  | v (i : Nat)
  | s (i : Nat)
  deriving DecidableEq, Repr

/-- The row of an instruction that touches the registers of its core and its program counter alone, and the register that
it writes (R105, R106, R109, R123, R124). -/
def Machine.Insn.registerRow (who : Issue) : Insn → Option (Instr × Dest)
  | .alu _ d _ _ _ => some (.alu who, .g d)
  | .addi d _ _ => some (.addi who, .g d)
  | .andi d _ _ => some (.andi who, .g d)
  | .ori d _ _ => some (.ori who, .g d)
  | .xori d _ _ => some (.xori who, .g d)
  | .lui d _ => some (.lui who, .g d)
  | .shli d _ _ => some (.shli who, .g d)
  | .shri d _ _ => some (.shri who, .g d)
  | .srai d _ _ => some (.srai who, .g d)
  | .cmp _ d _ _ => some (.cmp who, .k d)
  | .kop .COUNT d _ _ => some (.kop who, .g d)
  | .kop _ d _ _ => some (.kop who, .k d)
  | .vv _ d _ _ _ => some (.vv who, .v d)
  | .vs _ d _ _ _ => some (.vs who, .v d)
  | .vcmp _ d _ _ => some (.vcmp who, .k d)
  | .vcmps _ d _ _ => some (.vcmps who, .k d)
  | .sel d _ _ _ => some (.sel who, .v d)
  | .red _ d _ _ => some (.red who, .g d)
  | .smov d _ _ => some (.smov who, .s d)
  | .sget d _ _ _ => some (.sget who, .g d)
  | .sput d _ _ _ => some (.sput who, .s d)
  | .lut d _ _ bits _ base => if 64 * base + 2 ^ bits ≤ 4096 then some (.lut who, .v d) else none
  | .beqz _ _ => some (.beqz who, .none)
  | .bnez _ _ => some (.bnez who, .none)
  | .jal d _ => some (.jal who, .g d)
  | .jr _ => some (.jr who, .none)
  | .nop => some (.sysNop who, .none)
  | .fence => some (.fence who, .none)
  | .halt => some (.halt who, .none)
  | .wft => some (.wft who, .none)
  | _ => none

/-- Every register but `d`, the memories and the sticky flags of a core are as they were; the program counter, the run
state and, after an SRAS, the generators may differ. -/
structure OnlyDest (c c' : Core) (d : Dest) : Prop where
  g : ∀ i, d ≠ .g i → c'.gr i = c.gr i
  k : ∀ i, d ≠ .k i → c'.kr i = c.kr i
  v : ∀ i, d ≠ .v i → c'.vr i = c.vr i
  s : ∀ i, d ≠ .s i → c'.sr i = c.sr i
  imem : c'.imem = c.imem
  lut : c'.lut = c.lut
  sticky : c'.sticky = c.sticky

/-- The row of a store of a core to a vault, the cluster it stores to, and the first and the number of the bytes it may
write (R112 to R114, R120): the address is the one its meaning computes. -/
def Machine.Insn.storeRow (s : State) (who : Issue) : Insn → Option (Instr × Nat × Nat × Nat)
  | .stw _ a _ off => some (.stw who, who.cluster, (s.core who.cluster who.core).addr a off, 4)
  | .vst _ a _ fmt off => (Fmt.ofCode fmt).map fun f =>
      (.vst who, who.cluster, (s.core who.cluster who.core).addr a off, rowBytes f.width 64)
  | .sst _ a _ sm16 blk off =>
      some (.sst who, who.cluster, (s.core who.cluster who.core).addr a off, blkScales blk * (scaleFmt sm16).bytes)
  | .vstr _ a b _ fmt => (Fmt.ofCode fmt).map fun f =>
      (.vstr who, ((s.core who.cluster who.core).gr b).toNat, (s.core who.cluster who.core).addr a 0, rowBytes f.width 64)
  | _ => none

/-- Byte `a` of the vault of cluster `L`. -/
def vaultByte (s : State) (L a : Nat) : Byte := mget zeroByte (s.cl L).vault a

/-- The clusters and their vaults are in canonical form, and a predicate register of a teller holds one bit (R102, R129). -/
structure CoresSound (s : State) : Prop where
  clusters : mwf (fun _ => Cluster.init) s.clusters = true
  vaults : ∀ L, mwf zeroByte (s.cl L).vault = true
  tellers : ∀ L i, i ≠ 0 → (s.core L 0).kr i &&& 1 = (s.core L 0).kr i

end Sys2Proof
end

