-- ==== Sys2Proof/Certificates/Slice0/Obligations.lean ====
section
/-! DEFINITION. The statements about the model: reset and the queue, the instruction set, and every family of commands. -/
section

open Sys2Proof Sys2Proof.Machine

/-! ### The queue, reset and completion -/

/-- A step takes the command at the front of the queue and has that command's effect on the state with the rest of the
queue; on an empty queue time goes on by one step of the time base (the model's choice, log entry 3)
(95_what_each_step_holds.md). -/
def Obligations.StepRunsFront : Prop := ∀ (s : State),
  (∀ c rest, s.pending = c :: rest → step s = exec c { s with pending := rest })
  ∧ (s.pending = [] → step s = .next s.idle)
  ∧ (∀ c rest, step { s with pending := c :: rest } = exec c { s with pending := rest })

/-- The device in power-on reset: every register holds its reset value, PD_AON alone is on, no cluster is placed and
no command waits. Where the spec gives a register no reset value, the value is the model's (log entry 2) (R11, R20,
R236, R450). -/
def Obligations.ResetState : Prop :=
  (∀ (r : Reg) (i : Nat), i < 2 ^ 20 → State.reset.rget r i = BitVec.ofNat 64 r.info.reset)
  ∧ (∀ k, State.reset.up k = true ↔ k = domAon)
  ∧ (∀ L, (State.reset.cl L).site = none ∧ State.reset.owner L = none ∧ State.reset.reachable L = false)
  ∧ (∀ L n, (State.reset.core L n).run = .idle)
  ∧ State.reset.pending = [] ∧ State.reset.out = []

/-- A command completes on every state exactly where the units it names exist; one that names no unit of the device
faults with that name (the model's stop, log entry 5). No command is refused (R13, R14, R16). -/
def Obligations.CompletesIffWellFormed : Prop := ∀ (c : Instr) (s : State),
  (c.wf = true → Completes c s) ∧ (c.wf = false → exec c s = .fault .noSuchUnit)

/-- The device in power-on reset is sound (R102, R129). -/
def Obligations.ResetSound : Prop :=
  CoresSound State.reset

/-- Every step that runs a row of the tally instruction set keeps the clusters' and the vaults' canonical form and
leaves one bit in each predicate register of a teller, whatever the instruction found there is and whether it faults
(R102, R103, R109, R126, R129). -/
def Obligations.CoreRowsKeepSound : Prop := ∀ (s t : State) (c : Instr) (rest : List Instr) (who : Issue),
  s.pending = c :: rest → c.issue? = some who → CoresSound s → step s = .next t → CoresSound t

/-! ### The tally instruction set (05_teller_and_vector_cores.md) -/

/-- Words written out from the formats of R108 and the opcodes of R109 decode to what they stand for, and the all-zero
word, a nonzero FMT of LDW and a k index of 8 are ILLEGAL (R108, R109). -/
def Obligations.WrittenWords : Prop :=
  decodeInsn 0b000001_00011_00001_00010_000_00000001#32 = some (.alu .SUB 3 1 2 0)
  ∧ decodeInsn 0b000010_00101_00100_1111111111111111#32 = some (.addi 5 4 0xFFFFFFFF#32)
  ∧ decodeInsn 0b000100_00101_00100_1111111111111111#32 = some (.ori 5 4 0x0000FFFF#32)
  ∧ decodeInsn 0b011000_00111_00110_010_0000_111111110#32 = some (.ldw 7 6 2 (-8))
  ∧ decodeInsn 0b011010_01111_00110_001_0011_000000010#32 = some (.vld 15 6 1 3 32)
  ∧ decodeInsn 0b100001_0001_0010_011_100_0101_0110_10_1_0#32 = some (.rescale 1 2 3 4 5 6 2 true)
  ∧ decodeInsn 0b101010_0011_100_101_00110_00000000111#32 = some (.qsend true 3 4 5 6 7)
  ∧ decodeInsn 0b100011_0001_0010_011_1100_00100_000101#32 = some (.lut 1 2 3 12 4 5)
  ∧ decodeInsn 0b110000_01001_111111111111111111111#32 = some (.beqz 9 (-1))
  ∧ decodeInsn 0#32 = none
  ∧ decodeInsn 0b011000_00111_00110_010_0001_111111110#32 = none
  ∧ decodeInsn 0b001010_01000_00001_00010_000_00000000#32 = none

/-- Instruction words: every instruction whose fields fit is read back from its word, and every word that has a
decoding gives an instruction whose fields fit (R108, R109). -/
def Obligations.CoreWordsRoundTrip : Prop :=
  (∀ i : Insn, i.encodable = true → decodeInsn (encodeInsn i) = some i)
  ∧ (∀ (w : Word) (i : Insn), decodeInsn w = some i → i.encodable = true)

/-- The frame of the instructions that touch registers alone: every register but the destination, the memories of the
core, its sticky flags, every other core, every byte of every vault and every other unit stay as they were. A vector
core with an armed injection, and an upset, are stated apart (R102, R105, R106, R109, R110, R124). -/
def Obligations.RegisterRowFrame : Prop := ∀ (s t : State) (who : Issue) (i : Insn) (c : Instr) (d : Dest),
  Fetches s who i → i.registerRow who = some (c, d) →
  s.fon VEC_RESIDUE_INJECT.ARM (who.cluster * 2 + (who.core - 1)) = false → exec c s = .next t →
  OnlyCore s t who.cluster who.core
  ∧ OnlyDest (s.core who.cluster who.core) (t.core who.cluster who.core) d
  ∧ (∀ L a, vaultByte t L a = vaultByte s L a)

/-- The frame of the stores of a core: every byte of every vault outside the bytes of the store, whose address is
computed as the instruction computes it, reads as before, and so do all registers of the core and every core of every
other cluster (R112, R113, R114, R120). -/
def Obligations.StoreFrame : Prop := ∀ (s t : State) (who : Issue) (i : Insn) (c : Instr) (R x n : Nat),
  Fetches s who i → i.storeRow s who = some (c, R, x, n) → VaultSound s R → exec c s = .next t →
  (∀ L a, L ≠ R ∨ a < x ∨ x + n ≤ a → vaultByte t L a = vaultByte s L a)
  ∧ (∀ g, (t.core who.cluster who.core).gr g = (s.core who.cluster who.core).gr g)
  ∧ (∀ v, (t.core who.cluster who.core).vr v = (s.core who.cluster who.core).vr v)
  ∧ (∀ k, (t.core who.cluster who.core).kr k = (s.core who.cluster who.core).kr k)
  ∧ (∀ r, (t.core who.cluster who.core).sr r = (s.core who.cluster who.core).sr r)
  ∧ (∀ L m, L ≠ who.cluster → t.core L m = s.core L m)

/-- VRUN starts a halted vector core at a given instruction address with g8 to g15 of the teller and the core's other
registers as they were; HALT stops a vector core; VRUN of a running core waits until that core halts (R105). -/
def Obligations.VectorCoresStart : Prop := ∀ (s : State) (who : Issue) (v a : Nat),
  let L := who.cluster
  (Fetches s who (.vrun v a) → v < 2 → (s.core L (v + 1)).run = .idle → ∃ t, exec (.vrun who) s = .next t
    ∧ (t.core L (v + 1)).run = .running
    ∧ (t.core L (v + 1)).pc = ((s.core L who.core).gr a).toNat
    ∧ (∀ i, 8 ≤ i → i < 16 → (t.core L (v + 1)).gr i = (s.core L who.core).gr i)
    ∧ (∀ i, i < 8 ∨ 16 ≤ i → (t.core L (v + 1)).gr i = (s.core L (v + 1)).gr i)
    ∧ (∀ i, (t.core L (v + 1)).kr i = (s.core L (v + 1)).kr i)
    ∧ (∀ i, (t.core L (v + 1)).vr i = (s.core L (v + 1)).vr i)
    ∧ (∀ i, (t.core L (v + 1)).sr i = (s.core L (v + 1)).sr i))
  ∧ (Fetches s who .halt → ∃ t, exec (.halt who) s = .next t ∧ (t.core L who.core).run = .idle)
  ∧ (Fetches s who (.vrun v a) → v < 2 → (s.core L (v + 1)).run ≠ .idle → ∃ t, exec (.vrun who) s = .next t
    ∧ (t.core L who.core).run = .blocked ∧ (t.core L who.core).pc = (s.core L who.core).pc
    ∧ t.core L (v + 1) = s.core L (v + 1)
    ∧ ((t.core L (v + 1)).run ≠ .idle → exec (.coreUnblock L who.core) t = .next t)
    ∧ (∀ u, (u.core L who.core).run = .blocked → (u.core L who.core).wait = (t.core L who.core).wait →
        (u.core L (v + 1)).run = .idle → ∃ w, exec (.coreUnblock L who.core) u = .next w
          ∧ (w.core L who.core).run = .running))

/-- what RED writes over the lanes of its predicate, for every function and for no lane at all (R111). -/
def Obligations.Reductions : Prop :=
  (∀ (s : State) (who : Issue) (fn : RedFn) (d a kp : Nat),
    s.fon VEC_RESIDUE_INJECT.ARM (who.cluster * 2 + (who.core - 1)) = false → Fetches s who (.red fn d a kp) →
    ∃ t, exec (.red who) s = .next t ∧ (d ≠ 0 → d < 32 → (t.core who.cluster who.core).gr d
      = reduce fn (((List.range 64).filter fun l => lane ((s.core who.cluster who.core).kr kp) l).map
          ((s.core who.cluster who.core).vl a))))
  ∧ reduce .ADD [] = 0 ∧ reduce .ADDS [] = 0 ∧ (reduce .MAX []).toInt = -2 ^ 31 ∧ (reduce .MIN []).toInt = 2 ^ 31 - 1
  ∧ reduce .MAXABS [] = 0
  ∧ (∀ xs : List Word, let sum := (xs.map BitVec.toInt).sum
    reduce .ADD xs = BitVec.ofInt 32 sum ∧ (reduce .ADDS xs).toInt = max (-2 ^ 31) (min (2 ^ 31 - 1) sum))
  ∧ (∀ xs ys : List Word, xs.Perm ys → reduce .ADDS xs = reduce .ADDS ys)
  ∧ (∀ xs : List Word, xs ≠ [] →
    ((∀ x ∈ xs, x.toInt ≤ (reduce .MAX xs).toInt) ∧ reduce .MAX xs ∈ xs)
    ∧ ((∀ x ∈ xs, (reduce .MIN xs).toInt ≤ x.toInt) ∧ reduce .MIN xs ∈ xs)
    ∧ ((∀ x ∈ xs, min (x.toInt.natAbs : Int) (2 ^ 31 - 1) ≤ (reduce .MAXABS xs).toInt)
      ∧ ∃ x ∈ xs, (reduce .MAXABS xs).toInt = min (x.toInt.natAbs : Int) (2 ^ 31 - 1)))

/-- after a VST to bytes that the core may store to, of a vault in canonical form, the row reads back the performed
lanes, each at the nearest value that FMT holds, and every other lane as it was; SATURATED is set where a performed
lane did not fit (R113). -/
def Obligations.VstStoresItsLanes : Prop := ∀ (s : State) (who : Issue) (d a kp fmt : Nat) (off : Int) (f : Fmt),
  let L := who.cluster
  let n := who.core
  let c := s.core L n
  let x := c.addr a off
  let old := unpackRow f (s.vbytes L x (rowBytes f.width 64)) 64
  Fetches s who (.vst d a kp fmt off) → VaultSound s L → mwf zeroByte (s.cl L).vault = true →
  Fmt.ofCode fmt = some f → c.kr kp ≠ 0 → x % 16 = 0 →
  x + rowBytes f.width 64 ≤ Config.vaultBytes →
  (∀ o ∈ touched f.width (c.kr kp), ∃ i r, s.regionAt L (x + o) = some (i, r) ∧ r.kind ≠ 3 ∧ r.kind ≠ 4
    ∧ r.inCurrent (x + o) = false) →
  ∃ t, exec (.vst who) s = .next t
    ∧ unpackRow f (t.vbytes L x (rowBytes f.width 64)) 64
      = (List.range 64).map (fun l => if lane (c.kr kp) l then max f.lo (min f.hi (c.vl d l).toInt) else old.getD l 0)
    ∧ ((t.core L n).sticky.testBit 16 = (c.sticky.testBit 16
      || (List.range 64).any fun l => lane (c.kr kp) l && decide ((c.vl d l).toInt < f.lo ∨ f.hi < (c.vl d l).toInt)))
    ∧ (∀ b, b < x ∨ x + rowBytes f.width 64 ≤ b → vaultByte t L b = vaultByte s L b)

/-- The scalar arithmetic of a core: where its predicate is true the destination takes the result of R109 and the core
goes on; where it is false the core only goes on (R102, R109, R110). -/
def Obligations.ScalarArithmetic : Prop := ∀ (s : State) (who : Issue) (d a b kp : Nat) (imm : Word),
  let c := s.core who.cluster who.core
  (∀ fn, Fetches s who (.alu fn d a b kp) → exec (.alu who) s = .next (goesOn s who fun c =>
    if lane (c.kr kp) 0 then c.setG d (alu fn 0 (c.gr a) (c.gr b)) else c))
  ∧ (Fetches s who (.addi d a imm) → exec (.addi who) s = .next (goesOn s who (·.setG d (c.gr a + imm))))
  ∧ (Fetches s who (.andi d a imm) → exec (.andi who) s = .next (goesOn s who (·.setG d (c.gr a &&& imm))))
  ∧ (Fetches s who (.ori d a imm) → exec (.ori who) s = .next (goesOn s who (·.setG d (c.gr a ||| imm))))
  ∧ (Fetches s who (.xori d a imm) → exec (.xori who) s = .next (goesOn s who (·.setG d (c.gr a ^^^ imm))))
  ∧ (Fetches s who (.lui d imm) → exec (.lui who) s = .next (goesOn s who (·.setG d imm)))
  ∧ (Fetches s who (.shli d a b) → exec (.shli who) s = .next (goesOn s who (·.setG d (c.gr a <<< b))))
  ∧ (Fetches s who (.shri d a b) → exec (.shri who) s = .next (goesOn s who (·.setG d (c.gr a >>> b))))
  ∧ (Fetches s who (.srai d a b) → exec (.srai who) s = .next (goesOn s who (·.setG d ((c.gr a).sshiftRight b))))
  ∧ (∀ fn, Fetches s who (.cmp fn d a b) → exec (.cmp who) s = .next (goesOn s who fun c =>
      c.setK (who.core == 0) d (allLanes (compare fn (c.gr a) (c.gr b)))))
  ∧ (∀ fn, Fetches s who (.kop fn d a b) → exec (.kop who) s = .next (goesOn s who (kop (who.core == 0) fn d a b)))

/-- Branches, jumps and the system instructions: what the program counter becomes, which register JAL links, where
HALT and WFT leave the core; VRUN of a halted vector core starts it and of a running one waits; VWAIT goes on once the
named cores have halted; RDSR reads the sticky flags or the core's number; TRAP faults with code 0x26, stops the
cluster's cores and makes one record of severity 2. The cycle count that RDSR reads is a free value (log entry 7)
(R105, R106, R109, R115, R126). -/
def Obligations.ControlFlow : Prop :=
  (∀ (s : State) (who : Issue) (a d : Nat) (off : Int),
    let L := who.cluster
    let n := who.core
    let c := s.core L n
    (Fetches s who (.beqz a off) → exec (.beqz who) s = .next (s.setCore L n
      { c with pc := if c.gr a = 0 then pcAdd c.pc off else pcAdd c.pc 1 }))
    ∧ (Fetches s who (.bnez a off) → exec (.bnez who) s = .next (s.setCore L n
      { c with pc := if c.gr a = 0 then pcAdd c.pc 1 else pcAdd c.pc off }))
    ∧ (Fetches s who (.jal d off) → exec (.jal who) s = .next (s.setCore L n
      { c.setG d (BitVec.ofNat 32 (pcAdd c.pc 1)) with pc := pcAdd c.pc off }))
    ∧ (Fetches s who (.jr a) → exec (.jr who) s = .next (s.setCore L n { c with pc := (c.gr a).toNat }))
    ∧ (Fetches s who .nop → exec (.sysNop who) s = .next (goesOn s who id))
    ∧ (Fetches s who .fence → exec (.fence who) s = .next (goesOn s who id))
    ∧ (Fetches s who .halt → exec (.halt who) s = .next (s.setCore L n { c.advance with run := .idle }))
    ∧ (Fetches s who .wft → exec (.wft who) s = .next (s.setCore L n { c.advance with run := .wft })))
  ∧ (∀ (s : State) (who : Issue) (v a d m code : Nat),
    let L := who.cluster
    let n := who.core
    let c := s.core L n
    (Fetches s who (.vrun v a) → (s.core L (v + 1)).run = .idle →
      exec (.vrun who) s = .next (goesOn (s.setCore L (v + 1) ((s.core L (v + 1)).start c (c.gr a).toNat)) who id))
    ∧ (Fetches s who (.vrun v a) → (s.core L (v + 1)).run ≠ .idle →
      exec (.vrun who) s = .next (s.setCore L n { c with run := .blocked, wait := some (.cores (2 ^ v)) }))
    ∧ (Fetches s who (.vwait m) → (s.cl L).halted m = true → exec (.vwait who) s = .next (goesOn s who id))
    ∧ (Fetches s who (.rdsr d 0) → exec (.rdsr who) s
        = .next (goesOn { s with fresh := s.fresh + 1 } who (·.setG d (Config.cycles s.fresh))))
    ∧ (Fetches s who (.rdsr d 1) → exec (.rdsr who) s = .next (goesOn s who (·.setG d (BitVec.ofNat 32 n))))
    ∧ (Fetches s who (.rdsr d 2) → exec (.rdsr who) s = .next (goesOn s who (·.setG d (BitVec.ofNat 32 c.sticky))))
    ∧ (Fetches s who (.trap code) → exec (.trap who) s = .next
        (((s.stopCores L n 0x26).report sevError blkTLR 0x26 L (s.owner L)
          [BitVec.ofNat 32 (faultWord 0x26 n c.pc), BitVec.ofNat 32 code]).markClusterFault L 0x03)))

/-- The vector arithmetic: lanes of the predicate take results, the others stay. An instruction that the residue check
covers is stated for a core without an armed injection (R109, R110, R111, R124, R125, R127). -/
def Obligations.VectorArithmetic : Prop := ∀ (s : State) (who : Issue) (d a b kp : Nat),
  let c := s.core who.cluster who.core
  let quiet := s.fon VEC_RESIDUE_INJECT.ARM (who.cluster * 2 + (who.core - 1)) = false
  (∀ fn, quiet → Fetches s who (.vv fn d a b kp) →
    exec (.vv who) s = .next (goesOn s who (·.vectorAlu fn d a (c.vl b) kp)))
  ∧ (∀ fn, quiet → Fetches s who (.vs fn d a b kp) →
    exec (.vs who) s = .next (goesOn s who (·.vectorAlu fn d a (fun _ => c.gr b) kp)))
  ∧ (∀ fn, Fetches s who (.vcmp fn d a b) → exec (.vcmp who) s
      = .next (goesOn s who (·.setK false d (lanesOf fun l => compare fn (c.vl a l) (c.vl b l)))))
  ∧ (∀ fn, Fetches s who (.vcmps fn d a b) → exec (.vcmps who) s
      = .next (goesOn s who (·.setK false d (lanesOf fun l => compare fn (c.vl a l) (c.gr b)))))
  ∧ (Fetches s who (.sel d a b kp) → exec (.sel who) s
      = .next (goesOn s who (·.setLanes d fun l => some (if lane (c.kr kp) l then c.vl a l else c.vl b l))))
  ∧ (∀ fn, quiet → Fetches s who (.red fn d a kp) →
    exec (.red who) s = .next (goesOn s who (·.setG d (reduce fn (c.selected a kp)))))
  ∧ (∀ bits shift base, Fetches s who (.lut d a kp bits shift base) → 64 * base + 2 ^ bits ≤ 4096 →
    exec (.lut who) s = .next (goesOn s who (·.setLanes d fun l => if lane (c.kr kp) l then
      some (mget (fun _ => 0) c.lut (64 * base + (c.vl a l).toNat >>> shift % 2 ^ bits)) else none)))

/-- Loads of a vault without an upset or an armed injection: LDW and SLD where the scalar predicate is true, VLD in
the lanes of its predicate; a stored scale that is invalid is counted and reported; without a performed lane the core
only goes on (R68, R110, R112, R120, R140). -/
def Obligations.VaultLoads : Prop := ∀ (s : State) (who : Issue) (d a kp : Nat) (off : Int),
  let L := who.cluster
  let c := s.core L who.core
  let x := c.addr a off
  VaultSound s L →
  (Fetches s who (.ldw d a kp off) → lane (c.kr kp) 0 = true → x % 4 = 0 → x + 4 ≤ Config.vaultBytes →
    s.readOk L x 4 = true →
    exec (.ldw who) s = .next (goesOn s who (·.setG d (BitVec.ofNat 32 (leNat (s.vbytes L x 4))))))
  ∧ (∀ fmt f, Fetches s who (.vld d a kp fmt off) → Fmt.ofCode fmt = some f → c.kr kp ≠ 0 → x % 16 = 0 →
    x + rowBytes f.width 64 ≤ Config.vaultBytes →
    (∀ o ∈ touched f.width (c.kr kp), (s.regionAt L (x + o)).isSome = true) →
    exec (.vld who) s = .next (goesOn s who (·.setLanes d fun l => if lane (c.kr kp) l then
      some (BitVec.ofInt 32 ((unpackRow f (s.vbytes L x (rowBytes f.width 64)) 64).getD l 0)) else none)))
  ∧ (∀ sm16 blk, Fetches s who (.sld d a kp sm16 blk off) → blk < 3 → lane (c.kr kp) 0 = true →
    x + blkScales blk * (scaleFmt sm16).bytes ≤ Config.vaultBytes →
    s.readOk L x (blkScales blk * (scaleFmt sm16).bytes) = true →
    let stored := fun i => Scale.decode (scaleFmt sm16) (leNat (((s.vbytes L x (blkScales blk * (scaleFmt sm16).bytes)).drop
      (i * (scaleFmt sm16).bytes)).take (scaleFmt sm16).bytes))
    let invalid := (List.range (blkScales blk)).any fun i => stored i == .invalid
    exec (.sld who) s = .next (goesOn ((s.scaleRecord L who.core invalid).outcomes L who.core { scaleInvalid := invalid }) who
      (·.setS d (scaleReg fun e => stored (e * blkScales blk / 4)))))
  ∧ (Fetches s who (.ldw d a kp off) → lane (c.kr kp) 0 = false → exec (.ldw who) s = .next (goesOn s who id))
  ∧ (∀ fmt f, Fetches s who (.vld d a kp fmt off) → Fmt.ofCode fmt = some f → c.kr kp = 0 →
    exec (.vld who) s = .next (goesOn s who id))

/-- Stores to a vault: the store of the word, row or scales, its outcome flags, and the core goes on (R112, R113,
R120, R134). -/
def Obligations.VaultStores : Prop := ∀ (s : State) (who : Issue) (d a kp : Nat) (off : Int),
  let L := who.cluster
  let n := who.core
  let c := s.core L n
  let x := c.addr a off
  (Fetches s who (.stw d a kp off) → lane (c.kr kp) 0 = true → x % 4 = 0 → x + 4 ≤ Config.vaultBytes →
    exec (.stw who) s = .next (goesOn (s.coreStore L x (leBytes 4 (c.gr d).toNat) (corePort n)) who id))
  ∧ (∀ fmt f, Fetches s who (.vst d a kp fmt off) → Fmt.ofCode fmt = some f → c.kr kp ≠ 0 → x % 16 = 0 →
    x + rowBytes f.width 64 ≤ Config.vaultBytes →
    exec (.vst who) s = .next (goesOn ((s.storeRow L x f (c.kr kp) (fun l => (c.vl d l).toInt) (corePort n)).outcomes L n
      { saturated := saturates f (c.kr kp) fun l => (c.vl d l).toInt }) who id))
  ∧ (∀ sm16 blk, Fetches s who (.sst d a kp sm16 blk off) → blk < 3 → lane (c.kr kp) 0 = true →
    x + blkScales blk * (scaleFmt sm16).bytes ≤ Config.vaultBytes →
    let es := (List.range (blkScales blk)).map fun i => c.entry d (i * 4 / blkScales blk)
    exec (.sst who) s = .next (goesOn ((s.coreStore L x
      (es.flatMap fun e => leBytes (scaleFmt sm16).bytes (Scale.encode (scaleFmt sm16) e)) (corePort n)).outcomes L n
        { scaleInvalid := es.any (writesInvalid (scaleFmt sm16)) }) who id))

/-- VLDR and VSTR reach the vault of another cluster of the context; where the mesh answers FENCED or UNREACHABLE a
load gives zeros, a store is dropped and the core goes on; where only the answer cannot come back, a load gives zeros
as well, and a store has been made (R112, R114). -/
def Obligations.RemoteVault : Prop := ∀ (s : State) (who : Issue) (d a b kp fmt : Nat) (f : Fmt),
  let L := who.cluster
  let n := who.core
  let c := s.core L n
  let x := c.addr a 0
  let R := (c.gr b).toNat
  Fmt.ofCode fmt = some f → c.kr kp ≠ 0 → x % 16 = 0 → x + rowBytes f.width 64 ≤ Config.vaultBytes →
  s.sameContext L R = true →
  let refused := s.askRefusal (.cluster L (3 + n)) (.cluster R 0)
  let unread := s.readRefused (.cluster L (3 + n)) (.cluster R 0)
  (Fetches s who (.vldr d a b kp fmt) → unread = false → VaultSound s R →
    (∀ o ∈ touched f.width (c.kr kp), (s.regionAt R (x + o)).isSome = true) →
    exec (.vldr who) s = .next (goesOn s who (·.setLanes d fun l => if lane (c.kr kp) l then
      some (BitVec.ofInt 32 ((unpackRow f (s.vbytes R x (rowBytes f.width 64)) 64).getD l 0)) else none)))
  ∧ (Fetches s who (.vldr d a b kp fmt) → unread = true →
    exec (.vldr who) s = .next (goesOn (s.answeredFenced L R) who
      (·.setLanes d fun l => if lane (c.kr kp) l then some 0 else none)))
  ∧ (Fetches s who (.vstr d a b kp fmt) → refused = none →
    let t := (s.storeRow R x f (c.kr kp) (fun l => (c.vl d l).toInt) .mesh).outcomes L n
      { saturated := saturates f (c.kr kp) fun l => (c.vl d l).toInt }
    exec (.vstr who) s = .next (goesOn (if t.answerCut (.cluster L (3 + n)) (.cluster R 0) then t.answeredFenced L R else t)
      who id))
  ∧ (Fetches s who (.vstr d a b kp fmt) → refused ≠ none →
    exec (.vstr who) s = .next (goesOn (s.answeredFenced L R) who id))

/-- The scale instructions: what each writes to the scale, vector or general registers, and the sticky flags and
counters that its outcomes raise (R67, R110, R119, R121, R122, R123). -/
def Obligations.ScaleInstructions : Prop := ∀ (s : State) (who : Issue) (d a b kp : Nat),
  let L := who.cluster
  let n := who.core
  let c := s.core L n
  let invalid := fun (f : Nat → Scale) => { scaleInvalid := (List.range 4).any fun e => (f e).held == .invalid : Outcomes }
  (Fetches s who (.smul d a b kp) → lane (c.kr kp) 0 = true → let f := fun e => (c.entry a e).mul (c.entry b e)
    exec (.smul who) s = .next (goesOn (s.outcomes L n (invalid f)) who (·.setS d (scaleReg f))))
  ∧ (Fetches s who (.smaxe d a b kp) → lane (c.kr kp) 0 = true → let f := fun e => (c.entry a e).maxE (c.entry b e)
    exec (.smaxe who) s = .next (goesOn (s.outcomes L n (invalid f)) who (·.setS d (scaleReg f))))
  ∧ (Fetches s who (.smov d a kp) → lane (c.kr kp) 0 = true →
    exec (.smov who) s = .next (goesOn s who (·.setS d (c.sr a))))
  ∧ (∀ e, Fetches s who (.sget d a e kp) → lane (c.kr kp) 0 = true →
    exec (.sget who) s = .next (goesOn s who (·.setG d ((c.sr a).toArray.getD e 0))))
  ∧ (∀ mask, Fetches s who (.sput d a mask kp) → lane (c.kr kp) 0 = true →
    exec (.sput who) s = .next (goesOn s who (·.setS d (Vector.ofFn fun i : Fin 4 =>
      if mask.testBit i then c.gr a &&& entryMask else (c.sr d).toArray.getD i 0))))
  ∧ (Fetches s who (.sshift d a b kp) → lane (c.kr kp) 0 = true →
    let shifted := fun i => match c.entry a i with
      | .normal e m => some (Scale.normal (e + (c.gr b).toInt) m)
      | _ => none
    let left := (List.range 4).any fun i => (shifted i).map Scale.held == some .invalid
    exec (.sshift who) s = .next (goesOn (s.outcomes L n { scaleInvalid := left }) who
      (·.setS d (Vector.ofFn fun i : Fin 4 => ((shifted i).map Scale.entry).getD ((c.sr a).toArray.getD i 0)))))
  ∧ (∀ va sd fmt f blk sm16, Fetches s who (.bmax va a sd fmt kp blk sm16) → Fmt.ofCode fmt = some f → blk < 3 →
    let bs := (blockEntries blk).map (c.bmaxBlock va a kp f (scaleFmt sm16))
    let flags := bs.foldl (fun o x => o.or x.2) {}
    exec (.bmax who) s = .next (goesOn ((s.scaleRecord L n flags.scaleInvalid).outcomes L n flags) who
      (·.setS sd (scaleReg fun e => (bs.flatMap (·.1)).getD e .zero))))
  ∧ (∀ vd va sd fmt f conv cv blk sm16, Fetches s who (.rescale vd va a sd fmt conv blk sm16) → Fmt.ofCode fmt = some f →
    blk < 3 → Conv.ofField conv false = some cv →
    s.fon VEC_RESIDUE_INJECT.ARM (L * 2 + (n - 1)) = false →
    let r := c.rescaleAll va a sd f (scaleFmt sm16) cv (blockEntries blk) c.gen
    exec (.rescale who) s = .next (goesOn ((s.scaleRecord L n r.2.2.1.scaleInvalid).outcomes L n r.2.2.1) who fun c =>
      { (c.setLanes vd fun l => some (BitVec.ofInt 32 (r.1.getD l 0))).setS sd (scaleReg fun e => r.2.1.getD e .zero) with
        gen := r.2.2.2 }))

/-- QSEND and QRECV move tokens against credit: a send takes a credit and puts one token on the mesh, or, to a
clearing group, sends its contribution; a receive reads the slot of the oldest token of its endpoint, takes it and
returns its credit; the try forms do the same where they can, and answer WOULD_BLOCK (1) where a blocking form blocks
(R116, R117, R176). -/
def Obligations.TokenInstructions : Prop := ∀ (s : State) (who : Issue) (try_ : Bool) (v sc k g q : Nat) (e : Endpoint),
  let L := who.cluster
  let n := who.core
  let c := s.core L n
  let qsend := if try_ then Instr.qsendt who else .qsend who
  let qrecv := if try_ then Instr.qrecvt who else .qrecv who
  s.ep L q = some e →
  (Fetches s who (.qsend try_ v sc k g q) → e.send = true → e.kind ≠ .clear → e.credits ≠ 0 →
    exec qsend s = .next (goesOn (s.sendToken L q (3 + n) q e (c.kr k) (c.sr sc).toList (c.vr v).toList false) who (·.setG g 0)))
  ∧ (Fetches s who (.qsend try_ v sc k g q) → e.send = true → e.kind = .clear →
    exec qsend s = .next (goesOn (s.sendClear L e.peer (c.gr 4).toNat (3 + n) (contributionScale (c.sr sc)).1
      (contributionScale (c.sr sc)).2 ((List.range 64).map fun i => if lane (c.kr k) i then c.vl v i else 0) false) who
      (·.setG g 0)))
  ∧ (Fetches s who (.qsend false v sc k g q) → e.send = true → e.kind ≠ .clear → e.credits = 0 →
    exec (.qsend who) s = .next (s.setCore L n { c with run := .blocked, wait := some (.credit q) }))
  ∧ (Fetches s who (.qsend true v sc k g q) → e.send = true → e.kind ≠ .clear → e.credits = 0 →
    ∃ t, exec (.qsendt who) s = .next t ∧ t.mesh = s.mesh ∧
      t.core L n = { (c.setG g 1).advance with tryWait := some (.credit q, (s.cl L).progress) })
  ∧ (Fetches s who (.qrecv try_ v sc k g q) → e.send = false → ∀ tok p rest, e.held = (tok, p) :: rest →
    exec qrecv s = .next (goesOn ((((s.slotRead L q e).setEp L q e.shift).returnCredit L q p).progress L) who
      (·.takeToken v sc k g tok)))
  ∧ (Fetches s who (.qrecv false v sc k g q) → e.send = false → e.held = [] →
    exec (.qrecv who) s = .next (s.setCore L n { c with run := .blocked, wait := some (.token q) }))
  ∧ (Fetches s who (.qrecv true v sc k g q) → e.send = false → e.held = [] →
    ∃ t, exec (.qrecvt who) s = .next t ∧ t.mesh = s.mesh ∧
      t.core L n = { (c.setG g 1).advance with tryWait := some (.token q, (s.cl L).progress) })

/-- MSEND and MSENDT read a message at gA and give it to the message unit, and the core waits for its answer; the try
forms of MXI, DMAQ, MXPOP and DMAPOP differ from the blocking ones only where the resource is absent (R89, R117, R118,
R250, R260, R262, R263). -/
def Obligations.UnitQueueInstructions : Prop := ∀ (s : State) (who : Issue) (try_ : Bool) (d a b kp : Nat),
  let L := who.cluster
  let n := who.core
  let c := s.core L n
  let x := (c.gr a).toNat
  lane (c.kr kp) 0 = true →
  (Fetches s who (.msend try_ d a b kp) → VaultSound s L → ∀ cx, s.owner L = some cx → x % 32 = 0 →
    x + 32 ≤ Config.vaultBytes → s.readOk L x 32 = true → s.msgRefusal cx x (s.vbytes L x 32) = none →
    let m := s.vbytes L x (msgBytes (s.vbytes L x 32))
    s.readOk L x (msgBytes (s.vbytes L x 32)) = true →
    exec (if try_ then .msendt who else .msend who) s = .next (((s.setSend L n
      (some { d := d, b := b, try_ := try_, msg := m, held := false, heldAt := 0, answer := none })).injectMsg L n cx m).block L n .answer))
  ∧ (Fetches s who (.dmaq try_ d a b kp) → x % 64 = 0 → x + 64 ≤ Config.vaultBytes → (s.cl L).dma.room = true →
    exec (if try_ then .dmaqt who else .dmaq who) s = .next (goesOn (s.acceptDma L x).2.2 who fun c =>
      (c.setG d (BitVec.ofNat 32 (s.acceptDma L x).1)).setG b (s.acceptDma L x).2.1))
  ∧ (Fetches s who (.mxi try_ d a kp) → x % 64 = 0 → x + 64 ≤ Config.vaultBytes → (s.cl L).matrix.room = true →
    exec (if try_ then .mxit who else .mxi who) s = .next (goesOn (s.acceptDesc L x) who (·.setG d 0)))
  ∧ (Fetches s who (.dmapop try_ d b kp) → ∀ w rest, (s.cl L).dma.done = w :: rest →
    exec (if try_ then .dmapopt who else .dmapop who) s
      = .next (goesOn ((s.updDma L fun x => { x with done := rest }).progress L) who fun c => (c.setG d 0).setG b w))
  ∧ (Fetches s who (.mxpop try_ d b kp) → ∀ w rest, (s.cl L).matrix.done = w :: rest →
    exec (if try_ then .mxpopt who else .mxpop who) s
      = .next (goesOn (s.popCompletion L) who fun c => (c.setG d 0).setG b w))

/-- A blocked core goes on at its instruction once what it waits for is there; a doubled-up site whose cluster yields
turns to the other one; a write of 1 arms an injection on a placed cluster in service, and waits while the cluster is
being moved; a cluster finishes when its teller is in WFT and everything that WFT waits for holds: the teller shows
finished, the cluster's cycle count, a free value (log entry 7), is taken, and no other cluster changes (R12, R106,
R107, R127, R140). -/
def Obligations.CoreAndSiteEvents : Prop :=
  (∀ (s : State) (L n x : Nat),
    (L < 288 → n < 3 → (s.core L n).run = .blocked → ∀ w, (s.core L n).wait = some w → s.available L w = true →
      exec (.coreUnblock L n) s = .next (s.setCore L n { s.core L n with run := .running, wait := none }))
    ∧ (x < 336 → ∀ M, (s.site x).holds[(s.site x).turn]? = some M → (s.site x).holds.length = 2 → (s.cl M).yields = true →
      exec (.doubledSiteSwitch x) s = .next (s.setSite x { s.site x with turn := 1 - (s.site x).turn }))
    ∧ (L < 288 → n = 1 ∨ n = 2 → s.barsOn = true → s.up (domPlat 0) = true →
      ((s.cl L).moving = false → s.unplacedReg .VEC_RESIDUE_INJECT (2 * L + n - 1) = false →
        s.served .VEC_RESIDUE_INJECT (2 * L + n - 1) true = true →
        exec (.vecResidueInject L n) s = .next (s.fset VEC_RESIDUE_INJECT.ARM (2 * L + n - 1) 1))
      ∧ ((s.cl L).moving = true → exec (.vecResidueInject L n) s = .next (s.updCl L fun k =>
          { k with accesses := k.accesses ++ [(Reg.VEC_RESIDUE_INJECT.offset (2 * L + n - 1), 4, some 1)] })))
    ∧ (L < 288 → s.barsOn = true → s.up (domPlat 0) = true →
      ((s.cl L).moving = false → s.unplacedReg .VLT_PARITY_INJECT L = false → s.served .VLT_PARITY_INJECT L true = true →
        exec (.vltParityInject L) s = .next (s.fset VLT_PARITY_INJECT.ARM L 1))
      ∧ ((s.cl L).moving = true → exec (.vltParityInject L) s = .next (s.updCl L fun k =>
          { k with accesses := k.accesses ++ [(Reg.VLT_PARITY_INJECT.offset L, 4, some 1)] }))))
  ∧ (∀ (s : State) (L : Nat), L < 288 → (s.core L 0).run = .wft → s.allDone L = true →
    (∀ cx, s.owner L = some cx → s.draining cx = false) →
    ∃ t, exec (.clusterFinished L) s = .next t ∧ (t.core L 0).run = .finished
      ∧ (t.cl L).finishCycles = (Config.cycles s.fresh).toNat ∧ (t.cl L).progress = (s.cl L).progress
      ∧ (∀ M, M ≠ L → t.cl M = s.cl M) ∧ t.regs = s.regs ∧ t.mesh = s.mesh)

/-! ### The matrix core (04_matrix_core.md) -/

/-- The array of a cluster: the first waiting descriptor starts when the array is free; the partials of a K block
enter a set, and a mismatch that its audit finds is recorded; a full set, with C added where CIN says so, is converted
and leaves for its destination and is freed, and a residue error on the way is a write-back mismatch at its row and
column (its pass and K-block, and the order of a lane, are the model's, log entries 13 and 64); a finished descriptor
completes with its tag and status. The stall count added is a free value (log entry 7). A write of MXC_COMPLETION_POP
takes the oldest completion; MXC_AUDIT_INJECT arms one injection, and a write while the cluster is being moved waits;
a read of MXC_AUDIT_TALLY holds the pair of audit registers, and a read of MXC_AUDIT_LAST or the end of the hold lets
the mismatch that waited into them (R81, R82, R84, R87, R89, R90, R95, R97, R99, R100, R101). -/
def Obligations.MatrixWork : Prop :=
  (∀ (s : State) (L : Nat), L < 288 →
    let m := (s.cl L).matrix
    (∀ serial d rest n, m.queue = (serial, d) :: rest → s.reachable L = true → m.startable = true → s.arrayFree L = true →
      (s.cl L).site = some n →
      exec (.descriptorStart L) s = .next ((s.updSite n fun x => { x with arrayLast := some L }).updMatrix L fun m =>
        { m with
          queue := rest
          jobs := m.jobs ++ [{ serial := serial, desc := d, tile := 0, kblock := 0, pass := 0, written := 0,
                               waiting := none, arrayDone := false, flags := 0, mismatch := false, invalid := [] }] }))
    ∧ (∀ j, m.running = some j → j.waiting = none → s.reachable L = true →
      let len := kBlockLen j.desc
      let sl := (passesOf j.desc).getD j.pass (.whole, .whole)
      let a := s.readRanges L .matrixA (rangesA j.desc (tileRow j.desc j.tile) (j.kblock * len) len)
      let b := a.2.readRanges L .matrixB (rangesB j.desc (j.kblock * len) (tileCol j.desc j.tile) len)
      let A := b.2.gridA L j.desc j.tile j.kblock sl.1
      let B := b.2.gridB L j.desc j.tile j.kblock sl.2
      b.2.fon MXC_AUDIT_INJECT.ARM L = false →
      let rows := poisonRows j.desc j.tile (j.kblock * len) len a.1 b.1
      ∀ i acc u, u.ok = true → (∀ r c, u ≠ .writeback r c) → b.2.claim L j.serial j.tile = some (i, acc) →
      let t := b.2.enterSet L j (a.1 ++ b.1) rows sl (partials len A B u).at_ i acc
      (auditOf len A B (partials len A B u) u = none → exec (.auditResult L u) s = .next t)
      ∧ (∀ kind row col, auditOf len A B (partials len A B u) u = some (kind, row, col) →
        exec (.auditResult L u) s = .next (t.auditMismatch L j kind row col false)))
    ∧ (∀ i acc j residue, (FreedSet.mk i residue).ok = true → m.sets.getD i none = some acc → (m.jobs.find? fun j => j.serial == acc.job) = some j →
      acc.full = true → acc.outbox = none → s.reachable L = true → s.behindInLane L acc (descDest j.desc) = false →
      let d := j.desc
      let pre := if descCin d then s.readRanges L .writeBack ((opC d).ranges (tileRow d acc.tile) 64 (tileCol d acc.tile) 64)
        else ([], s)
      let c := if descCin d then pre.2.addC L d pre.1 acc.tile acc.cells else (acc.cells, 0)
      let r := convertTile d c.1 j.invalid (tileBlocks d acc.tile) (pre.2.cl L).matrix.gen
      let dead := (r.2.1.filter fun x => x.2 == .invalid).map (·.1)
      let t := pre.2.updMatrix L fun m => ({ m with gen := r.2.2.2 }).setJob
        { j with flags := j.flags ||| c.2 ||| r.2.2.1.bits, invalid := j.invalid ++ dead }
      let t := match residue with
        | some (row, col) => if descCin d || (descConv d).testBit 1 then
            t.auditMismatch L { j with pass := 0, kblock := 0 } 3 row col false else t
        | none => t
      let poisoned := fun (x : Nat) => acc.poison.contains x || ((opC d).ranges (tileRow d acc.tile + x) 1 (tileCol d acc.tile) 64).any
        fun e => (groupsOf e.1 e.2).any (pre.1.contains ·)
      (descDest d = 0 → exec (.accumulatorSetFree L ⟨i, residue⟩) s = .next
        (((t.zeroEarlier L d acc.tile (dead.filter fun k => !j.invalid.contains k)).writeTile L d acc.tile r.1 r.2.1).freeSet L i acc))
      ∧ (descDest d = 1 → ∀ rows u, t.sendRows L (dfield d 13 31 16) ((List.range 64).map fun x =>
          (x, rowLanes r.1 x, rowScales d acc.tile x r.2.1, poisoned x)) = (rows, u) →
        exec (.accumulatorSetFree L ⟨i, residue⟩) s
          = .next (if rows.isEmpty then u.freeSet L i acc else u.setOutbox L i acc rows))
      ∧ (descDest d = 2 → exec (.accumulatorSetFree L ⟨i, residue⟩) s = .next ((t.forEach (List.range 64) fun x s =>
          s.sendClear L (dfield d 13 31 16) (64 * acc.tile + x) 6 (clearScale d r.2.1).1 (clearScale d r.2.1).2
            (rowLanes r.1 x) (poisoned x)).freeSet L i acc)))
    ∧ (∀ i j, m.jobs[i]? = some j → j.arrayDone = true → j.written = descTiles j.desc →
      let t := (s.updMatrix L fun m => { m with
        jobs := m.jobs.eraseIdx i
        reserved := dropTag (descTag j.desc) m.reserved
        done := m.done ++ [completion (descTag j.desc) j.status j.flags] }).countOutcomes L j.flags
      let t := if j.flags.testBit 21 then
        t.report sevWarning blkMXC 0x10 L (t.owner L) [BitVec.ofNat 32 (descTag j.desc)] else t
      exec (.descriptorComplete L i) s = .next ((t.take.2.fadd MXC_STALL.CYCLES L (Config.cycles t.take.1).toNat).progress L)))
  ∧ (∀ (s : State) (L : Nat), L < 288 →
    (Reached s .MXC_COMPLETION_POP L → (s.cl L).moving = false → ∀ w rest, (s.cl L).matrix.done = w :: rest →
      exec (.mxcCompletionPop L) s = .next ((s.updMatrix L fun m => { m with done := rest }).progress L))
    ∧ (Reached s .MXC_AUDIT_INJECT L → (s.cl L).moving = false →
      exec (.mxcAuditInject L) s = .next (s.fset MXC_AUDIT_INJECT.ARM L 1))
    ∧ (s.barsOn = true → s.up (domPlat 0) = true → (s.cl L).moving = true →
      (exec (.mxcCompletionPop L) s = .next (s.updCl L fun k =>
        { k with accesses := k.accesses ++ [(Reg.MXC_COMPLETION_POP.offset L, 4, some 1)] }))
      ∧ (exec (.mxcAuditInject L) s = .next (s.updCl L fun k =>
        { k with accesses := k.accesses ++ [(Reg.MXC_AUDIT_INJECT.offset L, 4, some 1)] })))
    ∧ (exec (.mxcAuditTallyRead L) s = .next (s.updCl L fun c => { c with auditHold := true }))
    ∧ (∀ c, c = .mxcAuditLastRead L ∨ c = .auditHoldExpire L → ∀ w t, (s.cl L).auditPending = some (w, t) →
      exec c s = .next (((s.updCl L fun c => { c with auditHold := false, auditPending := none }).rset .MXC_AUDIT_LAST L w).rset
        .MXC_AUDIT_TALLY L t)))

/-! ### Vaults, messages and DMA (06_vaults.md, 11_messages_and_dma.md) -/

/-- The DMA operations of a cluster: where a request starts and its vault ranges are allowed, its data moves part by
part from source to destination and the request holds what it met. A halo request moves its edge of the tile into the
neighbour's vault and sends a HALO_DONE token; a finished request completes and counts progress; a fabric read or
write that has waited DMA_TIMEOUT.REMOTE ends with status 0x25 and no transaction left. That the data moves when the
request starts is the model's choice (log entry 24) (R134, R139, R146, R147, R261, R262, R263, R264, R462). -/
def Obligations.DmaOperations : Prop :=
  (∀ (s : State) (L tag : Nat) (q : DmaReq), L < 288 → tag < 128 →
    let go := fun (src dst : Place) (part : Nat) => let m := s.move L src dst q.src q.dst q.length part
      Host.Outcome.next (m.2.moved L q.tag 0 m.1)
    (∀ cx, s.starting L tag 1 = some (cx, q) → s.writeOk L q.dst q.length .dma = true →
      exec (.dmaRead L tag) s = go (.memory cx) (.vault L .dma) 64)
    ∧ (∀ cx, s.starting L tag 2 = some (cx, q) → s.readOk L q.src q.length = true →
      exec (.dmaWrite L tag) s = go (.vault L .dma) (.memory cx) 64)
    ∧ (∀ cx, s.starting L tag 3 = some (cx, q) → overlap q.src q.dst q.length = false →
      s.readOk L q.src q.length = true → s.writeOk L q.dst q.length .fill = true →
      exec (.vcopy L tag) s = go (.vault L .fill) (.vault L .fill) 32)
    ∧ (∀ cx, s.starting L tag 4 = some (cx, q) → s.writeOk L q.dst q.length .fill = true →
      exec (.vfill L tag) s = go (.pattern q.pattern) (.vault L .fill) 32)
    ∧ (∀ cx, s.starting L tag 5 = some (cx, q) → overlap q.src q.dst q.length = false →
      exec (.mcopy L tag) s = go (.memory cx) (.memory cx) 64)
    ∧ (∀ cx, s.starting L tag 6 = some (cx, q) → exec (.mfill L tag) s = go (.pattern q.pattern) (.memory cx) 64)
    ∧ (∀ cx, s.starting L tag 7 = some (cx, q) → s.readOk L q.src q.length = true → s.writeOk q.peer q.dst q.length .mesh = true →
      exec (.xcopy L tag) s = go (.vault L .dma) (.vault q.peer .mesh) 32)
    ∧ (∀ cx, s.starting L tag 3 = some (cx, q) → overlap q.src q.dst q.length = true →
      exec (.vcopy L tag) s = .next (s.movedNone L q.tag 0x10))
    ∧ (∀ cx, s.starting L tag 5 = some (cx, q) → overlap q.src q.dst q.length = true →
      exec (.mcopy L tag) s = .next (s.movedNone L q.tag 0x13))
    ∧ (∀ cx, s.starting L tag 2 = some (cx, q) → s.readOk L q.src q.length = false →
      exec (.dmaWrite L tag) s = .next ((s.violate L q.src).movedNone L q.tag 0x14))
    ∧ (∀ cx, s.starting L tag 4 = some (cx, q) → s.reachable L = true → s.writeOk L q.dst q.length .fill = false →
      exec (.vfill L tag) s = .next ((s.violate L q.dst).movedNone L q.tag 0x14)))
  ∧ (∀ (s : State) (L tag : Nat) (q : DmaReq), L < 288 → tag < 128 →
    (∀ cx h, s.starting L tag 8 = some (cx, q) → s.halo cx L q.peer = some h → s.readOk L h.srcAddr h.length = true →
      s.askRefusal (.cluster L 2) (.cluster h.dst 0) = none → s.haloOk h.dst h.dstAddr h.length = true →
      exec (.halo L tag) s = .next ((s.forEach (haloPieces h.length) fun pc s => s.sendPiece cx L tag h pc).updReq L tag fun q =>
        { q with started := true, issued := true, waiting := (haloPieces h.length).length }))
    ∧ (∀ p M u h, p.ok = true → s.flying p = false → s.behind p = false → p.dst = .cluster M u → p.src = .cluster L 2 →
      p.reqId = tag → p.poison = false → let t := s.takePacket p
      t.refusal p = none → t.reachable M = true → t.dmaReq L tag = some q → q.tag = tag → t.haloOf p.cx L tag = some h →
      let v := t.vstore M p.addr (packetBytes p) .mesh
      v.dmaReq L tag = some q → v.haloOf p.cx L tag = some h →
      let w := v.updReq L tag fun q => { q with moved := q.moved + (packetBytes p).length }
      w.haloOf p.cx L tag = some h → q.moved + (packetBytes p).length = h.length →
      exec (.writeReq p) s = .next ((w.completionToken p.cx h.dst h.dstEp L .haloDone h.halo).respond p .WRITE_ACK 0 false []))
    ∧ (s.dmaReq L tag = some q → q.started = true → q.issued = true → q.waiting = 0 → q.fenced = false →
      exec (.dmaCompletion L tag) s = .next ((s.updDma L fun d =>
        { reqs := d.reqs.filter fun r => r.tag != tag, done := d.done ++ [q.completion] }).progress L))
    ∧ (s.dmaReq L tag = some q → q.op = 9 ∨ q.op = 10 → q.started = true → s.fget DMA_TIMEOUT.REMOTE 0 ≠ 0 →
      (s.fabric.tx.any fun t => t.cluster == L && t.tag == tag) = true →
      exec (.dmaRemoteTimeout L tag) s = .next ((({ s with fabric := { s.fabric with
        tx := s.fabric.tx.filter fun t => !(t.cluster == L && (t.tag == tag || t.tag == abandonedTag)) } } : State).updReq L tag fun q =>
          { q with issued := true, waiting := 0, status := if q.status = 0 then 0x25 else q.status }).dmaComplete L tag)))

/-- Messages between clusters: a message to a mailbox is placed in the vault and answered, one to a ring is presented
and answered, or held where it finds no room; the answer reaches the sending core's registers; a held send goes out
again once the ring's committed head has moved; a ring command waits for the boundary (R117, R250, R251, R252, R254,
R256, R257). -/
def Obligations.ClusterMessages : Prop := ∀ (s : State),
  (∀ i p m R r L u, s.mesh.packets[i]? = some p → s.landed p = true → p.type = .MSG → p.dst = .cluster R r →
    p.src = .cluster L u → p.payload = .bytes m → (s.dropPacket i).refusal p = none → msgMailbox m = true →
    exec (.messageReceive i) s
      = .next (((s.dropPacket i).placeMsg R (msgAddr m) m L).answer L (u - 3) stDone 0))
  ∧ (∀ i p m R r L u g, s.mesh.packets[i]? = some p → s.landed p = true → p.type = .MSG → p.dst = .cluster R r →
    p.src = .cluster L u → p.payload = .bytes m → (s.dropPacket i).refusal p = none → msgMailbox m = false →
    (s.dropPacket i).ringRec p.cx (msgDest m) = some g →
    let x := (s.dropPacket i).present R g.region m L
    (x.1 ≠ stWouldBlock → exec (.messageReceive i) s = .next (x.2.2.answer L (u - 3) x.1 x.2.1))
    ∧ (∀ y, x.1 = stWouldBlock → (s.dropPacket i).sendOf L (u - 3) = some y → y.try_ = false → x.2.2.sendOf L (u - 3) = some y →
      exec (.messageReceive i) s = .next (x.2.2.setSend L (u - 3)
        (some { y with held := true, heldAt := x.2.2.ringMark R g.region }))))
  ∧ (∀ L n x status epoch, L < 288 → n < 3 → s.sendOf L n = some x → x.answer = some (status, epoch) →
    (s.core L n).wait = some .answer → let u := (s.setSend L n none).countAnswer L status x.msg
    exec (.messageAnswer L n) s = .next (u.updCore L n fun c =>
      { ((c.setG x.d (BitVec.ofNat 32 status)).setG x.b (BitVec.ofNat 32 epoch)).advance with
        tryWait := if status = stWouldBlock then some (u.refusedBy L x.msg, (s.cl L).progress) else c.tryWait }))
  ∧ (∀ L n x cx, L < 288 → n < 3 → s.sendOf L n = some x → x.held = true → s.owner L = some cx →
    ∀ g, s.ringRec cx (msgDest x.msg) = some g → s.ringMark g.cluster g.region ≠ x.heldAt →
    exec (.messageRetry L n) s = .next ((s.setSend L n (some { x with held := false })).injectMsg L n cx x.msg))
  ∧ (∀ cx ring, cx < 16 → ring < 4096 → Reached s .MSG_RING_CTRL 0 →
    (exec (.ringClose cx ring) s = .next (s.ringCommand cx ring 1))
    ∧ (exec (.ringOpen cx ring) s = .next (s.ringCommand cx ring 2))
    ∧ (exec (.ringReset cx ring) s = .next (s.ringCommand cx ring 3)))

/-! ### The mesh and clearing (07_mesh_and_clearing.md) -/

/-- Requests at their unit: a read of a vault or of a channel answers READ_RSP with status 0 and the bytes, and with
it the reads of the same place that wait there, by one response with a destination set, each counted as merged; a
write stores its bytes and answers WRITE_ACK; a request that is on its way or waits behind one of the same place does
nothing yet, and which reads wait together the event says (the model's choice, log entries 1 and 17); a unit that
cannot serve or be reached answers FENCED or UNREACHABLE (R24, R134, R138, R150, R152, R276, R380). -/
def Obligations.MeshRequests : Prop := ∀ (s : State) (v : ReadService), v.ok = true →
  let p := v.pkt
  let t := s.takePacket p
  let others := s.mergedWith v
  let taken := t.forEach others fun q s => s.takePacket q
  let ready := s.flying p = false ∧ s.behind p = false
  (∀ L u, ready → p.dst = .cluster L u → t.refusal p = none → let r := taken.vload L (p.addr / 32 * 32) 32 .mesh
    exec (.readReq v) s = .next ((r.2.2.fadd VLT_MERGE.COUNT L (others.length + v.ports)).answerReads p others r.2.1 r.1))
  ∧ (∀ P ch, ready → p.dst = .channel P ch → t.refusal p = none →
    let r := taken.asAccepted (t.drains p) fun s => s.requestRead p P ch
    (r.1.fenced = false → exec (.readReq v) s
      = .next ((r.2.fadd MEM_MERGE.COUNT P others.length).answerReads p others r.1.poison r.1.bytes))
    ∧ (r.1.fenced = true → exec (.readReq v) s
      = .next (r.2.forEach (p :: others) fun q s => s.refuseRequest q .READ_RSP 1)))
  ∧ (∀ L u, ready → p.dst = .cluster L u → t.refusal p = none → p.poison = false → t.carriesHalo p = false →
    exec (.writeReq p) s = .next ((t.vstore L p.addr (packetBytes p) .mesh).respond p .WRITE_ACK 0 false []))
  ∧ (∀ L u, ready → p.dst = .cluster L u → t.refusal p = none → p.poison = true → t.carriesHalo p = false → exec (.writeReq p) s
      = .next ((t.vstore L p.addr (List.replicate (packetBytes p).length 0) .mesh).respond p .WRITE_ACK 0 false []))
  ∧ (∀ P ch, ready → p.dst = .channel P ch → t.refusal p = none →
    let r := t.asAccepted (t.drains p) fun s => s.requestWrite p P ch (packetBytes p)
    exec (.writeReq p) s = .next (if r.1 then r.2.refuseRequest p .WRITE_ACK 1 else r.2.respond p .WRITE_ACK 0 false []))
  ∧ (¬ ready → exec (.readReq v) s = .next s ∧ exec (.writeReq p) s = .next s)
  ∧ (∀ st, ready → t.refusal p = some st →
    (exec (.readReq v) s = .next (t.refuseRequest p .READ_RSP st))
    ∧ (exec (.writeReq p) s = .next (t.refuseRequest p .WRITE_ACK st)))

/-- Responses at their unit: the DMA engine takes one; at a fenced partition one is dropped at the edge and counted in
LATE; a multicast response reaches every unit of its destination set. A router that is in no fault region grants at
most one flit to an output between routers that are up: the circuit flit whose slot the cycle is, else a flit of the
oldest packet that may be sent against a credit, the input nearest after the rotating pointer among equals, and only a
tie moves the pointer; cycles in which a packet flit waits are counted (what is counted is log entry 8); a packet that
has waited more than 2^15 units of 16 core cycles is aged once, and counted (R148, R150, R151, R153, R155, R156,
R381). -/
def Obligations.MeshResponses : Prop :=
  (∀ (s : State) (p : Packet) (L : Nat), p.ok = true →
    let t := s.takePacket p
    s.flying p = false →
    (p.dst = .cluster L 2 → s.lateAt (s.hostPart L) = false →
      (exec (.readRsp p) s = .next (t.dmaResponse L p.reqId (s.responseStatus p p.dst) p.addr p.poison (packetBytes p)))
      ∧ (exec (.writeAck p) s = .next (t.dmaResponse L p.reqId (s.responseStatus p p.dst) p.addr false [])))
    ∧ (∀ u, p.dst = .cluster L u → s.lateAt (s.hostPart L) = true →
      (exec (.readRsp p) s = .next (t.finc FNC_PART_STATUS.LATE (s.hostPart L)))
      ∧ (exec (.writeAck p) s = .next (t.finc FNC_PART_STATUS.LATE (s.hostPart L))))
    ∧ (∀ d b, p.payload = .dests d b →
      exec (.mcastRsp p) s = .next (t.forEach d fun e s => s.response e.1 e.2 (s.responseStatus p e.1) p.addr p.poison b)))
  ∧ (∀ (s : State) (x y : Nat) (out : Port) (cc : Nat),
    (∀ q', x < 42 → y < 8 → stepXY (x, y) out = some q' →
      s.up (domPlat (dieOfPart (partOfXY (x, y)))) = true → s.up (domPlat (dieOfPart (partOfXY q'))) = true →
      let sound := s.placer.regions.all fun r => !regionHas r (x, y)
      let bids := s.bids (x, y) out
      let able := leaders (bids.filter fun b => s.credited b (x, y))
      let key := (42 * y + x) * 5 + portNum out
      (sound = true → ∀ i f, s.slotFlit (x, y) out cc = some i → s.mesh.flits[i]? = some f →
        let t := if bids.isEmpty then s else s.finc MSH_STALL.CYCLES (partOfXY (x, y))
        exec (.routerForward x y ⟨out, cc, false⟩) s = .next { t with mesh := { t.mesh with
          flits := t.mesh.flits.set i { f with router := 42 * q'.2 + q'.1, input := facing out } } })
      ∧ (sound = true → s.slotFlit (x, y) out cc = none →
        let t := if bids.length > min able.length 1 then s.finc MSH_STALL.CYCLES (partOfXY (x, y)) else s
        (nearestInput (mget (fun _ => 0) s.mesh.pointers key) able = none →
          exec (.routerForward x y ⟨out, cc, false⟩) s = .next t)
        ∧ (∀ b, nearestInput (mget (fun _ => 0) s.mesh.pointers key) able = some b →
          exec (.routerForward x y ⟨out, cc, false⟩) s = .next ((if able.length > 1 then { t with mesh := { t.mesh with
            pointers := mput (fun _ => 0) t.mesh.pointers key ((b.input + 1) % 5) } } else t).grant b (x, y))))
      ∧ (sound = false → exec (.routerForward x y ⟨out, cc, false⟩) s = .next s))
    ∧ (∀ i now p, s.mesh.packets[i]? = some p → p.aged = false →
      (now % 2 ^ 16 + 2 ^ 16 - p.injTime % 2 ^ 16) % 2 ^ 16 > 2 ^ 15 →
      exec (.aged i now) s = .next (({ s with mesh := { s.mesh with
        packets := s.mesh.packets.set i { p with aged := true } } } : State).finc MSH_AGED.COUNT (partOfXY (p.x, p.y)))))

/-- Combining on the way to a clearing root: a CLEAR packet whose row waits at a router of the tree with the same
scale is added to the buffer, and the buffer goes on once it holds its whole subtree; one with another valid scale
goes on, counted and recorded as a mismatch of its group (log entry 66); a first one waits in a free buffer; a buffer
whose hold ends goes on as it is (R164, R165, R168). -/
def Obligations.ClearCombining : Prop := ∀ (s : State) (x y : Nat), x < 42 → y < 8 →
  let key := 42 * y + x
  (∀ i p row count run sm scale lanes src g, s.mesh.packets[i]? = some p → s.awaitsLook p (x, y) = true →
    s.wholeAt (x, y) p = true → p.payload = .clear row count run sm scale lanes src → s.group p.cx p.reqId = some g →
    let on := s.updPacket p.serial fun p => { p with looked := true }
    let same := fun (b : Combine) => b.cx == p.cx && b.tag == p.reqId && b.row == row && b.run == run
    (∀ j b, (s.combines key).findIdx? same = some j → (s.combines key)[j]? = some b →
      sameClearScale sm scale b.sfmt16 b.scale = false → clearScaleOf sm scale ≠ .invalid →
      clearScaleOf b.sfmt16 b.scale ≠ .invalid → exec (.clearCombine x y i) s
        = .next ((on.finc MSH_CLR_ERROR.MISMATCH (partOfXY (x, y))).clearCondition p.cx p.reqId 1 g.root))
    ∧ (∀ j b, (s.combines key).findIdx? same = some j → (s.combines key)[j]? = some b →
      sameClearScale sm scale b.sfmt16 b.scale = true →
      let b' := { b with lanes := addLanes b.lanes lanes, count := b.count + count, from_ := b.from_ ++ src
                         poison := b.poison || p.poison }
      let t := (s.dropPacket i).finc MSH_CLR_COMBINE.COUNT (partOfXY (x, y))
      exec (.clearCombine x y i) s = .next (if t.subtree g (x, y) ≤ b.count + count then
        (t.setCombines key ((s.combines key).eraseIdx j)).sendCombined (x, y) b'
        else t.setCombines key ((s.combines key).set j b')))
    ∧ ((s.combines key).findIdx? same = none → (s.combines key).length < 4 →
      count < s.subtree g (x, y) → s.fget MSH_CLR_HOLD.HOLD (partOfXY (x, y)) ≠ 0 →
      exec (.clearCombine x y i) s = .next ((s.dropPacket i).setCombines key
        (s.combines key ++ [⟨p.cx, p.reqId, row, run, sm, scale, count, lanes, src, p.poison⟩]))))
  ∧ (∀ slot b rest, takeAt (s.combines key) slot = some (b, rest) →
    exec (.combineHoldExpire x y slot) s = .next ((s.setCombines key rest).sendCombined (x, y) b))

/-- A token that reaches its endpoint with the epoch of its context, and after every earlier one of its edge, is
stored there; one with another epoch is stale; a returned credit is counted at its SEND endpoint; a CLEAR packet at
its root is added to the slot of its row in the vault, a slot that is complete may end its group, and a packet of
another run or beyond the rows is counted and recorded (R116, R165, R166, R168, R176, R180). -/
def Obligations.TokensCreditsAndRoots : Prop := ∀ (s : State) (i : Nat),
  (∀ p L u t src e, s.mesh.packets[i]? = some p → s.landed p = true → s.overtakes i p src = false →
    p.dst = .cluster L u → p.payload = .token t src → (s.dropPacket i).refusal p = none →
    (s.dropPacket i).ep L t.endpoint = some e → e.send = false →
    (t.epoch = (s.dropPacket i).fget FOL_CX_STATE.EPOCH p.cx → (s.dropPacket i).draining p.cx = false →
      exec (.tokenArrival i) s = .next ((s.dropPacket i).storeToken L t.endpoint e (t, src)))
    ∧ (t.epoch ≠ (s.dropPacket i).fget FOL_CX_STATE.EPOCH p.cx →
      exec (.tokenArrival i) s = .next ((s.dropPacket i).staleToken p.cx L t.endpoint t.epoch)))
  ∧ (∀ L q rest e, takeAt s.mesh.credits i = some ((L, q), rest) → s.ep L q = some e → e.send = true →
    exec (.creditReturn i) s = .next (({ s with mesh := { s.mesh with credits := rest } } : State).setEp L q
      { e with credits := e.credits + 1 }))
  ∧ (∀ p L u row count run sm scale lanes src g, s.mesh.packets[i]? = some p → s.landed p = true →
    p.dst = .cluster L u → p.payload = .clear row count run sm scale lanes src → let t := s.dropPacket i
    let part := partOfXY (t.refuserOf p)
    t.refusal p = none → t.group p.cx p.reqId = some g →
    (run ≠ (t.cx p.cx).runNumber % 2 ^ 16 → exec (.clearRootAbsorb i) s
      = .next ((t.finc MSH_CLR_ERROR.ROW_RANGE part).clearCondition p.cx p.reqId 6 L))
    ∧ (run = (t.cx p.cx).runNumber % 2 ^ 16 → g.rows ≤ row → exec (.clearRootAbsorb i) s
      = .next ((t.finc MSH_CLR_ERROR.ROW_RANGE part).clearCondition p.cx p.reqId 4 L)))
  ∧ (∀ p L u row count run sm scale lanes src g, s.mesh.packets[i]? = some p → s.landed p = true →
    p.dst = .cluster L u → p.payload = .clear row count run sm scale lanes src → let t := s.dropPacket i
    t.refusal p = none → t.group p.cx p.reqId = some g → run = (t.cx p.cx).runNumber % 2 ^ 16 → row < g.rows →
    VaultSound t g.root → t.readOk g.root (g.base + 288 * row) 288 = true →
    let b := t.vbytes g.root (g.base + 288 * row) 288
    let a := absorbInto (RowSlot.ofBytes (b.take 32)) (wordsOf (b.drop 32) 64) (t.cx p.cx).runNumber g.contributions count sm
      scale lanes
    let v := t.vstore g.root (g.base + 288 * row) (a.1.toBytes ++ laneBytes a.2.1) .mesh
    a.2.2 = 0 → exec (.clearRootAbsorb i) s
      = .next (if a.1.complete (v.cx p.cx).runNumber g.contributions then v.clearDone p.cx g else v))

/-! ### Memory (12_memory_subsystem.md) -/

/-- A controller that serves and a channel that works: a block reads as it stands, with what its read meets counted
first; up to two wrong symbols, or one beside those of a marked lane, are corrected and counted with their pins; up to
twice as many, in both reads, are detected, and the block is written back with POISON set (that the errors are
operands, and the capacities beside a marked lane, are the model's, log entries 25 and 72); a block whose POISON is
set reads poisoned and is recorded; a whole write stores its bytes and clears POISON, a part of a block is merged into
what a read of it gives and keeps POISON; a scrub reads blocks of pages in use (R269, R270, R271, R272, R279). -/
def Obligations.MemoryBlocks : Prop := ∀ (s : State) (p ch b cx : Nat), p < 12 → ch < 32 → b < 16384 * 2048 → cx < 16 →
  s.memServes p = true → s.working p ch = true →
  let k := blockKey p ch b
  let delivered := fun (t : State) => (.next (if t.blockPoison p ch b then (t.finc MEM_POISON.READ p).poisonRead cx p ch b
    else t) : Host.Outcome State Fault Refusal)
  let marked := s.fon MEM_CH_STATE.LANE (chKey p ch)
  let far := fun (l : List (Nat × Byte)) => l.countP fun e => !(marked && pinOf e.1 == s.fget MEM_CH_STATE.PIN (chKey p ch))
  let limit := if marked then 1 else 2
  let pins := fun (l : List (Nat × Byte)) => l.map fun e => pinOf e.1
  (∀ r, r.ok = true → exec (.blockRead p ch b cx r) s = delivered (s.readOutcome p ch b cx r).2)
  ∧ (∀ r, r.ok = true → s.fget MEM_INJECT.CHANNEL p ≠ ch → far r.first ≤ limit → exec (.blockRead p ch b cx r) s
      = delivered (if r.first.isEmpty then s else s.memCe p ch cx (pins r.first) false))
  ∧ (∀ r, r.ok = true → s.fget MEM_INJECT.CHANNEL p ≠ ch → limit < far r.first → far r.first ≤ 2 * limit →
    limit < far r.again → far r.again ≤ 2 * limit → exec (.blockRead p ch b cx r) s
      = delivered (s.memUe p ch b cx (s.asRead p ch b r.again) (pins r.again) false))
  ∧ (∀ data, data.length = 64 → exec (.blockWrite p ch b cx 0 data) s = .next (s.setMem { s.memory with
      bytes := mrun zeroByte s.memory.bytes (64 * k) data
      poison := mput noBool s.memory.poison k false }))
  ∧ (∀ off data, data.length < 64 → off + data.length ≤ 64 → let t := (s.readOutcome p ch b cx .none).2
    exec (.blockWrite p ch b cx off data) s = .next (t.setMem { t.memory with
      bytes := mrun zeroByte t.memory.bytes (64 * k + off) data
      poison := mput noBool t.memory.poison k (t.blockPoison p ch b) }))
  ∧ (∀ r, r.ok = true → s.fon MEM_SCRUB.ENABLE p = true → chunkUsed s.memory (chunkKey p ch (b / 2048)) = true →
    exec (.patrolScrub p ch b r) s = .next (s.readOutcome p ch b 0 r).2)

/-- Channels that go bad: a good channel degrades at CE_LIMIT, a working one fails at UE_LIMIT and after a command
time-out, a pin with 16 errors in the window is marked once, and a second one fails the channel; a channel that does
not acknowledge its entry into self-refresh, or fails its short check, is held as a fault. A temperature report
reaches TEMP of its channel; refreshes and calibrations change no state; an injection names its channel and is armed.
The error kind shown after a command time-out, and that refreshes and calibrations have no effect of their own, are
the model's (log entry 26) (R278, R283, R284, R285, R286). -/
def Obligations.ChannelsDegradeAndFail : Prop :=
  (∀ (s : State) (p ch : Nat), p < 12 → ch < 32 →
    (s.fget MEM_THRESH.CE_LIMIT p ≠ 0 → s.fget MEM_THRESH.CE_LIMIT p ≤ s.ceCount p ch → s.chState p ch = chGood →
      exec (.ceLimitReached p ch) s = .next (s.chChange p ch chDegrading 0 0 false))
    ∧ (s.fget MEM_THRESH.UE_LIMIT p ≠ 0 → s.fget MEM_THRESH.UE_LIMIT p ≤ s.ueCount p ch → s.working p ch = true →
      exec (.ueLimitReached p ch) s = .next ((((s.chChange p ch chFailed 3 0 false).ledgerAppend 3 8 (chKey p ch)).dataLost p ch).dropMigrations p ch))
    ∧ (∀ pin, pin < 24 → 16 ≤ s.laneCount p ch pin → s.working p ch = true → s.fon MEM_CH_STATE.LANE (chKey p ch) = false →
      let t := (((s.fbit MEM_CH_STATE.LANE (chKey p ch) true).fset MEM_CH_STATE.PIN (chKey p ch) pin).fset MEM_CH_STATE.STATE
        (chKey p ch) chDegrading).memLast p ch 2 0 pin
      exec (.laneMark p ch pin) s = .next (((t.report sevWarning blkMEM 2 (chKey p ch) none
        [BitVec.ofNat 32 (chKey p ch), BitVec.ofNat 32 pin]).ledgerAppend 5 8 (pin * 2 ^ 16 + chKey p ch)).syncMem p))
    ∧ (∀ pin, pin < 24 → 16 ≤ s.laneCount p ch pin → s.working p ch = true → s.fon MEM_CH_STATE.LANE (chKey p ch) = true →
      s.fget MEM_CH_STATE.PIN (chKey p ch) ≠ pin → exec (.laneMark p ch pin) s
        = .next ((((s.chChange p ch chFailed 3 0 false).ledgerAppend 3 8 (chKey p ch)).dataLost p ch).dropMigrations p ch))
    ∧ (s.memServes p = true → s.working p ch = true → exec (.channelCommandTimeout p ch) s
        = .next ((((s.chChange p ch chFailed 3 0 false).ledgerAppend 3 8 (chKey p ch)).dataLost p ch).dropMigrations p ch))
    ∧ (∀ entry, s.memServes p = false → s.working p ch = true → exec (.selfRefreshTimeout p ⟨ch, entry⟩) s = .next (s.setMem
        { s.memory with fault := mput noFault s.memory.fault (chKey p ch) (some (if entry then .entry else .check)) })))
  ∧ (∀ (s : State) (p ch bank report : Nat), p < 12 → ch < 32 → bank < 32 →
    (s.memServes p = true → s.working p ch = true →
      exec (.dramTemperatureRead p ch report) s = .next (s.fset MEM_CH_STATE.TEMP (chKey p ch) (report % 256)))
    ∧ (exec (.refresh p ch bank) s = .next s) ∧ (exec (.periodicCalibration p ch) s = .next s)
    ∧ (Reached s .MEM_INJECT p →
      (exec (.memInjectCe p ch) s = .next ((s.fset MEM_INJECT.CHANNEL p ch).fset MEM_INJECT.CE p 1))
      ∧ (exec (.memInjectUe p ch) s = .next ((s.fset MEM_INJECT.CHANNEL p ch).fset MEM_INJECT.UE p 1))))

/-! ### Folios and images (08_dataflow_and_folios.md, 09_structure_images.md) -/

/-- A context between folios: a loaded cluster starts when its folio may start; a drained context shows DRAINED, a
SLIPPED one as well (DEDUCED, log entry 30); a write of FOL_CX_NEXT waits for the boundary, and a request while no
image is active is refused; a staging stages every cluster of the target folio whose configuration can be read and
whose free units hold it, and STAGED shows whether all are staged (R103, R173, R188, R192, R193). -/
def Obligations.FolioEvents : Prop := ∀ (s : State) (c L : Nat), c < 16 → L < 288 →
  (∀ j, (s.cl L).loading = some j → let a := s.readStaged L j
    let r := a.2.loadConfig j.cx L j.folio a.1
    r.1 = false → exec (.configurationLoadComplete L) s
      = .next ((r.2.updCl L fun k => { k with loading := none }).startIfReady j.cx L))
  ∧ (∀ j, (s.cl L).loading = some j → let a := s.readStaged L j
    let r := a.2.loadConfig j.cx L j.folio a.1
    r.1 = true → exec (.configurationLoadComplete L) s
      = .next (((r.2.loadPoison j.cx L).updCl L fun k => { k with loading := none }).startIfReady j.cx L))
  ∧ (s.drainComplete c = true → (s.cx c).drainedAt = none → s.folState c = folDraining ∨ s.folState c = folSlipped →
    exec (.drained c) s = .next ((s.updCx c fun x => { x with drainedAt := some s.tally.time }).setFol c folDrained))
  ∧ (∀ im, s.image c = some im → (s.cx c).lastSegment = true → (s.cx c).segment = true → s.targetOf c ≠ 4095 →
    let f := s.targetOf c
    let t := s.forEach (im.users f) fun u s => match s.stageAt im u with
      | some units => let r := s.readConfig c im u
        if r.2.1 then r.2.2 else (r.2.2.freshUnits u.cluster units).updCl u.cluster fun k =>
          { k with staged := some ⟨c, f, r.1, units⟩ }
      | none => s
    exec (.configurationStage c) s = .next (t.fbit FOL_CX_STATE.STAGED c ((im.users f).all fun u =>
      match (t.cl u.cluster).staged with
      | some g => g.cx == c && g.folio == f
      | none => false)))
  ∧ (∀ im, s.image c = some im → (s.cx c).lastSegment = true → (s.cx c).segment = true → s.targetOf c ≠ 4095 →
    im.users (s.targetOf c) = [] → exec (.configurationStage c) s = .next (s.fbit FOL_CX_STATE.STAGED c true))
  ∧ (∀ im u units, s.image c = some im → (s.cx c).lastSegment = true → (s.cx c).segment = true → s.targetOf c ≠ 4095 →
    im.users (s.targetOf c) = [u] → u.cluster < 288 → s.stageAt im u = some units → let r := s.readConfig c im u
    r.2.1 = false → exec (.configurationStage c) s = .next (((r.2.2.freshUnits u.cluster units).updCl u.cluster fun k =>
      { k with staged := some ⟨c, s.targetOf c, r.1, units⟩ }).fbit FOL_CX_STATE.STAGED c true))
  ∧ (∀ valid folio, folio < 4096 → Reached s .FOL_CX_NEXT c → s.cxLicensed c = true →
    exec (.folCxNextWrite c valid folio) s = .next (if valid = true ∧ s.fget IMG_CX_STATE.STATE c ≠ 2 then
      s.nextRefused c folio else s.pend .FOL_CX_NEXT c (BitVec.ofNat 64 (valid.toNat * 2 ^ 31 + folio))))

/-- The image commands after bring-up step 9 and while no command is in progress: LOAD starts the fetch, whose image
is checked and held; ACTIVATE, UNLOAD start; an activation ends with the context ACTIVE and its regions as the image
says; ABORT ends a load with code 0x19, and before step 9 it is refused with IMG_STATE (R214, R215, R216, R217, R219,
R220). -/
def Obligations.ImageCommands : Prop := ∀ (s : State) (c : Nat), c < 16 →
  let begun := fun op => (((s.fset IMG_STATUS.OP 0 op).fset IMG_STATUS.CONTEXT 0 c).fset IMG_STATUS.BUSY 0 1 : State)
  (Reached s .IMG_CTRL 0 → s.fon IMG_STATUS.BUSY 0 = false → 9 ≤ s.bringUp.done → s.loadRefusal c = none →
    exec (.load c) s = .next ((begun imgLoad).setJob
      (.fetch c (s.fget IMG_SRC_ADDR.ADDR 0 * 64) (s.fget IMG_SRC_LEN.LENGTH 0) (s.security.policy.testBit 0))))
  ∧ (∀ addr n policy, s.imageJob = .fetch c addr n policy → s.imageRefusal c n policy (s.hostRead addr n) = none →
    s.packageRefusal c (Image.of (s.hostRead addr n) c) (s.hostRead addr n) = none →
    exec (.imageFetchComplete true) s = .next (s.setJob (.checked c (s.hostRead addr n))))
  ∧ (∀ addr n policy r, s.imageJob = .fetch c addr n policy → s.imageRefusal c n policy (s.hostRead addr n) = some r →
    exec (.imageFetchComplete true) s = .next (s.imgRefuse r))
  ∧ (∀ im, Reached s .IMG_CTRL 0 → s.fon IMG_STATUS.BUSY 0 = false → s.imageJob = .idle → 9 ≤ s.bringUp.done →
    s.imgState c = imgLoaded → s.image c = some im → im.fabric = [] →
    exec (.activate c) s = .next ((begun imgActivate).setJob (.activate c)))
  ∧ (∀ im, s.imageJob = .activate c → s.image c = some im → im.clusters = [] →
    exec .activateComplete s = .next ((((s.updCx c fun x => { x with activatedAt := some s.tally.time }).updRing c fun r =>
      { r with committed := 0 }).fset IMG_CX_STATE.STATE c imgActive).imgOk))
  ∧ (∀ im k, s.imageJob = .activate c → s.image c = some im → im.clusters = [k] →
    exec .activateComplete s = .next (
      let t := (s.updCx c fun x => { x with activatedAt := some s.tally.time }).writeRegions k.cluster k.regions
      (((t.initRegions c k.cluster).updRing c fun r => { r with committed := 0 }).fset IMG_CX_STATE.STATE c imgActive).imgOk))
  ∧ (Reached s .IMG_CTRL 0 → s.fon IMG_STATUS.BUSY 0 = false → 9 ≤ s.bringUp.done → s.unloadAllowed c = true →
    exec (.unload c) s = .next ((begun imgUnload).setJob (.unload c)))
  ∧ (∀ addr n policy, Reached s .IMG_CTRL 0 → 9 ≤ s.bringUp.done → s.imageJob = .fetch c addr n policy →
    exec .abort s = .next (s.imgEnd 0x19 noOffset 0))
  ∧ (Reached s .IMG_CTRL 0 → s.bringUp.done < 9 → exec .abort s = .next (s.imgEnd 0x01 noOffset 0))

/-! ### Placement and self-healing (10_placement_and_self_healing.md) -/

/-- A move whose copy has ended: the cluster's parts stand at its new site, its configuration loads and it starts when
its folio may; a migration's copy is noted for the boundary, and one whose path is cut cannot end; a site with
AUD_RETIRE_COUNT mismatches in its window is marked to retire with cause 2; a rotation visit waits for the boundary.
The oldest append that waits becomes the last entry of the defect ledger, ENTRIES counts it, PENDING shows whether
more wait and FULL an entry 4096; a failed retry shows WRITE_FAILED and keeps the append; a ledger that cannot be read
is rebuilt and the running segments of the partition's contexts are marked (log entry 32) (R98, R225, R227, R228,
R238, R242, R243). -/
def Obligations.MovesAndRetirement : Prop :=
  (∀ (s : State) (L n p i : Nat),
    (∀ c readable, L < 288 → (s.cl L).site = some n → s.owner L = some c → (s.cl L).moving = true →
      let t := s.finishCopy c L readable
      t.folState c = folNone → exec (.moveCopyComplete L readable) s
        = .next (((t.updCl L fun k => { k with moving := false, copyFrom := none }).startIfReady c L).settleAccesses L))
    ∧ (∀ c readable, L < 288 → (s.cl L).site = some n → s.owner L = some c → (s.cl L).moving = true →
      let t := s.finishCopy c L readable
      let r := t.loadConfig c L (t.activeFolio c) none
      t.folState c ≠ folNone → r.1 = false → exec (.moveCopyComplete L readable) s
        = .next (((r.2.updCl L fun k => { k with moving := false, copyFrom := none }).startIfReady c L).settleAccesses L))
    ∧ (∀ m, s.placer.migrations[i]? = some m → s.copyCutOff m = true → exec (.migrationCopyComplete i) s = .next s)
    ∧ (∀ m, s.placer.migrations[i]? = some m → s.copyCutOff m = false → exec (.migrationCopyComplete i) s = .next
        { s with placer := { s.placer with migrations := s.placer.migrations.set i { m with copied := true } } })
    ∧ (n < 336 → s.retireDue n s.tally.count = true → exec (.auditRetire n) s
        = .next (s.updSite n fun x => { x with retire := some (x.retire.getD 2) }))
    ∧ (p < 12 → s.fon PLC_ROTATE.ENABLE 0 = true → p ∉ s.placer.rotateDue → exec (.rotationVisit p) s = .next
        { s with placer := { s.placer with rotateDue := s.placer.rotateDue ++ [p] } }))
  ∧ (∀ (s : State),
    (∀ e rest, s.placer.appends = e :: rest →
      let t := (({ s with placer := { s.placer with appends := rest, defects := s.placer.defects ++ [e] } } : State).fset
        PLC_LEDGER.ENTRIES 0 (s.placer.defects.length + 1)).fbit PLC_LEDGER.FULL 0 (decide (4096 ≤ s.placer.defects.length + 1))
      ∀ c, c = .ledgerAppendComplete ∨ c = .ledgerAppendRetry true →
        exec c s = .next (t.fbit PLC_LEDGER.PENDING 0 (!rest.isEmpty)))
    ∧ (s.placer.appends ≠ [] → exec (.ledgerAppendRetry false) s = .next (s.fbit PLC_LEDGER.WRITE_FAILED 0 true))
    ∧ (∀ p, p < 12 → s.contextsOn p = [] → (s.rebuildEntries p).contextsOn p = [] →
      exec (.ledgerUncorrectable p) s = .next (s.rebuildEntries p))
    ∧ (∀ p c, p < 12 → (s.rebuildEntries p).contextsOn p = [c] → ((s.rebuildEntries p).cx c).segment = true →
      exec (.ledgerUncorrectable p) s = .next ((s.rebuildEntries p).updCx c fun x => { x with rerunMark := true })))

/-! ### The fabric (13_cikel_fabric.md) -/

/-- What a port's control does: an enabled port trains if its licence and cartridge let it, a disabled one leaves
service and counts its hours and writes its cartridge's usage; a reset one discards the cells it holds, those among
them that wait at other outputs, so that its inputs hold none and only answers (RSP) to requests among them are still
delivered, and retrains or trains, and a port whose reset still lasts is left and the command counted; RETRAIN of an
UP port retrains and is counted, and so does the eighth NAK without progress; the hours are those of the time base and
what the Nose counted beside it (log entry 34) (R2, R289, R292, R324, R328, R376). -/
def Obligations.PortControl : Prop := ∀ (s : State) (n : Nat), n < 24 →
  let retrained := ((s.setPort n portRetraining (s.fget FAB_PORT_STATUS.CODE n)).finc FAB_PORT_LINK_ERR.RETRAINS n).updFp n fun p =>
    { p with naks := 0, nakAck := none }
  (Reached s .FAB_PORT_CTRL n → s.portLicensed n = true →
    exec (.portEnable n true) s = .next ((s.fset FAB_PORT_CTRL.ENABLE n 1).tryTrain n))
  ∧ (Reached s .FAB_PORT_CTRL n → s.portLicensed n = false →
    exec (.portEnable n true) s = .next (s.fset FAB_PORT_STATUS.CODE n 1))
  ∧ (Reached s .FAB_PORT_CTRL n → s.fon FAB_PORT_CTRL.ENABLE n = true →
    exec (.portEnable n false) s = .next ((((s.fset FAB_PORT_CTRL.ENABLE n 0).portLeaves n portIdle 0).countHours n 0).writeUsage n))
  ∧ (Reached s .FAB_PORT_CTRL n → (s.fp n).resetting = false → ∃ t, exec (.portReset n) s = .next t
    ∧ (t.fp n).inputs = [] ∧ (∀ c ∈ (t.fp n).delivered, c.kind = 4) ∧ (t.fp n).circuitIn = [] ∧ (t.fp n).parts = []
    ∧ ∀ k, k ≠ n → (t.fp k).inputs = (s.fp k).inputs
      ∧ ∃ l, (t.fp k).delivered = (s.fp k).delivered ++ l ∧ ∀ c ∈ l, c.kind = 4)
  ∧ (Reached s .FAB_PORT_CTRL n → (s.fp n).resetting = true → exec (.portReset n) s = .next (s.finc RST_STATUS.IGNORED 0))
  ∧ (Reached s .FAB_PORT_CTRL n → (s.fp n).resetting = false →
    (s.fp n).inputs = [] → (s.fp n).delivered = [] → (s.fp n).outq = [] →
    let t := ((s.setFp n { s.fp n with inputs := [], delivered := [], circuitIn := [], parts := [], outq := [], circOut := [] }).fadd
      FAB_PORT_DISCARD.LINK n ((s.fp n).circuitIn.length + (s.fp n).circOut.length + ((s.fp n).parts.map fun e => e.2.length).sum)).dropHeld n
    let u := if t.portState n = portUp then t.retrain n else t.tryTrain n
    exec (.portReset n) s = .next (u.updFp n fun p =>
      { p with resetting := u.portState n == portTraining || u.portState n == portRetraining }))
  ∧ (Reached s .FAB_PORT_CTRL n → s.portState n = portUp → exec (.portRetrain n) s = .next retrained)
  ∧ (8 ≤ (s.fp n).naks → s.portState n = portUp → exec (.nakRetrain n) s = .next retrained)

/-- The end of training and of retraining: a trained port shows its neighbour and the link's delay (at most 65535 ns),
is UP and advertises its buffers; a failed training leaves it IDLE with code 4, a failed retraining DOWN with code 6;
a link that goes down takes the port DOWN. A link block of an UP port: a good block in order is accepted, a fill block
is not; a bad or unexpected one makes a NAK due once, for a resend of what follows the last good one; a block that
goes out has 26 cell positions and 1,285 bytes, carries the NAK that is due, and one that is sent again is counted.
What the exchange shows of the features, and the order and timing of what is sent again, are the model's (log entries
34, 35 and 71) (R289, R290, R291, R292, R293). -/
def Obligations.PortTraining : Prop :=
  (∀ (s : State) (n : Nat), n < 24 →
    (∀ m peer delay features, s.portState n = portTraining → s.portLicensed n = true →
      let t := ((s.fset FAB_PORT_NEIGHBOUR.VALID n 1).fset FAB_PORT_NEIGHBOUR.PORT n peer).fset FAB_PORT_NEIGHBOUR.MODULE n m
      exec (.linkTrainingComplete n ⟨m, features⟩ peer delay) s
        = .next ((((t.fset FAB_PORT_DELAY.DELAY n (min delay 0xFFFF)).setPort n portUp 0).updFp n fun p =>
            { p with expect := 0, awaiting := false, nakDue := false, naks := 0, nakAck := none, credit := [], nextSeq := 0
                     blocks := [], resendAt := 0, partner := features }).advertise n))
    ∧ (s.portState n = portTraining → exec (.trainFailed n) s = .next (s.setPort n portIdle 4))
    ∧ (s.portState n = portRetraining →
      (exec (.retrainComplete n true) s = .next (((s.setPort n portUp 0).resend n).advertise n))
      ∧ (exec (.retrainComplete n false) s = .next (s.portLeaves n portDown 6)))
    ∧ (s.portState n = portUp ∨ s.portState n = portRetraining ∨ s.portState n = portTraining →
      exec (.linkDown n) s = .next (s.portLeaves n portDown 0)))
  ∧ (∀ (s : State) (n : Nat) (b : LinkBlock), n < 24 → b.ok = true → s.portState n = portUp →
    let t := (s.fadd FAB_PORT_FEC.CORRECTED n b.corrected).tableCorrected n b.tableError
    (b.btype = 2 → exec (.linkBlock n b) s = .next t)
    ∧ (b.btype ≠ 2 → b.good = true → b.seq = (t.fp n).expect → exec (.linkBlock n b) s = .next (t.acceptBlock n b))
    ∧ (b.btype ≠ 2 → b.good = true → b.seq ≠ (t.fp n).expect → (t.fp n).awaiting = true → exec (.linkBlock n b) s = .next t)
    ∧ (b.btype ≠ 2 → b.good = false → exec (.linkBlock n b) s
        = .next (t.updFp n fun p => { p with awaiting := true, nakDue := true }))
    ∧ (b.btype ≠ 2 → b.seq ≠ (t.fp n).expect → (t.fp n).awaiting = false → exec (.linkBlock n b) s
        = .next (t.updFp n fun p => { p with awaiting := true, nakDue := true }))
    ∧ (∀ first, (s.fillBlock n first).1.length = 26)
    ∧ (∀ ack nak ready (o : OutBlock), o.cells.length = 26 → (∀ c, .packet c ∈ o.cells → c.payload.length = 32) →
      (∀ c, .circuit c ∈ o.cells → c.payload.length = 44) → (blockBytes ack nak ready o).length = 1285)
    ∧ (∀ k o, (s.fp n).blocks[(s.fp n).resendAt]? = some o → s.sendBlock n k = ((s.finc FAB_PORT_LINK_ERR.RETRIES n).setFp n
        { s.fp n with nakDue := false, resendAt := (s.fp n).resendAt + 1 }).emit
          (.linkBlock n (((s.fp n).expect + 4095) % 4096) (s.fp n).nakDue (s.fon FAB_PORT_STATUS.READY n) o)))

/-- The head cell of an input queue, once the one before it has left its output: a cell for this module is delivered
here, its buffer's credit to be returned; one for an UP port waits at that output and holds its buffer (log entries 34
and 36); one that no output can take is discarded as ROUTE, and a request among them answered; a cell on which its
escape time-out ends turns to the escape channel and is counted, at the input or at the output where it waits (R296,
R299, R301, R302, R303, R322). -/
def Obligations.PacketCells : Prop := ∀ (s : State) (n vc : Nat) (c : PacketCell) (rest : List PacketCell), n < 24 → vc < 4 →
  let k := inputQueue (s.fp n) vc
  (mget (fun _ => []) (s.fp n).inputs k = c :: rest → s.waitsAt n vc = none →
    c.ptr ≠ 1 ∨ c.src = s.fget FAB_PORT_NEIGHBOUR.MODULE n → c.esc = false → kindVc c.kind = some c.vc →
    (s.nextOutput c = some 24 → exec (.packetCellForward n vc) s
      = .next (((s.leaveQueue n k).freeInput n (queueVc k)).updFp n fun p => { p with delivered := p.delivered ++ [consumeField c n] }))
    ∧ (∀ out, out < 24 → s.nextOutput c = some out → s.portState out = portUp → exec (.packetCellForward n vc) s
      = .next ((s.leaveQueue n k).updFp out fun p => { p with outq := p.outq ++ [⟨n, queueVc k, consumeField c n⟩] }))
    ∧ (∀ out, out ≠ 24 → s.nextOutput c = some out → 24 < out ∨ s.portState out ≠ portUp → exec (.packetCellForward n vc) s
      = .next (((s.leaveQueue n k).finc FAB_PORT_DISCARD.ROUTE n |>.freeInput n (queueVc k)).answerQueued n
          ⟨n, queueVc k, consumeField c n⟩))
    ∧ (s.nextOutput c = none → exec (.packetCellForward n vc) s
      = .next ((s.popInput n k).discardCell n FAB_PORT_DISCARD.ROUTE c)))
  ∧ (mget (fun _ => []) (s.fp n).inputs k = c :: rest → s.waitsAt n vc = none → kindVc c.kind = none →
    exec (.packetCellForward n vc) s = .next ((s.popInput n k).discardCell n FAB_PORT_DISCARD.ROUTE c))
  ∧ (mget (fun _ => []) (s.fp n).inputs vc = c :: rest → s.waitsAt n vc = none → vc < 3 → exec (.escapeTimeout n vc) s = .next
      ((s.updFp n fun p => { p with
        inputs := mput (fun _ => []) (mput (fun _ => []) p.inputs vc rest) (4 + vc)
          (mget (fun _ => []) p.inputs (4 + vc) ++ [{ c with vc := 3, esc := true }]) }).finc FAB_PORT_ESCAPED.COUNT n))
  ∧ (∀ m q out, s.waitsAt n vc = some m → vc < 3 → ((s.fp m).outq.find? fun q => q.input == n && q.cell.vc == vc) = some q →
    let t := (s.updFp m fun p => { p with outq := p.outq.erase q }).finc FAB_PORT_ESCAPED.COUNT n
    t.nextOutput { q.cell with vc := 3, esc := true } = some out → exec (.escapeTimeout n vc) s
      = .next (t.toOutput n q.buf out { q.cell with vc := 3, esc := true }))

/-- Remote memory at its target: a refused request is counted and answered with its status; a read that can be
performed answers its bytes as RDATA cells, those of a poisoned block marked; a write is held for its data, stored
cell by cell and answered when all are in (R264, R316, R317). -/
def Obligations.RemoteTarget : Prop := ∀ (s : State) (n : Nat) (c : PacketCell), n < 24 → c.ok = true →
  let t := s.takeCell n c
  let r := Request.ofCell c
  (∀ st, t.windowCheck r c.src false = .inl st → exec (.rreq n c) s = .next ((t.windowDeny r st).answerRsp n c st))
  ∧ (∀ a, t.windowCheck r c.src false = .inr a → t.remoteOk n r.rcx a r.length = true →
    let m := t.remoteBlocks r.rcx a (r.length / 64)
    m.1.any (·.fenced) = false → exec (.rreq n c) s = .next (m.2.forEach (List.range (r.length / 32)) fun i s =>
      let b := m.1.getD (i / 2) ⟨[], false, false⟩
      s.answerData n c i ((b.bytes.drop (32 * (i % 2))).take 32) b.poison))
  ∧ (∀ st, t.windowCheck r c.src true = .inl st → exec (.wreq n c) s = .next ((t.windowDeny r st).answerRsp n c st))
  ∧ (∀ a, t.windowCheck r c.src true = .inr a → exec (.wreq n c) s = .next { t with fabric := { t.fabric with
      writes := t.fabric.writes ++ [{ src := c.src, xid := c.xid, port := n, cell := c, cx := r.rcx, addr := a, len := r.length,
                                      bad := false, data := [], took := t.tookBy r.rcx a r.length }] } })
  ∧ (∀ w, (s.fabric.writes.find? fun w => w.src == c.src && w.xid == c.xid) = some w →
    (w.data.any fun e => e.1 == c.index) = false → 32 * c.index < w.len →
    let m := t.acceptedWrite n w (w.addr + 32 * c.index) c.payload c.poison
    let w' := { w with bad := w.bad || m.1, data := w.data ++ [(c.index, c.payload)] }
    (w.data.length + 1 = w.len / 32 →
      exec (.wdata n c) s = .next ((m.2.dropWrite w').answerRsp w.port w.cell (if w.bad || m.1 then 0x12 else 0)))
    ∧ (w.data.length + 1 ≠ w.len / 32 → exec (.wdata n c) s = .next { m.2.dropWrite w' with
      fabric := { (m.2.dropWrite w').fabric with writes := (m.2.dropWrite w').fabric.writes ++ [w'] } }))

/-- Remote memory at its source: a request with a route sends its transactions by the port of its partition that is
nearest, one without, or that its port refuses, ends with 0x12; data cells are stored in order of arrival and the last
ends its transaction; RSP ends a transaction, and one with an error ends the whole request with the first error's
status (R298, R316, R317). -/
def Obligations.RemoteSource : Prop := ∀ (s : State),
  (∀ L tag op cx q route, L < 288 → tag < 128 → op = 9 ∨ op = 10 → s.remoteNext L tag op = some (cx, q) →
    s.routeFor q.module = some route → s.askRefusal (.cluster L 2) (.port (s.portNear L)) = none →
    q.started = true ∨ q.lvault = false
      ∨ (if op = 9 then s.writeOk L q.dst q.length .dma else s.readOk L q.src q.length) = true →
    exec (if op = 9 then .rread L tag else .rwrite L tag) s
      = .next ((s.updReq L tag fun q => { q with started := true }).sendTxs L cx (s.portNear L) tag route (q.length / 64 + 2)))
  ∧ (∀ L tag op cx q route, L < 288 → tag < 128 → op = 9 ∨ op = 10 → s.remoteNext L tag op = some (cx, q) →
    s.routeFor q.module = some route → s.askRefusal (.cluster L 2) (.port (s.portNear L)) ≠ none →
    exec (if op = 9 then .rread L tag else .rwrite L tag) s
      = .next ((s.countRefused (.cluster L 2) (.port (s.portNear L))).movedNone L tag 0x12))
  ∧ (∀ L tag op cx q, L < 288 → tag < 128 → op = 9 ∨ op = 10 → s.remoteNext L tag op = some (cx, q) →
    s.routeFor q.module = none → exec (if op = 9 then .rread L tag else .rwrite L tag) s = .next (s.movedNone L tag 0x12))
  ∧ (∀ n c t q cx, n < 24 → c.ok = true →
    (s.fabric.tx.find? fun t => t.toModule == c.src && t.xid == c.xid && t.read) = some t → t.got.contains c.index = false →
    32 * c.index < t.len → s.dmaReq t.cluster t.tag = some q → s.owner t.cluster = some cx → q.lvault = true →
    s.lateAt (s.hostPart t.cluster) = false →
    s.transit (s.unitXY (.port n) (s.clusterXY t.cluster)) (s.clusterXY t.cluster) = none →
    let u := (((s.takeCell n c).vstore t.cluster (t.addr + 32 * c.index)
      (if c.poison then List.replicate c.payload.length 0 else c.payload) .dma).updReq t.cluster t.tag fun q =>
      { q with fenced := q.fenced || false, poison := q.poison || c.poison }).dropTx fun x => x.toModule == t.toModule && x.xid == t.xid
    (t.got.length + 1 ≠ t.len / 32 → exec (.rdata n c) s = .next
      { u with fabric := { u.fabric with tx := u.fabric.tx ++ [{ t with got := t.got ++ [c.index] }] } })
    ∧ (t.got.length + 1 = t.len / 32 → exec (.rdata n c) s = .next (u.updReq t.cluster t.tag fun q =>
      { q with waiting := q.waiting - 1 })))
  ∧ (∀ n c t, n < 24 → c.ok = true → (s.fabric.tx.find? fun t => t.toModule == c.src && t.xid == c.xid) = some t →
    s.lateAt (s.hostPart t.cluster) = false →
    (leNat (c.payload.take 1) = 0 → exec (.rsp n c) s = .next
      (((s.takeCell n c).dropTx fun x => x.toModule == t.toModule && x.xid == t.xid).updReq t.cluster t.tag fun q =>
        { q with waiting := q.waiting - 1 }))
    ∧ (∀ st, leNat (c.payload.take 1) = st → st ≠ 0 → t.tag ≠ abandonedTag → exec (.rsp n c) s = .next
      (((s.takeCell n c).dropTx fun x => x.cluster == t.cluster && x.tag == t.tag).updReq t.cluster t.tag fun q =>
        { q with waiting := 0, issued := true, poison := q.poison || st == 0x11, status := if q.status = 0 then st else q.status })))

/-- The credit of bindings: GRANT lets a half go out, ACK frees the half, a REVOKE of a half that has not started is
answered REVOKED, and REVOKED takes the grant back. A snapshot trigger from the fabric waits for its tally, or for the
next one when it is late; its pair is remembered, it goes on by the ports of SNP_FWD, and a pair seen before does
nothing (R312, R313, R315, R438, R440). -/
def Obligations.BindingCredit : Prop :=
  (∀ (s : State) (n k sseq : Nat) (c : PacketCell), n < 24 → c.ok = true →
    let t := s.takeCell n c
    (s.creditCell c false = some (k, sseq) →
      (exec (.grant n c) s = .next (t.setBinding k { s.binding k with grants := (s.binding k).grants ++ [sseq] }))
      ∧ (exec (.ack n c) s = .next ((t.setBinding k { s.binding k with
        sealed := (s.binding k).sealed.filter fun h => h.sseq != sseq
        grants := (s.binding k).grants.filter (· != sseq) }).openHalf k))
      ∧ ((t.binding k).started sseq = false → exec (.revoke n c) s = .next ((t.setBinding k { t.binding k with
        grants := (t.binding k).grants.filter (· != sseq) }).sendCredit k 3 sseq 0))
      ∧ ((t.binding k).started sseq = true → exec (.revoke n c) s = .next t))
    ∧ (s.creditCell c true = some (k, sseq) → exec (.revoked n c) s = .next (t.setBinding k { s.binding k with
        granted := (s.binding k).granted.filter (· != sseq) })))
  ∧ (∀ (s : State) (n : Nat) (c : PacketCell), n < 24 → c.ok = true →
    let t := s.takeCell n c
    let v := leNat c.payload
    let tally := bitsOf v 63 0
    let pair := (bitsOf v 95 80, bitsOf v 79 64)
    (t.nose.pairs.contains pair = true → exec (.trigger n c) s = .next t)
    ∧ (t.nose.pairs.contains pair = false →
      let u := ({ t with nose := { t.nose with triggers := t.nose.triggers ++
        [{ tally := if tally ≤ t.tally.count then t.tally.count + 1 else tally, source := 4,
           late := decide (tally ≤ t.tally.count), origin := pair.1, id := pair.2 }] } } : State).rememberPair pair
      (u.fget SNP_FWD.PORTS 0 = 0 → exec (.trigger n c) s = .next u)
      ∧ (u.fget SNP_FWD.PORTS 0 ≠ 0 → exec (.trigger n c) s = .next (u.sendTriggers tally pair.2 pair.1))))

/-- Circuit cells: the entry of the bank for the cell's phase says whether it is forwarded, delivered, both or added;
a cell of no bank is discarded as LATE, one of a bad or an unused entry as TABLE, and so is one of an addition beyond
the licence (the model's choice, log entry 36) (R306, R309, R314, R318, R322, R323). -/
def Obligations.CircuitCells : Prop := ∀ (s : State) (n : Nat) (c : CircuitCell), n < 24 → c.ok = true →
  let t := s.updFp n fun p => { p with circuitIn := p.circuitIn.erase c }
  (t.bankFor n c.phase = none → exec (.circuitCell n c) s = .next (t.finc FAB_PORT_DISCARD.LATE n))
  ∧ (∀ bank, t.bankFor n c.phase = some bank → let e := mget zeroNat bank c.circuit
    let k := n * 256 + entBind e
    ((t.fp n).badCircuit.contains c.circuit = true ∨ (4 ≤ entAction e ∧ t.clearingLicensed = false) →
    exec (.circuitCell n c) s = .next (t.finc FAB_PORT_DISCARD.TABLE n))
    ∧ ((t.fp n).badCircuit.contains c.circuit = false → entAction e < 4 ∨ t.clearingLicensed = true →
      (entAction e = 1 → exec (.circuitCell n c) s = .next (t.forwardCircuit n e c))
      ∧ (entAction e = 2 → exec (.circuitCell n c) s = .next (t.deliverCircuit n k c))
      ∧ (entAction e = 3 → exec (.circuitCell n c) s = .next ((t.deliverCircuit n k c).forwardCircuit n e c))
      ∧ (entAction e = 4 → exec (.circuitCell n c) s = .next (t.passCircuit n k c))
      ∧ (entAction e = 5 ∨ entAction e = 6 → exec (.circuitCell n c) s = .next (t.passCircuit n (k + 1) c))
      ∧ (entAction e = 0 ∨ entAction e = 7 → exec (.circuitCell n c) s = .next (t.finc FAB_PORT_DISCARD.TABLE n))))

/-- Sealed halves and clearing: the lowest half with its grants starts from its first cell, and the one that has
waited the longest for its ACK may start again (the choice among halves is the model's, log entry 71); each cell
carries the phase and its place, and the last one of a clearing half frees it; a contribution whose scales agree is
added to the token that passes, and one whose scales do not agree spoils it, counted and recorded (R312, R313, R318,
R319). -/
def Obligations.HalvesAndClearing : Prop := ∀ (s : State) (n b : Nat), n < 24 → b < 256 →
  let k := n * 256 + b
  let begun := fun (h : OutHalf) => s.setBinding k { s.binding k with
    sealed := (s.binding k).sealed.map fun y => if y.sseq = h.sseq then { y with sent := true, next := 0 } else y }
  (∀ h, s.halfToSend n b = some h → exec (.halfTransmit n b) s = .next (begun h))
  ∧ (∀ h, s.halfToResend n b = some h → exec (.halfRetransmit n b) s = .next (begun h))
  ∧ (∀ circuit h c, s.halfCell k circuit h = some c →
    c.phase = s.tally.count % 4 ∧ c.circuit = circuit ∧ c.part = h.next % 8 ∧ h.next / 8 < h.tokens.length)
  ∧ (∀ h, s.fon FAB_BIND_A.CLEARING k = true → h.next + 1 = 8 * h.tokens.length → s.halfSent k h
      = (s.setBinding k { s.binding k with
          sealed := (s.binding k).sealed.filter fun y => y.sseq != h.sseq
          grants := (s.binding k).grants.filter (· != h.sseq) }).openHalf k)
  ∧ (∀ h, s.fon FAB_BIND_A.CLEARING k = false → s.halfSent k h = s.setBinding k { s.binding k with
      sealed := (s.binding k).sealed.map fun y =>
        if y.sseq = h.sseq then { y with next := h.next + 1, lastAt := s.tally.time } else y })
  ∧ (∀ i q idx total tok rest e h o, takeAt (s.binding k).pass i = some ((q, idx, total, tok), rest) →
    s.addEntry n b = some e → ((s.binding k).sealed.find? fun h => h.sseq == q) = some h → s.logsReached n = true →
    h.tokens[idx]? = some o → entAction e = 5 →
    let used := if h.used.contains idx then h.used else h.used ++ [idx]
    let passed := fun (t : State) => (t.setBinding k { t.binding k with
      pass := rest
      sealed := if used.length ≥ total then (t.binding k).sealed.filter fun y => y.sseq != q
        else (t.binding k).sealed.map fun y => if y.sseq = q then { y with used := used } else y }).openHalf k
    (scalesAgree tok o = true → exec (.clearingAdd n b i) s
      = .next ((passed s).logToken (n * 256 + entBind e) q idx total (addTokens tok o)))
    ∧ (scalesAgree tok o = false → exec (.clearingAdd n b i) s
      = .next ((passed ((s.finc FAB_CLR_ERROR.MISMATCH 0).clearingError k 1)).logToken (n * 256 + entBind e) q idx total
          (spoilToken (addTokens tok o)))))

/-- The tables of the fabric: entry writes reach the route and escape tables and show in their registers; ROUTE_VALID
opens the links; the writes held during a copy follow it; an entry of any table that cannot be read is noted, so that
the cells that meet it are discarded until it is rewritten. A cartridge that comes is shown with its identity and one
more insertion, its signature is then judged, one that goes takes its registers and its port out of service, and its
usage record holds the hours in which its transmitter was on (log entry 34) (R298, R304, R308, R321, R323, R326, R327,
R328, R411). -/
def Obligations.FabricTables : Prop :=
  (∀ (s : State) (v : Nat),
    (Reached s .FAB_ROUTE_HIGH 0 →
      let t := (s.fset FAB_ROUTE_HIGH.VALID 0 (bitsOf v 31 31)).fset FAB_ROUTE_HIGH.FIELDS 0 (bitsOf v 9 0)
      exec (.routeEntryWrite v) s = .next { t with fabric := { t.fabric with
        route := mput zeroNat t.fabric.route (t.fget FAB_ROUTE_INDEX.MODULE 0)
          (t.fget FAB_ROUTE_LOW.FIELDS 0 + 2 ^ 60 * bitsOf v 9 0 + 2 ^ 70 * bitsOf v 31 31) } })
    ∧ (Reached s .FAB_ESCAPE 0 → exec (.escapeEntryWrite v) s = .next (((({ s with fabric := { s.fabric with
        escape := mput zeroNat s.fabric.escape (bitsOf v 13 0) (32 * bitsOf v 31 31 + bitsOf v 20 16) } } : State).fset
          FAB_ESCAPE.VALID 0 (bitsOf v 31 31)).fset FAB_ESCAPE.PORT 0 (bitsOf v 20 16)).fset FAB_ESCAPE.MODULE 0 (bitsOf v 13 0)))
    ∧ (Reached s .FAB_ROUTE_VALID 0 → 8 ≤ s.bringUp.done → exec (.routeValidWrite v) s = .next (s.setRouteValid v))
    ∧ (∀ n, n < 24 → s.fon FAB_TABLE_COMMIT.COPYING n = true →
      exec (.tableCopyComplete n) s = .next ((s.fset FAB_TABLE_COMMIT.COPYING n 0).updFp n fun p =>
        { p.heldWrites.foldl FabPort.stage { p with cstag := p.ccur, sstag := p.scur } with heldWrites := [] }))
    ∧ (∀ n i, n < 24 → okEntry .route i = true →
      (i ∉ (s.fp n).badRoute → exec (.tableEntryUncorrectable n .route i) s
        = .next (s.updFp n fun p => { p with badRoute := i :: p.badRoute }))
      ∧ (i ∉ (s.fp n).badEscape → exec (.tableEntryUncorrectable n .escape i) s
        = .next (s.updFp n fun p => { p with badEscape := i :: p.badEscape })))
    ∧ (∀ n i, n < 24 →
      (okEntry .circuit i = true → i ∉ (s.fp n).badCircuit → exec (.tableEntryUncorrectable n .circuit i) s
        = .next (s.updFp n fun p => { p with badCircuit := i :: p.badCircuit }))
      ∧ (okEntry .slot i = true → i ∉ (s.fp n).badSlot → exec (.tableEntryUncorrectable n .slot i) s
        = .next (s.updFp n fun p => { p with badSlot := i :: p.badSlot }))))
  ∧ (∀ (s : State) (n : Nat), n < 24 →
    (∀ r, let c := { r with insertions := min (r.insertions + 1) 65535 }
      let t := ((((s.rset .CRT_STATUS n 0).fset CRT_STATUS.PRESENT n 1).fset CRT_STATUS.KIND n (idField c 4 1)).fset
        CRT_STATUS.REACH n (idField c 24 2)).fset CRT_SERIAL.SERIAL n (idField c 8 4)
      exec (.cartridgePresent n r) s
        = .next (((t.updFp n fun p => { p with cartridge := some c, onFor := 0 }).showCartridge n c).tryTrain n))
    ∧ (∀ c, (s.fp n).cartridge = some c → exec (.cartridgeVerified n) s = .next
        ((if Cartridge.genuine c then s.fset CRT_STATUS.VERIFIED n 1 else s.fset CRT_STATUS.COUNTERFEIT n 1).tryTrain n))
    ∧ (∀ c, (s.fp n).cartridge = some c →
      let t := s.forEach [.CRT_STATUS, .CRT_USE, .CRT_RATING, .CRT_SERIAL] fun r s => s.rset r n 0
      exec (.cartridgeRemoved n) s = .next ((t.updFp n fun p => { p with cartridge := none }).portLeaves n portDown
        (if t.fon FAB_PORT_CTRL.ENABLE n then 2 else 0)))
    ∧ (∀ c more, (s.fp n).cartridge = some c →
      let t := s.litTime n
      let used := (s.fp n).onAt.isSome || t != 0
      let c' := { c with hours := min (c.hours + t / hourSteps + if used then more else 0) (2 ^ 32 - 1) }
      exec (.usageRecordWrite n more) s = .next (((s.updFp n fun p => { p with
        cartridge := some c', onFor := t % hourSteps, onAt := p.onAt.map fun _ => s.tally.time }).showCartridge n c').writeUsage n)))

/-! ### The host interface (14_host_interface.md) -/

/-- PERST holds PD_PCIE and its registers in reset until it is deasserted; a configuration request before the endpoint
is ready is answered retry, and later one sets or reads what it names; a function-level reset closes every ring and
window. What the spec does not fix of a word of configuration space is a free value (log entry 7), and the places of
what it fixes are PRESUMED (log entry 38). In the DOE mailbox discovery is answered, and a well-formed attestation
request of each kind where its vendor and type are the device's own (free values); an object of another vendor or
type, or one that is too short, too long or of another length than it says, is an error; an abort clears the mailbox
and what waits for its report. The formats are the model's (log entries 38 and 39) (R329, R330, R342, R343, R424,
R450). -/
def Obligations.PcieFunction : Prop :=
  (∀ (s : State),
    (let t := s.setHost { s.host.unconfigured with
        ready := false, perst := true, doeRequest := none, doeResponse := none, doeError := false };
      exec (.pciePerst true) s = .next ((if s.domain domPcie = .off then t else t.setDomain domPcie .reset).resetRegs blockPCI))
    ∧ (s.domain domPcie ≠ .off → exec (.pciePerst false) s = .next
      (((s.setHost { s.host with perst := false }).setDomain domPcie .on).fbit PCI_LINK.READY 0 (decide (9 ≤ s.bringUp.done))))
    ∧ (s.domain domPcie = .off → exec (.pciePerst false) s = .next (s.setHost { s.host with perst := false }))
    ∧ (s.host.perst = false → s.up domPcie = true →
      exec .configurationReady s = .next (s.setHost { s.host with ready := true }))
    ∧ (∀ r, s.host.perst = false → s.up domPcie = true → s.host.ready = false →
      exec (.configurationRequest r) s = .next (s.emit .retryStatus))
    ∧ (s.host.perst = false → s.up domPcie = true → s.host.ready = true →
      (∀ on, exec (.configurationRequest (.memorySpace on)) s = .next (s.setHost { s.host with memorySpace := on }))
      ∧ (∀ n, s.host.memorySpace = false → n ≤ 10 →
        exec (.configurationRequest (.resizeBar2 n)) s = .next (s.setHost { s.host with bar2Log := n }))
      ∧ (∀ d3, exec (.configurationRequest (.powerState d3)) s = .next (s.setHost { s.host with d3 := d3 }))
      ∧ (∀ on, exec (.configurationRequest (.msixEnable on)) s = .next (s.setHost { s.host with msixOn := on }))
      ∧ (∀ off, exec (.configurationRequest (.read off)) s
        = .next (s.emit (.readData (leBytes 4 (s.host.configWord off)) 0)))
      ∧ (∀ i a, i < 4 → exec (.configurationRequest (.bar i a)) s
        = .next (s.setHost { s.host with bars := mput (fun _ => 0) s.host.bars i (a % 2 ^ 32) })))
    ∧ (s.host.ready = true → exec .functionLevelReset s = .next (
      (((s.setHost s.host.unconfigured).fset SUB_ERR_RING.ENABLE 0 0).dropEnable .SUB_ERR_RING 0).forEach contexts fun c s =>
        let t := (((((s.fset SUB_CX_SQ.ENABLE c 0).fset SUB_CX_CQ.ENABLE c 0).fset PCI_WINDOW.ENABLE c 0).dropEnable .SUB_CX_SQ
          c).dropEnable .SUB_CX_CQ c).updRing c fun r =>
          { r with queue := r.queue.filter fun k => !k.isCopy }
        if t.imageActive c then t.updCx c fun x => { x with hostReset := true } else t)))
  ∧ (∀ (s : State) (b : List Byte), s.host.ready = true →
    (exec .doeAbort s = .next ((s.setHost { s.host with doeRequest := none, doeResponse := none, doeError := false }).setSec
      { s.security with waiting := s.security.waiting.filter fun e => e.source != .doe }))
    ∧ (s.host.doeRequest = none →
      let t := s.setHost { s.host with doeRequest := some b, doeResponse := none, doeError := false }
      (b.length < 12 ∨ 4096 < b.length ∨ 4 * (rd b 4 4 % 2 ^ 18) ≠ b.length → exec (.doeRequest b) s
        = .next (t.setHost { t.host with doeRequest := none, doeError := true }))
      ∧ (b.length ≤ 4096 → 12 ≤ b.length → 4 * (rd b 4 4 % 2 ^ 18) = b.length → rd b 0 2 = 1 → rd b 2 1 = 0 →
        exec (.doeRequest b) s = .next (t.doeRespond (doeDiscovery (rd (b.drop 8) 0 1))))
      ∧ (b.length ≤ 4096 → 12 ≤ b.length → 4 * (rd b 4 4 % 2 ^ 18) = b.length → ¬(rd b 0 2 = 1 ∧ rd b 2 1 = 0) →
        let known := fun answered : State =>
          if rd b 0 2 = Config.doeVendor.toNat ∧ rd b 2 1 = Config.doeType.toNat then answered
          else t.setHost { t.host with doeRequest := none, doeError := true }
        (t.lifeCommand = true → exec (.doeRequest b) s = .next (known (t.attAnswer .doe 0 1 [])))
        ∧ (t.lifeCommand = false → rd (b.drop 8) 4 4 ≠ 0 ∨ rd (b.drop 8) 0 4 = 0 ∨ 3 < rd (b.drop 8) 0 4 →
          exec (.doeRequest b) s = .next (known (t.attAnswer .doe 0 5 [])))
        ∧ (t.lifeCommand = false → rd (b.drop 8) 4 4 = 0 →
          (rd (b.drop 8) 0 4 = 1 → exec (.doeRequest b) s = .next (known (t.attestReport ((b.drop 8).drop 8) .doe 0)))
          ∧ (rd (b.drop 8) 0 4 = 2 → b.length = 16 → exec (.doeRequest b) s = .next (known (t.attestKey .doe 0)))
          ∧ (rd (b.drop 8) 0 4 = 3 → b.length = 16 → exec (.doeRequest b) s = .next (known (t.attestLog .doe 0)))))))

/-- The aperture in memory: an access in an enabled window of a context with an image, inside one object, reads or
writes logical memory, and a read of poisoned bytes completes poisoned and is counted; every other one is unsupported,
and one whose memory is lost aborts; both are counted (R275, R332, R333, R380, R447). -/
def Obligations.Aperture : Prop := ∀ (s : State) (off n : Nat) (data : List Byte), s.aborting = false →
  (s.aperture off n = none →
    exec (.apertureRead off n) s = .next ((s.finc PCI_ACCESS_ERR.UR 0).emit (.readData [] rdUnsupported)))
  ∧ (∀ c a, s.aperture off n = some (c, a) → s.rangeDumb c a n = true →
    exec (.apertureRead off n) s = .next ((s.finc PCI_ACCESS_ERR.FENCED 0).emit (.readData [] rdAbort)))
  ∧ (∀ c a, s.aperture off n = some (c, a) → s.rangeDumb c a n = false → let r := s.memRead c a n true
    (r.1.poison = false → exec (.apertureRead off n) s = .next (r.2.emit (.readData r.1.bytes rdOk)))
    ∧ (r.1.poison = true → exec (.apertureRead off n) s
      = .next ((r.2.finc PCI_ACCESS_ERR.POISON 0).emit (.readData r.1.bytes rdPoisoned))))
  ∧ (∀ c a, s.aperture off data.length = some (c, a) → s.rangeLost c a data.length = false →
    exec (.apertureWrite off data) s = .next (s.memWrite c a data false).2)
  ∧ (s.aperture off data.length = none → exec (.apertureWrite off data) s = .next (s.finc PCI_ACCESS_ERR.UR 0))

/-- Commands that act as they arrive: the first of its ring that has not started, where it need not wait and is not
refused: NOP completes, a copy starts, and a copy that completes has moved its blocks and its status says what they
met. A command that acts at a boundary is taken over as it arrives (log entry 40). A ring is declared overloaded at
SUB_POLL.OVERLOAD backlogged polls in a row: its bit of SUB_OVERLOAD is set, once for each onset (R336, R337, R338,
R339, R341). -/
def Obligations.HostCommands : Prop :=
  (∀ (s : State) (cx : Nat), cx < 16 →
    (∀ i c, (s.ring cx).nextInTally = some (i, c) → c.waits i = false → s.cmdRefusal cx c = none →
      (c.op = opNop → exec (.nop cx) s = .next ((s.finishCmd cx i 0 0).sweepReserved cx))
      ∧ (c.op = opCopyIn → exec (.copyIn cx) s = .next ((s.updRing cx (markStarted i)).sweepReserved cx))
      ∧ (c.op = opCopyOut → exec (.copyOut cx) s = .next ((s.updRing cx (markStarted i)).sweepReserved cx)))
    ∧ (∀ i c st w, (s.ring cx).nextInTally = some (i, c) → c.waits i = false → s.cmdRefusal cx c = some (st, w) →
      (c.op = opNop → exec (.nop cx) s = .next ((s.finishCmd cx i st w).sweepReserved cx))
      ∧ (c.op = opCopyIn → exec (.copyIn cx) s = .next ((s.finishCmd cx i st w).sweepReserved cx))
      ∧ (c.op = opCopyOut → exec (.copyOut cx) s = .next ((s.finishCmd cx i st w).sweepReserved cx)))
    ∧ (∀ k i c, ((s.ring cx).queue.zipIdx.filter fun e => e.1.isCopy && e.1.started)[k]? = some (c, i) →
      (s.objectOf cx c.dev c.arg).isSome = true → let r := s.copyBlocks cx c
      exec (.copyComplete cx k) s = .next ((r.2.2.finishCmd cx i
        (if r.1 then stCmdFenced else if r.2.1 then stCmdPoison else 0) 0).sweepReserved cx)))
  ∧ (∀ (s : State) (cx i : Nat) (c : Command), cx < 16 →
    (s.ring cx).nextBoundary = some (i, c) → c.waits i = false → s.cmdRefusal cx c = none →
      (c.op = opMsg → exec (.msg cx) s = .next (s.updRing cx (markStarted i)))
      ∧ (c.op = opNext → exec (.next cx) s = .next (s.updRing cx (markStarted i)))
      ∧ (c.op = opStop → exec (.stop cx) s = .next (s.updRing cx (markStarted i)))
      ∧ (c.op = opResume → exec (.resume cx) s = .next (s.updRing cx (markStarted i))))
  ∧ (∀ (s : State) (cx : Nat), cx < 16 → mwf regDefault s.regs = true →
    s.fget SUB_POLL.OVERLOAD 0 ≠ 0 →
    s.fget SUB_POLL.OVERLOAD 0 ≤ (s.ring cx).backlogged → (s.ring cx).overloaded = false →
    ∃ t, exec (.overload cx) s = .next t
      ∧ t.fget SUB_OVERLOAD.CONTEXTS 0 = s.fget SUB_OVERLOAD.CONTEXTS 0 ||| 2 ^ cx
      ∧ t.host.overloadMessage = true ∧ (t.ring cx).overloaded = true
      ∧ (∀ d, d ≠ cx → t.ring d = s.ring d) ∧ t.clusters = s.clusters ∧ t.memory = s.memory)

/-! ### Power, self-test and recovery (15_power_and_thermal.md, 16_self_test.md, 17_fault_recovery.md) -/

/-- Commands of the power states wait for step 6; a transition that ends shows its state: Sleep and Hold take the
partition's memory off, which MEM_STATUS shows, the last partition to reach Hold shows HOLD, and one that reaches
another state ends the package's Hold; Active shows the state, brings the floor up to date and lets a change that
waited go on. A raise shows its point when the voltage has settled, a lower one when the clock has switched and ends
when the voltage has come down; the loop adds what it measured, counts a loop with excess and throttles (R344, R345,
R346, R349, R350, R352, R357). -/
def Obligations.PowerStates : Prop :=
  (∀ (s : State) (mask p : Nat),
    (Reached s .PWR_STATE_CTRL 0 →
      (exec (.powerActive mask) s = .next (s.stateWrite mask pwActive))
      ∧ (exec (.powerIdle mask) s = .next (s.stateWrite mask pwIdle))
      ∧ (exec (.powerSleep mask) s = .next (s.stateWrite mask pwSleep))
      ∧ (exec .powerHold s = .next (s.stateWrite 0 pwHold)))
    ∧ (∀ goal, p < 12 → (s.pw p).goal = some goal → goal = pwSleep ∨ goal = pwHold →
      let w := (s.updPw p fun w => { w with goal := none }).fset PWR_PART_STATUS.STATE p goal
      let t := if goal = pwHold ∨ (w.pw p).held = some pwHold then w else w.leaveHold
      t.up (domArr p) = false → let u := ((t.setDomain (domMem p) .off).fset MEM_STATUS.SR p 2).syncFloor p
      exec (.powerTransitionComplete p) s = .next
        (if u.power.portsHeld && nat12.all fun q => u.pwState q == pwHold then u.fset PWR_STATUS.HOLD 0 1 else u))
    ∧ (p < 12 → (s.pw p).goal = some pwActive → (s.pw p).held ≠ some pwHold →
      let t := ((s.updPw p fun w => { w with goal := none }).fset PWR_PART_STATUS.STATE p pwActive).leaveHold
      t.up (domArr p) = true → t.up (domMem p) = true →
      exec (.powerTransitionComplete p) s = .next ((t.syncFloor p).startWaiting p)))
  ∧ (∀ (s : State) (p n : Nat), p < 12 →
    ((s.pw p).change = .raise n → exec (.voltageSettled p) s
        = .next (((s.fset PWR_PART_STATUS.POINT p n).endChange p).startWaiting p))
    ∧ ((s.pw p).change = .trim → exec (.voltageSettled p) s = .next (((s.addTrim p).endChange p).startWaiting p))
    ∧ ((s.pw p).change = .lower n false → exec (.clockSwitchComplete p) s = .next
        (((s.fset PWR_PART_STATUS.POINT p n).updPw p fun w => { w with change := .lower n true }).startWaiting p))
    ∧ ((s.pw p).change = .lower n true → exec (.voltageLowered p) s = .next (s.endChange p))
    ∧ (∀ f m c w, s.up (domPlat 0) = true →
      let excess := s.fon PWR_STATUS.CAP_UNMET 0 || decide (s.fget PWR_SHARE.COMPUTE 0 < c)
      exec (.powerInnerLoop f m c w) s = .next ((s.setPower { s.power with
        loops := s.power.loops + 1
        hotLoops := s.power.hotLoops + excess.toNat
        watts := [s.power.watts.getD 0 0 + f, s.power.watts.getD 1 0 + m, s.power.watts.getD 2 0 + c]
        partWatts := nat12.foldl (fun x p => mput zeroNat x p (mget zeroNat x p + w.getD p 0)) s.power.partWatts }).throttle c)))

/-- Droops, the brake and the thermal trip: a detector that asserts is counted, shown and stretches the clock, stops a
change in progress, and its release ends that; a change abandoned is recorded; PWR_BRAKE_N sends every Active
partition to the floor once; a partition that trips goes there too with a fatal record (R353, R354, R355, R358, R359).
-/
def Obligations.DroopsAndTrips : Prop := ∀ (s : State) (p d : Nat), p < 12 → d < 16 →
  let asserted := (((s.finc DRP_COUNT.COUNT p).fset DRP_STATUS.ASSERTED p ((s.finc DRP_COUNT.COUNT p).detectors p ||| 2 ^ d)).fset
    DRP_STATUS.LAST p d).updPw p fun w => { w with stretched := true }
  (s.up (domArr p) = true → (asserted.pw p).change = .none → exec (.droopAssert p d) s = .next asserted)
  ∧ (s.up (domArr p) = true → (asserted.pw p).change ≠ .none →
    exec (.droopAssert p d) s = .next ((asserted.stopChange p).countAbort p))
  ∧ (exec (.droopRelease p) s = .next ((s.fset DRP_STATUS.ASSERTED p 0).updPw p fun w => { w with stretched := false }))
  ∧ ((s.pw p).abandonDue = true →
    let t := (s.updPw p fun w => { w with abandonDue := false, lowering := false }).fset PWR_PART_STATUS.ABANDONED p 1
    exec (.changeAbandoned p) s = .next ((t.fset PWR_PART_STATUS.HOLDOFF p (t.fget DRP_CTRL.HOLDOFF p)).report sevWarning blkPWR
      Uncoded.abandoned.code p none []))
  ∧ (s.power.brakeLow = false → s.started = true → s.fon PWR_STATUS.BRAKE 0 = false →
    let t := ((s.setPower { s.power with brakeLow := true, brakeHigh := false }).fset PWR_STATUS.BRAKE 0 1).finc
      PWR_STATUS.BRAKES 0
    exec .brake s = .next (t.forEach (nat12.filter fun p => t.pwState p == pwActive) fun p s => (s.stopChange p).syncFloor p))
  ∧ (exec .brakeDeassert s = .next (s.setPower { s.power with brakeLow := false }))
  ∧ (s.up (domArr p) = true → (s.pw p).hot = false →
    let t := ((((s.updPw p fun w => { w with hot := true }).stopChange p).syncFloor p).fset PWR_STATUS.THERMAL 0 1)
    exec (.thermalTrip p) s = .next (({ t with nose := { t.nose with floorTimes := t.tally.time :: t.nose.floorTimes } } :
      State).report sevFatal blkPWR Uncoded.thermalTrip.code p none []))

/-- Slices of the test engines: the window opens at its start and not before; in it a slice that ends has passed or
failed its unit and the engine goes on to its next work; one that ends too late, or that read a poisoned block of the
pattern store, is aborted; an abort frees the engine and is counted, and outside the window no slice runs; a result is
taken from the queue; the pattern store shows STORED or PATTERNS_INVALID (R362, R363, R364, R366, R367, R368, R369,
R374). -/
def Obligations.TestSlices : Prop := ∀ (s : State) (p e : Nat), p < 12 → e < 8 →
  (∀ n u b g again, s.engine p e = some (.march n u b g, again) → s.test.window = true → s.sliceLate = false →
    let w := Work.march n u b g
    let t := if again then s.leaveBackground w else ((s.leaveBackground w).advanceMarch n w).setTurn p n
    (exec (.marchSliceEnd p e .pass) s = .next ((t.slicePassed p w again).nextWork p e w again))
    ∧ (∀ row el, exec (.marchSliceEnd p e (.fail row el)) s = .next ((t.sliceFailed p w again row el).nextWork p e w again)))
  ∧ (∀ n again, s.engine p e = some (.scan n, again) → s.test.window = true → s.sliceLate = false → s.slicePoison p = [] →
    (exec (.scanSliceEnd p e true) s = .next ((s.slicePassed p (.scan n) again).nextWork p e (.scan n) again))
    ∧ (exec (.scanSliceEnd p e false) s = .next ((s.sliceFailed p (.scan n) again 0 0).nextWork p e (.scan n) again)))
  ∧ (∀ n u b g again, s.engine p e = some (.march n u b g, again) → s.test.window = true →
    (exec (.sliceAbort p e) s = .next ((s.setEngine p e none).finc BST_STATUS.ABORTS 0))
    ∧ (s.sliceLate = true → ∀ r, exec (.marchSliceEnd p e r) s = .next ((s.setEngine p e none).finc BST_STATUS.ABORTS 0)))
  ∧ (∀ n again ok, s.engine p e = some (.scan n, again) → s.test.window = true →
    s.sliceLate = true ∨ s.slicePoison p ≠ [] → exec (.scanSliceEnd p e ok) s = exec (.sliceAbort p e) s)
  ∧ (s.test.window = false → exec (.sliceAbort p e) s = .next s)
  ∧ (s.test.window = false → s.windowDue = true → exec .testWindowStart s
    = .next ((s.setTest { s.test with window := true }).forEach nat12 fun p s =>
      s.forEach (List.range 8) fun e s => s.startEngine p e))
  ∧ (s.windowDue = false → exec .testWindowStart s = .next s)
  ∧ (Reached s .BST_RESULT_POP 0 → exec .bstResultPop s = .next
      ((s.setTest { s.test with results := s.test.results.drop 1 }).fbit BST_STATUS.FIFO 0 (!(s.test.results.drop 1).isEmpty)))
  ∧ (5 ≤ s.bringUp.done → exec (.patternStoreCopyComplete true) s = .next (s.fset SCN_STATUS.STORED 0 1))
  ∧ (5 ≤ s.bringUp.done → s.test.invalidReported = false →
    let t := s.fset SCN_STATUS.PATTERNS_INVALID 0 1
    exec (.patternStoreCopyComplete false) s = .next ((t.setTest { t.test with invalidReported := true }).report sevWarning blkSCN
      Uncoded.patternsInvalid.code 0xFFFF none []))

/-- The named plans that are not refused: VAULT_FULL, SCAN_FULL, RETEST and LEDGER_CLEAR start and show BUSY,
SCAN_NEXT and RAW are done at once; a plan that started ends with a record of each unit that failed and a summary; the
march of the vaults leaves its background in them; the sites that RETEST found good leave the ledger and become SPARE
at step 7, none while the pattern set is invalid (the model's choice, log entry 45); LEDGER_CLEAR waits for the next
bring-up. What a march leaves and what is recorded is in log entries 44 and 45. While RAW is on and the life cycle
allows it, a spare or defective site whose array is up takes patterns, and a word of one of its units is read to host
memory or written from it; while it is off the access is denied and counted (R365, R372, R373, R374, R427). -/
def Obligations.TestPlans : Prop :=
  (∀ (s : State) (mask : Nat), Reached s .BST_PLAN_CTRL 0 →
    let begun := fun n mask => (((s.setTest { s.test with plan := some ⟨n, mask, s.planSites n mask, false⟩ }).fset
      BST_PLAN_STATUS.PLAN 0 n).fset BST_PLAN_STATUS.CODE 0 0).fset BST_PLAN_STATUS.BUSY 0 1
    (s.planRefusal 1 mask 0 = 0 → exec (.vaultFull mask) s = .next (begun 1 mask))
    ∧ (s.planRefusal 2 mask 0 = 0 → exec (.scanFull mask) s = .next (begun 2 mask))
    ∧ (s.planRefusal 4 mask 0 = 0 → exec (.retest mask) s = .next (begun 4 mask))
    ∧ (s.planRefusal 5 0 0 = 0 → exec .ledgerClear s = .next (begun 5 0))
    ∧ (∀ L n, L < 288 → s.planRefusal 3 0 L = 0 → (s.cl L).site = some n →
      exec (.scanNext L) s = .next ((({ s with placer := { s.placer with
        rotateNext := mput zeroNat s.placer.rotateNext (partOfSite n) (localIndex n) } } : State).planEnd 3 0).planSummary 3
          outPass 0))
    ∧ (s.planRefusal 6 0 0 = 0 →
      exec .raw s = .next (((s.setTest { s.test with raw := true }).planEnd 6 0).planSummary 6 outPass 0))
    ∧ (∀ t found, s.test.plan = some t → t.started = true → t.plan = 1 ∨ t.plan = 2 → found.all UnitFailure.ok = true →
      let failed := found.filter (s.planFinds t)
      let v := s.forEach failed fun f s => s.planFailure t.plan f
      let u := if t.plan = 1 then v.forEach t.sites fun n s => s.marchedWhole n else v
      let n := (failedSites failed).length
      exec (.planComplete found) s = .next (((u.setTest { u.test with
        plan := none, confirmed := u.test.confirmed ++ failed.map fun f => ⟨f.site, f.unit, f.row⟩ }).planEnd t.plan 0).planSummary
          t.plan (if n = 0 then outPass else outFailed) n))
    ∧ (∀ t found, s.test.plan = some t → t.started = true → t.plan = 4 → found.all UnitFailure.ok = true →
      let failed := found.filter (s.planFinds t)
      let bad := failedSites failed
      let v := (s.forEach failed fun f s => s.planFailure 4 f).forEach t.sites fun n s => s.marchedWhole n
      let w := v.setTest { v.test with plan := none }
      let good := if w.fon SCN_STATUS.PATTERNS_INVALID 0 then [] else t.sites.filter fun n => !bad.contains n
      let x := w.forEach good fun n s => s.forgetDefects n
      exec (.planComplete found) s = .next (((x.setTest { x.test with restored := x.test.restored ++ good }).planEnd 4
        0).planSummary 4 (if bad = [] then outPass else outFailed) bad.length))
    ∧ (∀ t found, s.test.plan = some t → t.started = true → t.plan = 5 → found.all UnitFailure.ok = true →
      let failed := found.filter (s.planFinds t)
      let v := s.forEach failed fun f s => s.planFailure 5 f
      let bad := failedSites failed
      exec (.planComplete found) s = .next (((v.setTest { v.test with plan := none, clearDue := true }).planEnd 5 0).planSummary 5
        (if bad = [] then outPass else outFailed) bad.length)))
  ∧ (∀ (s : State) (n u row : Nat), n < 336 → Reached s .SCN_RAW_CTRL 0 →
    let shown := fun op u row => ((((s.fset SCN_RAW_CTRL.OP 0 op).fset SCN_RAW_CTRL.UNIT 0 u).fset SCN_RAW_CTRL.ROW 0 row).fset
      SCN_RAW_CTRL.SITE 0 n : State)
    (s.test.raw = true → s.rwlOpen = true → (s.site n).state = .SPARE ∨ (s.site n).state = .DEFECTIVE →
      s.up (domArr (partOfSite n)) = true →
      (exec (.rawApplyPatterns n) s = .next (shown 1 0 0))
      ∧ (row < unitRows u → exec (.rawReadWord n u row) s
        = .next (let t := shown 2 u row; t.hostWrite t.rawAddr (t.rawWord n u row)))
      ∧ (row < unitRows u → exec (.rawWriteWord n u row) s
        = .next (let t := shown 3 u row; t.setRawWord n u row (t.hostRead t.rawAddr (unitWidth u)))))
    ∧ (s.test.raw = false ∨ s.rwlOpen = false → ∀ c, c = .rawApplyPatterns n ∨ c = .rawReadWord n u row ∨ c = .rawWriteWord n u row →
      exec c s = .next (s.finc SEC_STATUS.DENIED 0)))

/-- Decisions that head step 3 and stop a segment: skips at SKIP_LIMIT, a drain that has timed out, a hang, a replay
that hangs again; and RERUN_LIMIT, which fences the partitions that the reruns name (R38, R190, R378, R379, R386). -/
def Obligations.StepThreeDecisions : Prop := ∀ (s : State) (c : Nat), c < 16 →
  (s.scheduled c = true → (s.cx c).segment = true → (s.cx c).hold = .none → s.segmentFinished c = false → s.rerunDue c = false →
    s.depends c = false → s.hangDue c = false → (s.cx c).hangNow = false → s.fget TLY_CX_POLICY.POLICY c = 0 → s.fget TLY_CX_POLICY.SKIP_LIMIT c ≠ 0 →
    s.fget TLY_CX_POLICY.SKIP_LIMIT c ≤ (s.cx c).skips →
    exec (.skipLimit c) s = .next (s.stopFault c csOverrun .fault))
  ∧ (s.folState c = folSlipped → (s.cx c).faultMark = some csDrainTimeout →
    exec (.folDrainTimeout c) s = .next (s.stopFault c csDrainTimeout .fault))
  ∧ (s.hangDue c = true → exec (.hangDeclared c) s = .next (s.declareHang c))
  ∧ (s.quarantineDue c = true → exec (.quarantined c) s = .next (s.quarantine c))
  ∧ (∀ p, s.hangDue c = false → s.rerunLimitDue c = true → (s.cx c).faultParts.dedup.filter (fun p => !s.fenced p) = [p] →
    exec (.rerunLimit c) s = .next ((s.finc HNG_COUNT.RERUN 0).raiseFence causeRerun true p))

/-- The resets of software and of a fenced partition: requests wait in their registers for the boundary; a drain that
times out has what the partition had accepted answered and ends; a partition in which nothing is outstanding any more,
or whose drain has ended, has its domains reset and reaches step 6. Which packets a fenced partition had accepted is
the model's reading (log entry 46) (R381, R383, R388). -/
def Obligations.PartitionResets : Prop := ∀ (s : State) (mask p : Nat),
  (∀ replay : Bool, Reached s .RST_PART_CTRL 0 → exec (.partitionResetRequest mask replay) s
      = .next (s.putRwt .RST_PART_CTRL 0 (some (BitVec.ofNat 64 (mask % 2 ^ 12 + 2 ^ 12 * replay.toNat)))))
  ∧ (Reached s .RST_CX_CTRL 0 → exec (.contextReset mask) s
      = .next (s.putRwt .RST_CX_CTRL 0 (some (BitVec.ofNat 64 (mask % 2 ^ 16)))))
  ∧ (p < 12 → s.fon FNC_PART_STATUS.DRAINING p = true → exec (.fenceTimeout p) s
      = .next ((({ s with fabric := { s.fabric with
          writes := s.fabric.writes.map fun w => if s.writesTo p w then { w with bad := true } else w } } : State).fadd FNC_PART_STATUS.ANSWERED p
            ((s.fabric.writes.countP fun w => !w.bad && s.writesTo p w) + (s.waitAt p).length)).fset FNC_PART_STATUS.DRAINING p 0))
  ∧ (∀ r, p < 12 → s.partReset p = some r → r.ready = false → s.dieReset (dieOfPart p) = false →
    s.fon FNC_PART_STATUS.DRAINING p = false ∨ s.outstanding p = false → exec (.fenceDrainEnd p) s = .next ((((s.fset FNC_PART_STATUS.DRAINING p 0).resetDomains p).fset RST_PART_STATUS.STEP p
      6).setPartReset p (some { r with ready := true })))

/-- Resets of a die and of the package, and the loss of power: what each takes down and what power-on starts; DRAM
without its rail holds nothing; a critical field sensor or a regulator fault trips the package, and no other sensor
does. What the spec leaves open of these resets and of power-on is the model's choice (log entries 6, 43, 50 and 73)
(R360, R376, R389, R390, R392, R450, R453, R454, R455, R456). -/
def Obligations.DieAndPackageResets : Prop := ∀ (s : State) (d : Nat), d < 4 →
  (Reached s .RST_DIE_CTRL 0 →
    (s.dieReset d = false → exec (.diePlatformReset d) s
      = .next ((((if d = 0 then s.dieZeroDown else s.dieDown d).fset RST_STATUS.LAST_DIE 0 d).fset RST_STATUS.DIE_RESET 0
        1).settleAll))
    ∧ (s.dieReset d = true → exec (.diePlatformReset d) s = .next (s.finc RST_STATUS.IGNORED 0).settleAll))
  ∧ (s.dieReset d = true → d ≠ 0 → exec (.dieResetComplete d) s = .next (s.dieUp d).settleAll)
  ∧ (s.dieReset 0 = true → exec (.dieResetComplete 0) s = .next (((s.setRecovery { s.recovery with
      dies := mput noBool s.recovery.dies 0 false }).setDomain (domPlat 0) .on).rebase.startTime).settleAll)
  ∧ (Reached s .RST_PKG_CTRL 0 → exec .packageColdReset s
    = .next (s.forEach nat12 fun p s => s.memStop p).loseAllButAon.bootPower)
  ∧ (exec .powerDown s = .next (s.unpowered.setDomain domAon .off))
  ∧ (let t := ((s.unpowered.setDomain domAon .on).bootPower.bootNose.drawChallenge).syncOwner
    exec .powerOnReset s = .next (t.fset LIC_STATE.PENDING 0 (mget noEnv t.security.pendingSlot 4).isSome.toNat))
  ∧ (exec .dramRailLoss s = .next (s.setMem { s.memory with
      bytes := []
      poison := []
      fault := mputs noFault s.memory.fault ((List.range (12 * 32)).map fun k =>
        (k, (mget noFault s.memory.fault k).orElse fun _ => some .rail)) }))
  ∧ (∀ n, n < 96 → exec (.criticalTrip n) s = .next (s.criticalTrip .criticalTrip n))
  ∧ (∀ n, 96 ≤ n → n < 684 → exec (.criticalTrip n) s = .next s)
  ∧ (∀ n, n < 32 → s.fon NOS_STATUS.RUNNING 0 = true →
    exec (.regulatorFault n) s = .next (s.criticalTrip .regulatorFault n))

/-! ### Bring-up and security (18_bring_up.md, 19_security.md) -/

/-- A write of the next step to BRG_STEP while none runs shows BUSY and the step, runs its actions and holds its
outcome; one out of order is refused with its code. A step that ends shows DONE, its code and its times; one that
failed makes a fatal record and may be tried again, one that did not is the step that bring-up has done. That a step's
actions happen as it starts is the model's choice (log entry 48) (R394, R395, R396, R397, R398, R399, R405). -/
def Obligations.BringUpSteps : Prop :=
  (∀ (s : State) (ok rebuild : Bool) (fuses : FuseRead) (l : Training) (m : List Nat)
    (u : List UnitFailure), Reached s .BRG_STEP 0 →
    s.bringUp.running = none → s.mayRetry = true →
    let begun := fun n => let t := ((s.fset BRG_STATUS.BUSY 0 1).fset BRG_STATUS.STEP 0 n).fset BRG_STATUS.CODE 0 0
      if n = 1 then t.fset BRG_TOTAL.TOTAL 0 0 else t
    let ran := fun (n : Nat) (r : StepOutcome × State) =>
      r.2.setBringUp { r.2.bringUp with running := some (n, r.1.code, r.1.notes, r.1.budget) }
    (s.bringUp.done = 0 → exec .brgStepFirmware s = .next (ran 1 (stepFirmware (begun 1))))
    ∧ (s.bringUp.done = 1 →
      (exec (.brgStepFuses rebuild fuses) s = .next (ran 2 (stepFuses rebuild fuses (begun 2))))
      ∧ (exec .ledgerRebuild s = .next (ran 2 (stepFuses true ⟨true, []⟩ (begun 2)))))
    ∧ (s.bringUp.done = 2 → exec (.brgStepPower ok) s = .next (ran 3 (stepPower ok (begun 3))))
    ∧ (s.bringUp.done = 3 → exec (.brgStepLock ok) s = .next (ran 4 (stepLock ok (begun 4))))
    ∧ (s.bringUp.done = 4 →
      (exec (.brgStepTrain l) s = .next (ran 5 (stepTrain l (begun 5))))
      ∧ (exec (.brgStepRestore m l) s = .next (ran 5 (stepRestore m l (begun 5)))))
    ∧ (s.bringUp.done = 5 → u.all UnitFailure.ok = true →
      exec (.brgStepVaultTest u) s = .next (ran 6 (stepVaultTest u (begun 6))))
    ∧ (s.bringUp.done = 6 → exec .brgStepPlace s = .next (ran 7 (stepPlace (begun 7))))
    ∧ (s.bringUp.done = 7 → exec .brgStepFabric s = .next (ran 8 (stepFabric (begun 8))))
    ∧ (s.bringUp.done = 8 → exec .brgStepReady s = .next (ran 9 (⟨0, 0, 5⟩, begun 9)))
    ∧ (s.bringUp.done ≠ 0 → exec .brgStepFirmware s = .next (s.fset BRG_STATUS.CODE 0 brgOrder)))
  ∧ (∀ (s : State) (us n code notes budget : Nat),
    s.bringUp.running = some (n, code, notes, budget) →
    let t := (((s.fset BRG_STATUS.BUSY 0 0).fset BRG_STATUS.DONE 0 1).fset BRG_STATUS.CODE 0 code)
    let t := (t.fset BRG_TIME.BUDGET 0 budget).fset BRG_TIME.ELAPSED 0 (min 65535 (us / 1000))
    let t := (t.fset BRG_TOTAL.TOTAL 0 ((t.fget BRG_TOTAL.TOTAL 0 + us) % 2 ^ 32)).addNotes
      (notes ||| if 1000 * budget < us then noteOver else 0)
    (code = 0 → exec (.bringUpStepEnd us) s
        = .next ((t.setBringUp { t.bringUp with running := none, done := n, failures := 0, failCode := 0 }).stepDone n))
    ∧ (code ≠ 0 → exec (.bringUpStepEnd us) s = .next ((t.setBringUp { t.bringUp with
        running := none
        failures := if code = brgLedger ∨ code = brgThermal then t.bringUp.failures else t.bringUp.failures + 1
        failCode := code }).report sevFatal blkBRG code 0xFFFF none [])))

/-- The security engine: GO starts a command with the envelope that the registers name, and while one runs shows
SEC_BUSY and changes nothing else; an envelope that passes its checks is applied and ends with code 0, one whose write
to flash fails, or that is longer than its slot (log entry 82), ends with 0x0B, one that fails a check ends with that
check's code; a command that carried the challenge has a new one drawn, one for this device without it ends with 0x05;
a malformed envelope ends with 0x03, one that cannot be fetched with 0x02. A command row that no GO came before stands
for its GO and its end (the model's choice, log entry 77) (R409, R410, R412, R413, R416, R417, R418, R425). -/
def Obligations.SecurityCommands : Prop := ∀ (s : State), s.secServes = true ∨ s.security.command.isSome = true →
  let e := s.submitted
  let drawn := fun (t : State) => if s.carries e then t.drawChallenge else t
  let ends := fun (kind : Nat) (apply : Env → State → State) (written : Bool) =>
    drawn (match s.envRefusal true e with
      | some code => s.secEnd (e.kind % 16) code
      | none => if written && e.fits then (apply e s).secEnd kind 0 else s.secEnd kind 0x0B)
  (∀ w,
    (e.badFormat = true ∨ e.kind = 1 → exec (.platformFirmware true w) s = .next (ends 1 State.storePending w))
    ∧ (e.badFormat = true ∨ e.kind = 2 → exec (.noseFirmware true w) s = .next (ends 2 State.storePending w))
    ∧ (e.badFormat = true ∨ e.kind = 3 → exec (.scanPatterns true w) s = .next (ends 3 State.storePending w))
    ∧ (e.badFormat = true ∨ e.kind = 4 → exec (.licence true w) s = .next (ends 4 State.storeLicence w))
    ∧ (e.badFormat = true ∨ e.kind = 5 → exec (.ownerKey true w) s = .next (ends 5 State.storeOwner w))
    ∧ (e.badFormat = true ∨ e.kind = 6 → exec (.policy true w) s = .next (ends 6 State.storePolicy w))
    ∧ (e.badFormat = true ∨ e.kind = 7 → exec (.lifeCycleToken true w) s = .next (ends 7 State.transition w))
    ∧ (exec (.licence false w) s = .next (s.secEnd 0 0x02)))
  ∧ (e.badFormat = true ∨ e.kind = 8 → exec (.unlockToken true) s = .next (ends 8 State.unlock true))
  ∧ (e.badFormat = true → s.envRefusal true e = some 0x03)
  ∧ (e.badFormat = false → e.deviceId = s.deviceId → 5 ≤ e.kind → s.carries e = false → s.envRefusal true e = some 0x05)
  ∧ (s.secServes = true →
    (s.security.command.isSome = true → exec (.registerWrite 0x4014 4 1) s = .next (s.fset SEC_CMD_STATUS.CODE 0 0x01))
    ∧ (s.security.command = none → exec (.registerWrite 0x4014 4 1) s = .next ((s.setSec { s.security with
        command := some (s.fget SEC_CMD_ADDR.ADDR 0 * 64, s.fget SEC_CMD_LEN.LENGTH 0) }).fset SEC_CMD_STATUS.BUSY 0 1)))

/-- A report is signed while the key is ready and waits while it is not, and is answered that the epochs are used up
or the key's state failed; the public key, once the part has one, and the log are answered; while a KIND 7 command
runs every request is answered ATT_BUSY. A bottom tree that is ready takes the next leaf of the top tree, written
twice before it is used, or shows that none is left; entropy that fails answers what waits, and its recovery clears
the flag and draws a challenge that was due; an unlock closes what it opened once its seconds have passed. The STATUS
that a part without a key answers is a free value (log entry 7) (R412, R419, R420, R421, R422, R424, R427). -/
def Obligations.Attestation : Prop :=
  (∀ (s : State) (src : Requester) (xid : Nat) (nonce : List Byte), src.ok = true →
    admits s src = true →
    let t := counted s src
    (t.lifeCommand = true →
      (exec (.attestReport nonce ⟨src, xid⟩) s = .next (t.attAnswer src xid 1 []))
      ∧ (exec (.attestPublicKey ⟨src, xid⟩) s = .next (t.attAnswer src xid 1 []))
      ∧ (exec (.attestLog ⟨src, xid⟩) s = .next (t.attAnswer src xid 1 [])))
    ∧ (t.lifeCommand = false →
      (nonce.length = 32 →
        (t.fon SEC_STATUS.KEY_EXHAUSTED 0 = true → exec (.attestReport nonce ⟨src, xid⟩) s = .next (t.attAnswer src xid 2 []))
        ∧ (t.fon SEC_STATUS.KEY_EXHAUSTED 0 = false →
          (t.fon SEC_STATUS.KEY_STATE_FAIL 0 = true → exec (.attestReport nonce ⟨src, xid⟩) s = .next (t.attAnswer src xid 3 []))
          ∧ (t.fon SEC_STATUS.KEY_STATE_FAIL 0 = false →
            (t.fon SEC_STATUS.KEY_READY 0 = true → exec (.attestReport nonce ⟨src, xid⟩) s
              = .next ((t.signReport nonce).2.attAnswer src xid 0 (t.signReport nonce).1))
            ∧ (t.fon SEC_STATUS.KEY_READY 0 = false → exec (.attestReport nonce ⟨src, xid⟩) s
              = .next (t.setSec { t.security with waiting := t.security.waiting ++ [⟨1, nonce, src, xid⟩] })))))
      ∧ (t.security.keyMade = true →
        exec (.attestPublicKey ⟨src, xid⟩) s = .next (t.attAnswer src xid 0 (t.deviceId ++ t.identityBytes)))
      ∧ (t.security.keyMade = false →
        exec (.attestPublicKey ⟨src, xid⟩) s = .next (t.attAnswer src xid Config.noKeyStatus.toNat []))
      ∧ (exec (.attestLog ⟨src, xid⟩) s = .next (t.attAnswer src xid 0
          (t.security.log.flatMap fun e => leBytes 4 e.1 ++ leBytes 4 e.2.1 ++ leBytes 8 e.2.2.1 ++ e.2.2.2)))))
  ∧ (∀ (s : State),
    (∀ n F, s.fon SEC_STATUS.KEY_READY 0 = false → s.fon SEC_STATUS.KEY_EXHAUSTED 0 = false →
      s.fon SEC_STATUS.KEY_STATE_FAIL 0 = false → s.unhealthy = false → s.security.keyMade = true →
      nextLeaf s.security.keyCopies (s.fget ATT_EPOCH.EPOCHS 0) = some (n, F) →
      let t := s.fset ATT_EPOCH.EPOCHS 0 F
      (exec (.bottomTreeReady true) s = .next ((((t.setSec { t.security with keyCopies := [some (n + 1), some (n + 1)] }).fset
        ATT_KEY.TOP_LEAF 0 n).fset ATT_KEY.BOTTOM_USED 0 0).fset SEC_STATUS.KEY_READY 0 1).answerWaiting)
      ∧ (exec (.bottomTreeReady false) s = .next (t.fset SEC_STATUS.KEY_STATE_FAIL 0 1).answerWaiting))
    ∧ (exec .entropyHealthFail s = .next ((s.fset SEC_STATUS.ENTROPY_FAIL 0 1).fset SEC_STATUS.ENTROPY_DEGRADED 0 1))
    ∧ (s.unhealthy = true →
      let t := (s.setSec { s.security with startTest := false }).fset SEC_STATUS.ENTROPY_FAIL 0 0
      (s.security.challengeDue = false → exec .entropyHealthPass s = .next t)
      ∧ (s.security.challengeDue = true → exec .entropyHealthPass s = .next t.drawChallenge)
      ∧ (∀ r rest, s.security.waiting = r :: rest → exec .attEntropy s
        = .next ((s.setSec { s.security with waiting := rest }).attAnswer r.source r.xid 4 [])))
    ∧ (s.unlocked = true → exec .unlockExpire s = .next s)
    ∧ (s.security.unlockEnd.isSome = true → s.unlocked = false → exec .unlockExpire s = .next (((s.setSec { s.security with unlockEnd := none }).fset
        LCS_STATE.UNLOCKED 0 0).fset LCS_STATE.UNLOCK_LEFT 0 0)))

/-! ### The Nose, registers and the tally (20_nose_and_management.md, 00_scope.md, 02_tally.md, 21_address_map.md) -/

/-- Sensors and error records: a sample joins the last eight of its sensor and the power request is found anew; a
request that has been quiet for 10 s is withdrawn; a sensor whose source is off has no sample; a record takes the next
number of the log, reaches every valid collector, the error ring and MCTP, and may trigger a snapshot; a record not
acknowledged is sent again (log entries 52 and 78) (R347, R428, R429, R430, R432, R433, R438). -/
def Obligations.SensorsAndRecords : Prop := ∀ (s : State),
  (∀ i x, i < 684 →
    let t := if 108 ≤ i ∧ i < 120 ∧ s.up (domArr (i - 108)) then s.monitor (i - 108) (x / 1000).toNat else s
    (t.fon NOS_STATUS.RUNNING 0 = true → ∀ y, t.sampleOf i (some x) = some y →
      let u := t.seeDroops i
      exec (.sensorSample i (some x)) s = .next (u.setNose { u.nose with
        absent := mput noBool u.nose.absent i false
        samples := mput (fun _ => []) u.nose.samples i ((y :: mget (fun _ => []) u.nose.samples i).take 8) }).findRequest)
    ∧ (t.fon NOS_STATUS.RUNNING 0 = false → exec (.sensorSample i (some x)) s = .next t))
  ∧ (∀ i, i < 684 → s.fon NOS_STATUS.RUNNING 0 = true → s.sampleOf i none = none →
      let u := s.seeDroops i
      exec (.sensorSample i none) s = .next (u.setNose { u.nose with
        absent := mput noBool u.nose.absent i true
        samples := mput (fun _ => []) u.nose.samples i [] }).findRequest)
  ∧ (∀ i x, (i < 96 ∨ 108 ≤ i) → i < 300 → s.sensorOn i = true → s.sampleOf i x = x)
  ∧ (∀ i x, s.sensorOn i = false → s.sampleOf i x = none)
  ∧ (∀ i x, 300 ≤ i → s.sensorOn i = true → s.sampleOf i x = some (s.fget MEM_CH_STATE.TEMP (i - 300) : Int))
  ∧ (∀ p x, p < 12 → s.up (domPlat (dieOfPart p)) = true →
      mget zeroNat s.nose.droops p ≤ s.fget DRP_COUNT.COUNT p →
      s.sampleOf (96 + p) x = some ((s.fget DRP_COUNT.COUNT p - mget zeroNat s.nose.droops p : Nat) : Int))
  ∧ (s.fon NOS_STATUS.RUNNING 0 = true → s.up (domPlat 0) = true → (s.nose.conditions.any fun e => e.2) = false →
    (∀ t, s.nose.lastCondition = some t → t + 10 ^ 9 ≤ s.tally.time) → s.fget PWR_REQUEST.REASON 0 ≠ 0 →
    exec .requestClear s = .next (s.setRequest 0 0))
  ∧ (∀ e : ErrorRecord, e.ok = true → s.fon NOS_STATUS.MINIMAL 0 = false → s.nose.log.length < 4096 →
    let seq := s.fget NOS_LOG.NEXT_SEQ 0
    let r : Record := { injected := e.injected, severity := e.severity, block := e.block, code := e.code, seq := seq,
                        tally := s.tally.count, time := s.tally.time, inst := e.inst, cx := e.cx, count := 1,
                        detail := e.detail }
    let t := s.fset NOS_LOG.NEXT_SEQ 0 (seq + 1)
    let t := { t with nose := { t.nose with log := t.nose.log ++ [r] } }
    let t := if t.aiharOn then t.forEach t.collectors fun k u => u.sendDatagram (u.collectorAddr k) 9 0 seq 0 (r.toBytes false)
      else t
    let t := (t.emit (.mctpInterrupt seq)).toErrorRing r
    exec (.errorRecord e) s = .next
      (if t.fon SNP_CTRL.ERROR_ENABLE 0 && t.fget SNP_CTRL.MIN_SEVERITY 0 ≤ e.severity then t.localTrigger 3 else t))
  ∧ (∀ k seq r, k < 2 → (s.nose.log.find? fun r => r.seq == seq) = some r → s.collectors.contains k = true →
    s.aiharOn = true → s.ackedBy k seq = false → s.fon NOS_STATUS.RUNNING 0 = true →
    exec (.recordResend k seq) s = .next (s.emit (.aihar (s.collectorAddr k) (s.fget MGT_CTRL.PORT 0)
      (s.datagram 9 0 seq 0 (r.toBytes false)))))

/-- STATUS answers the status registers; SENSORS and RECORDS answer what they name or that the range is wrong; an
acknowledgement takes records off the log once every valid collector has sent one; SNAPSHOT_TRIGGER, which is refused
while PD_PLAT0 is down, and SNAPSHOT_READ; an acknowledgement from MCTP names no collector (log entry 53). While the
link is up and the firmware runs, whole ARP, ICMP echo and neighbour solicitation frames for an address the port has
are answered, with ALLOW_ONLY those of a collector alone; the derivation of the link-local address is PRESUMED (log
entry 78); a datagram that arrives whole at MGT_CTRL.PORT is an Aihar request, and any other is dropped; the link
shows in MGT_CTRL; the host triggers and releases a snapshot (R431, R433, R434, R435, R436, R437, R438, R439, R440).
-/
def Obligations.ManagementOperations : Prop :=
  (∀ (s : State) (src : Requester) (xid : Nat), src.ok = true → src ≠ .doe →
    admits s src = true →
    let t := counted s src
    (exec (.status src xid) s = .next (t.reply src 0x01 ansOk xid
      ([Reg.LCS_STATE, .BRG_STATUS, .PWR_MEASURE, .PWR_REQUEST, .NOS_STATUS, .MEM_SUMMARY, .FAB_STATUS].flatMap t.regBytes)))
    ∧ (s.fon NOS_STATUS.MINIMAL 0 = false →
      (∀ a n, n ≤ 256 → a + n ≤ 684 → exec (.sensors src xid a n) s = .next (t.reply src 0x02 ansOk xid
        ((List.range n).flatMap fun i => leBytes 4 (t.sensorWord (a + i)).toNat)))
      ∧ (∀ a n, 256 < n ∨ 684 < a + n → exec (.sensors src xid a n) s = .next (t.reply src 0x02 ansRange xid []))
      ∧ (∀ a n, n ≤ 20 → exec (.records src xid a n) s = .next (t.reply src 0x03 ansOk xid
        (((t.nose.log.filter fun r => decide (a ≤ r.seq)).take n).flatMap fun r => r.toBytes false)))
      ∧ (∀ a n, 20 < n → exec (.records src xid a n) s = .next (t.reply src 0x03 ansRange xid []))
      ∧ (∀ seq, src = .mctp → exec (.aiharAck src xid seq) s = .next ((t.setNose { t.nose with
        log := t.nose.log.filter fun r => t.collectors.isEmpty || !(t.collectors.all fun k => t.ackedBy k r.seq) }).reply src
          0x04 ansOk xid []))
      ∧ (∀ a seq k, src = .aihar a → (t.collectors.filter fun k => t.collectorAddr k == a) = [k] →
        let u := t.setNose { t.nose with acked := mput noSeq t.nose.acked k (some (max seq ((mget noSeq t.nose.acked k).getD 0))) }
        exec (.aiharAck src xid seq) s = .next ((u.setNose { u.nose with
          log := u.nose.log.filter fun r => u.collectors.isEmpty || !(u.collectors.all fun k => u.ackedBy k r.seq) }).reply src
            0x04 ansOk xid []))
      ∧ (t.up (domPlat 0) = true → exec (.snapshotTrigger src xid) s = .next ((t.localTrigger 2).reply src 0x06 ansOk xid []))
      ∧ (t.up (domPlat 0) = false → exec (.snapshotTrigger src xid) s = .next (t.reply src 0x06 ansRefused xid []))
      ∧ (∀ off n, off + n ≤ snapshotSpace →
        exec (.snapshotRead src xid off n) s = .next (t.reply src 0x07 ansOk xid (t.snapshotBytes off n)))
      ∧ (∀ off n, snapshotSpace < off + n →
        exec (.snapshotRead src xid off n) s = .next (t.reply src 0x07 ansRange xid []))))
  ∧ (∀ (s : State),
    (∀ f : MgtFrame, s.frameTaken f = true ↔ s.fon MGT_CTRL.LINK 0 = true ∧ s.fon NOS_STATUS.RUNNING 0 = true
      ∧ f.fragment = false ∧ f.length ≤ (if f.tagged then 1522 else 1518)
      ∧ (s.fon MGT_CTRL.ALLOW_ONLY 0 = true → ∃ k ∈ s.collectors, s.collectorAddr k = f.source))
    ∧ (∀ f : MgtFrame, f.ok = true → s.frameTaken f = true →
      (f.target ≠ 0 → f.target = s.fget MGT_IPV4.ADDR 0 →
        exec (.arpRequest f) s = .next (s.emit (.ethernet (leBytes 4 f.target ++ leBytes 6 Config.mac.toNat))))
      ∧ (∀ b, s.ownAddress f.ipv6 f.target = true → exec (.icmpEcho f b) s = .next (s.emit (.ethernet b)))
      ∧ (f.target = linkLocal ∨ (f.target = s.ipv6 ∧ f.target ≠ 0) →
        exec (.neighborSolicitation f) s = .next (s.emit (.ethernet (leBytes 16 f.target ++ leBytes 6 Config.mac.toNat)))))
    ∧ (∀ f b, f.ok = true → s.frameTaken f = false ∨ s.ownAddress f.ipv6 f.target = false → exec (.icmpEcho f b) s = .next s)
    ∧ (∀ a port whole xid, a < 2 ^ 128 → port < 65536 →
      (whole = true → port = s.fget MGT_CTRL.PORT 0 → exec (.status (.udp a port whole) xid) s = exec (.status (.aihar a) xid) s)
      ∧ (whole = false ∨ port ≠ s.fget MGT_CTRL.PORT 0 → exec (.status (.udp a port whole) xid) s = .next s))
    ∧ (exec .sgmiiLinkUp s = .next (s.fset MGT_CTRL.LINK 0 1))
    ∧ (exec .sgmiiLinkDown s = .next (s.fset MGT_CTRL.LINK 0 0))
    ∧ (Reached s .SNP_CTRL 0 → exec .snapshotHostTrigger s = .next (s.localTrigger 1))
    ∧ (Reached s .SNP_RELEASE 0 → exec .snapshotRelease s
        = .next ((s.setNose { s.nose with snapshot := none }).fset SNP_STATUS.FULL 0 0)))

/-- A register write of a legal size at an aligned address takes effect on the register found there; one at no
register is unsupported and counted; a register packet to a cluster reaches that cluster's registers, and a read is
answered with the word; an access to a cluster that is being moved waits for the move; SET_CONFIG writes a management
register and is answered, or that there is none at its offset, with a free OP (log entry 7). A write of MEM_THRESH
changes its RW fields alone, and a write of 1 clears a W1C bit of DRP_COUNT (R6, R7, R9, R12, R331, R437, R444). -/
def Obligations.RegisterAccess : Prop :=
  (∀ (s : State) (addr size v : Nat),
    (∀ r i upper, aligned addr size = true → s.movingAt addr = false → inMsix addr = false → inPba addr = false →
    bar0Reg addr = some (r, i, upper) →
      sizeFits r upper size = true → Reached s r i →
      exec (.registerWrite addr size v) s = .next (s.putWord r i upper size v))
    ∧ (s.barsOn = true → s.up (domPlat 0) = true → aligned addr size = true → s.movingAt addr = false → inMsix addr = false →
      inPba addr = false → bar0Reg addr = none → exec (.registerWrite addr size v) s = .next (s.finc PCI_ACCESS_ERR.UR 0))
    ∧ (s.barsOn = true → s.up (domPlat 0) = true → aligned addr size = true → s.movingAt addr = false → inMsix addr = true →
      exec (.registerWrite addr size v) s = .next (s.msixWrite (addr - msixTable) size v))
    ∧ (∀ L off r i upper, L < 288 → off < 0x4000 → aligned (clusterAddr L off) size = true → inMsix (clusterAddr L off) = false →
      inPba (clusterAddr L off) = false → bar0Reg (clusterAddr L off) = some (r, i, upper) → sizeFits r upper size = true →
      Reached s r i → (s.cl L).moving = false → exec (.reg L off size ⟨some v, none⟩) s = .next (s.putWord r i upper size v))
    ∧ (∀ L off w, L < 288 → off < 0x4000 → s.barsOn = true → s.up (domPlat 0) = true → aligned (clusterAddr L off) size = true →
      (s.cl L).moving = true →
      exec (.reg L off size ⟨w, none⟩) s = .next (s.updCl L fun k => { k with accesses := k.accesses ++ [(off, size, w)] }))
    ∧ (∀ L off r i upper, L < 288 → off < 0x4000 → s.barsOn = true → s.up (domPlat 0) = true → aligned off size = true →
      bar0Reg (clusterAddr L off) = some (r, i, upper) → sizeFits r upper size = true → s.unplacedReg r i = false →
      s.served r i false = true → (s.cl L).moving = false → r ≠ .MXC_AUDIT_TALLY →
      exec (.reg L off size ⟨none, none⟩) s = .next (s.emit (.readData (s.readWord r i upper size) rdOk)))
    ∧ (∀ xid, s.fon NOS_STATUS.RUNNING 0 = true → s.fon NOS_STATUS.MINIMAL 0 = false →
      (∀ r i upper, mgtReg addr = some (r, i, upper) → exec (.setConfig ⟨xid, addr⟩ v) s
        = .next ((s.putWord r i upper 4 v).reply .mctp Config.setConfigOp.toNat ansOk xid []))
      ∧ (mgtReg addr = none → exec (.setConfig ⟨xid, addr⟩ v) s = .next (s.reply .mctp Config.setConfigOp.toNat ansRange xid []))))
  ∧ (∀ (s : State) (v : Nat),
    (∀ i, s.putWord .MEM_THRESH i false 4 v = s.rset .MEM_THRESH i
        ((s.rget .MEM_THRESH i &&& ~~~(Reg.mask .MEM_THRESH .RW)) ||| ((BitVec.ofNat 32 v).setWidth 64 &&& Reg.mask .MEM_THRESH .RW)))
    ∧ (∀ i, s.putWord .DRP_COUNT i false 4 v = s.rset .DRP_COUNT i
        (s.rget .DRP_COUNT i &&& ~~~((BitVec.ofNat 32 v).setWidth 64 &&& Reg.mask .DRP_COUNT .W1C))))

/-- A pulse or a cell of its source places a Follower's next edge and shows the error; a tally cell brings number and
period for the next boundary; a Follower that has missed its source's edges is LOST, with an error record and its
waiting circuit cells discarded, until the host clears it (log entry 60). At the boundary of a tally TLY_COUNT goes on
by one where no load is pending, and once bring-up is ready the steps act in order, from the latch of counters to the
release of the clusters that start in it; before that only the steps of R393 act (R27, R29, R30, R33, R40, R41, R42,
R322, R393). -/
def Obligations.TimeBase : Prop :=
  (∀ (s : State),
    (∀ a, s.up (domPlat 0) = true → s.up (domFab 0) = true → s.role = 2 → exec (.tallyInPulse a) s
      = .next (s.takeSource ((a : Int) - (s.fget TLY_IN_DELAY.DELAY 0 : Int)) s.period))
    ∧ (∀ n c (a : Nat), n < 24 → c.ok = true → let t := s.takeCell n c
      t.up (domPlat 0) = true → t.role = 3 → t.fget TLY_SYNC.SOURCE_PORT 0 = n → c.kind = 6 →
      let src := (a : Int) - (t.fget FAB_PORT_DELAY.DELAY n : Int)
      let u := t.takeSource src (periodOfCell c)
      let number := if t.tally.acquired = false ∨ t.tally.nearest src = t.tally.edge then tallyOfCell c + 1 else tallyOfCell c
      exec (.tallyCell n c a) s
        = .next (u.setTally { u.tally with cellTally := some (number % 2 ^ 64, periodOfCell c) }))
    ∧ (s.up (domPlat 0) = true → 2 ≤ s.role → s.fget TLY_HOLDOVER.LIMIT 0 ≤ s.tally.missed → 1 ≤ s.tally.missed →
      s.fon TLY_STATUS.LOST 0 = false → exec .lost s
        = .next (((s.fset TLY_STATUS.LOST 0 1).dropCircuits).report sevError blkTLY Uncoded.lost.code 0xFFFF none []))
    ∧ (Reached s .TLY_STATUS 0 → exec .lostClear s = .next (s.fset TLY_STATUS.LOST 0 0)))
  ∧ (∀ (s : State), s.up (domPlat 0) = true →
    let pre := s.ending.gains.summaries
    let opened := pre.openTally
    let closed := ((opened.latch s.tally.count).holdover).closeRecords
    (opened.tally.edge = pre.tally.nextEdge ∧ opened.tally.time = pre.tally.nextEdge
      ∧ (pre.role ≠ 3 → (pre.takeRwt .TLY_COUNT_LOAD 0).1 = none → opened.tally.count = (pre.tally.count + 1) % 2 ^ 64))
    ∧ (closed.ready = true → 4 ≤ closed.step3.step4.step5.sendTally.bringUp.done →
      closed.step3.step4.step5.sendTally.powerStep.ready = true →
      exec .tallyEdge s = .next
        closed.step3.step4.step5.sendTally.powerStep.step7.step8.step9.testStep.step11.step12.step13.opened)
    ∧ (closed.ready = false → closed.step5.sendTally.bringUp.done < 4 → closed.step5.sendTally.ready = false →
      exec .tallyEdge s = .next closed.step5.sendTally.opened))

end
end

