-- ==== Sys2Proof/Laws/Maps.lean ====
section
/-! SUPPORT. Laws of the sparse maps: a read after a write, and the canonical form that every operation keeps. -/
namespace Sys2Proof.Machine

variable {α : Type} [DecidableEq α]

omit [DecidableEq α] in
@[simp] theorem mget_nil (d : Nat → α) (k : Nat) : mget d [] k = d k := rfl

omit [DecidableEq α] in
theorem mget_cons (d : Nat → α) (j k : Nat) (v : α) (t : NMap α) :
    mget d ((j, v) :: t) k = if k = j then v else mget d t k := rfl

@[simp] theorem mwf_nil (d : Nat → α) : mwf d ([] : NMap α) = true := rfl

theorem mwf_cons {d : Nat → α} {j : Nat} {v : α} {t : NMap α} :
    mwf d ((j, v) :: t) = true ↔ mabove j t = true ∧ v ≠ d j ∧ mwf d t = true := by
  simp [mwf, and_assoc]

/-- What lies above `k` does not hold `k`. -/
theorem mget_above {d : Nat → α} {m : NMap α} {k : Nat} (w : mwf d m = true) (h : mabove k m = true) : mget d m k = d k := by
  induction m generalizing k with
  | nil => rfl
  | cons e t ih =>
    obtain ⟨j, v⟩ := e
    obtain ⟨hj, -, wt⟩ := mwf_cons.1 w
    have hk : k < j := by simpa [mabove] using h
    rw [mget_cons, if_neg (by omega)]
    cases t with
    | nil => rfl
    | cons e' t' => exact ih wt (by simp only [mabove, decide_eq_true_eq] at hj ⊢; omega)

theorem mget_mcons_same {d : Nat → α} {m : NMap α} {k : Nat} {v : α} (w : mwf d m = true) (h : mabove k m = true) :
    mget d (mcons d k v m) k = v := by
  unfold mcons
  split
  · next e => rw [mget_above w h, e]
  · simp [mget_cons]

theorem mget_mcons_other {d : Nat → α} {m : NMap α} {j k : Nat} {v : α} (h : k ≠ j) :
    mget d (mcons d j v m) k = mget d m k := by
  unfold mcons
  split
  · rfl
  · rw [mget_cons, if_neg h]

theorem mwf_mcons {d : Nat → α} {m : NMap α} {k : Nat} {v : α} (w : mwf d m = true) (h : mabove k m = true) :
    mwf d (mcons d k v m) = true := by
  unfold mcons
  split
  · exact w
  · next e => exact mwf_cons.2 ⟨h, e, w⟩

omit [DecidableEq α] in
theorem mabove_mono {m : NMap α} {j k : Nat} (h : mabove k m = true) (hj : j ≤ k) : mabove j m = true := by
  cases m with
  | nil => rfl
  | cons e t => simp only [mabove, decide_eq_true_eq] at h ⊢; omega

theorem mabove_mcons {d : Nat → α} {m : NMap α} {j k : Nat} {v : α} (hk : j < k) (h : mabove j m = true) :
    mabove j (mcons d k v m) = true := by
  unfold mcons
  split
  · exact h
  · simpa [mabove] using hk

theorem mabove_mput {d : Nat → α} {m : NMap α} {j k : Nat} {v : α} (hk : j < k) (w : mwf d m = true) (h : mabove j m = true) :
    mabove j (mput d m k v) = true := by
  cases m with
  | nil => exact mabove_mcons hk rfl
  | cons e t =>
    obtain ⟨i, x⟩ := e
    have hi : j < i := by simpa [mabove] using h
    unfold mput
    split
    · exact mabove_mcons hk h
    · split
      · exact mabove_mcons hk (mabove_mono (mwf_cons.1 w).1 (by omega))
      · simpa [mabove] using hi

/-- A write keeps the canonical form. -/
theorem mwf_mput {d : Nat → α} {m : NMap α} (k : Nat) (v : α) (w : mwf d m = true) : mwf d (mput d m k v) = true := by
  induction m with
  | nil => exact mwf_mcons rfl rfl
  | cons e t ih =>
    obtain ⟨j, x⟩ := e
    obtain ⟨hj, hx, wt⟩ := mwf_cons.1 w
    unfold mput
    split
    · next h => exact mwf_mcons w (by simpa [mabove] using h)
    · split
      · next h => subst h; exact mwf_mcons wt hj
      · next h1 h2 => exact mwf_cons.2 ⟨mabove_mput (by omega) wt hj, hx, ih wt⟩

/-- A read after a write to the same key gives the value written. -/
theorem mget_mput_same {d : Nat → α} {m : NMap α} (k : Nat) (v : α) (w : mwf d m = true) : mget d (mput d m k v) k = v := by
  induction m with
  | nil => exact mget_mcons_same rfl rfl
  | cons e t ih =>
    obtain ⟨j, x⟩ := e
    obtain ⟨hj, -, wt⟩ := mwf_cons.1 w
    unfold mput
    split
    · next h => exact mget_mcons_same w (by simpa [mabove] using h)
    · split
      · next h => subst h; exact mget_mcons_same wt hj
      · next h1 h2 => rw [mget_cons, if_neg h2]; exact ih wt

/-- A value that differs from what the key reads as unlisted reads back in any map. -/
theorem mget_mput_ne {d : Nat → α} (m : NMap α) (k : Nat) {v : α} (h : v ≠ d k) : mget d (mput d m k v) k = v := by
  have hc : ∀ t, mget d (mcons d k v t) k = v := fun t => by simp [mcons, h, mget_cons]
  induction m with
  | nil => exact hc []
  | cons e t ih =>
    obtain ⟨j, x⟩ := e
    unfold mput
    split
    · exact hc _
    · split
      · exact hc _
      · next h2 => rw [mget_cons, if_neg h2]; exact ih

/-- A write leaves every other key alone, in any map. -/
theorem mget_mput_other {d : Nat → α} (m : NMap α) {j k : Nat} (v : α) (h : k ≠ j) : mget d (mput d m j v) k = mget d m k := by
  induction m with
  | nil => exact mget_mcons_other h
  | cons e t ih =>
    obtain ⟨i, x⟩ := e
    unfold mput
    split
    · exact mget_mcons_other h
    · split
      · next h2 => rw [mget_mcons_other h, mget_cons, if_neg (by omega)]
      · rw [mget_cons, mget_cons, ih]

theorem mwf_mputs {d : Nat → α} {m : NMap α} (l : List (Nat × α)) (w : mwf d m = true) : mwf d (mputs d m l) = true := by
  induction l generalizing m with
  | nil => exact w
  | cons e t ih => exact ih (mwf_mput e.1 e.2 w)

theorem mget_mputs_other {d : Nat → α} (m : NMap α) (l : List (Nat × α)) {k : Nat} (h : ∀ e ∈ l, e.1 ≠ k) :
    mget d (mputs d m l) k = mget d m k := by
  induction l generalizing m with
  | nil => rfl
  | cons e t ih =>
    rw [mputs, ih _ fun x hx => h x (List.mem_cons_of_mem _ hx), mget_mput_other _ _ (h e (List.mem_cons_self ..)).symm]

theorem mwf_mrun {d : Nat → α} {m : NMap α} (k : Nat) (l : List α) (w : mwf d m = true) : mwf d (mrun d m k l) = true := by
  induction l generalizing m k with
  | nil => exact w
  | cons v t ih => exact ih (k + 1) (mwf_mput k v w)

theorem mget_mrun_other {d : Nat → α} (m : NMap α) (k : Nat) (l : List α) {j : Nat} (h : j < k ∨ k + l.length ≤ j) :
    mget d (mrun d m k l) j = mget d m j := by
  induction l generalizing m k with
  | nil => rfl
  | cons v t ih =>
    simp only [List.length_cons] at h
    rw [mrun, ih _ _ (by omega), mget_mput_other _ _ (by omega)]

/-- A run reads back. -/
theorem mslice_mrun {d : Nat → α} {m : NMap α} (k : Nat) (l : List α) (w : mwf d m = true) :
    mslice d (mrun d m k l) k l.length = l := by
  induction l generalizing m k with
  | nil => rfl
  | cons v t ih =>
    rw [List.length_cons, mslice, mrun, ih (k + 1) (mwf_mput k v w),
      mget_mrun_other _ _ _ (by omega), mget_mput_same k v w]

theorem mabove_filter {m : NMap α} {k : Nat} {d : Nat → α} (p : Nat × α → Bool) (w : mwf d m = true) (h : mabove k m = true) :
    mabove k (m.filter p) = true := by
  induction m generalizing k with
  | nil => rfl
  | cons e t ih =>
    obtain ⟨j, v⟩ := e
    have hk : k < j := by simpa [mabove] using h
    rw [List.filter_cons]
    split
    · simpa [mabove] using hk
    · exact ih (mwf_cons.1 w).2.2 (mabove_mono (mwf_cons.1 w).1 (by omega))

/-- Keeping some keys keeps the canonical form. -/
theorem mwf_mkeep {d : Nat → α} {m : NMap α} (p : Nat → Bool) (w : mwf d m = true) : mwf d (mkeep p m) = true := by
  unfold mkeep
  induction m with
  | nil => rfl
  | cons e t ih =>
    obtain ⟨j, v⟩ := e
    obtain ⟨hj, hv, wt⟩ := mwf_cons.1 w
    rw [List.filter_cons]
    split
    · exact mwf_cons.2 ⟨mabove_filter _ wt hj, hv, ih wt⟩
    · exact ih wt

theorem mabove_mmap {m : NMap α} {k : Nat} {d : Nat → α} (f : α → α) (w : mwf d m = true) (h : mabove k m = true) :
    mabove k (mmap d f m) = true := by
  unfold mmap
  induction m generalizing k with
  | nil => rfl
  | cons e t ih =>
    obtain ⟨j, v⟩ := e
    have hk : k < j := by simpa [mabove] using h
    rw [List.map_cons, List.filter_cons]
    split
    · simpa [mabove] using hk
    · exact ih (mwf_cons.1 w).2.2 (mabove_mono (mwf_cons.1 w).1 (by omega))

/-- Changing every listed value keeps the canonical form. -/
theorem mwf_mmap {d : Nat → α} {m : NMap α} (f : α → α) (w : mwf d m = true) : mwf d (mmap d f m) = true := by
  induction m with
  | nil => rfl
  | cons e t ih =>
    obtain ⟨j, v⟩ := e
    obtain ⟨hj, -, wt⟩ := mwf_cons.1 w
    have ha := mabove_mmap f wt hj
    have hw := ih wt
    unfold mmap at ha hw ⊢
    rw [List.map_cons, List.filter_cons]
    split
    · next h => exact mwf_cons.2 ⟨ha, by simpa using h, hw⟩
    · exact hw

/-- Equal reads at every key make equal maps: the form is canonical. -/
theorem mwf_ext {d : Nat → α} {m n : NMap α} (hm : mwf d m = true) (hn : mwf d n = true)
    (h : ∀ k, mget d m k = mget d n k) : m = n := by
  induction m generalizing n with
  | nil =>
    cases n with
    | nil => rfl
    | cons e t =>
      obtain ⟨j, v⟩ := e
      have := h j
      rw [mget_cons, if_pos rfl, mget_nil] at this
      exact absurd this.symm (mwf_cons.1 hn).2.1
  | cons e t ih =>
    obtain ⟨i, x⟩ := e
    obtain ⟨hi, hx, wt⟩ := mwf_cons.1 hm
    cases n with
    | nil =>
      have := h i
      rw [mget_cons, if_pos rfl, mget_nil] at this
      exact absurd this hx
    | cons e' t' =>
      obtain ⟨j, y⟩ := e'
      obtain ⟨hj, hy, wt'⟩ := mwf_cons.1 hn
      have hij : i = j := by
        rcases Nat.lt_trichotomy i j with l | l | l
        · have := h i
          rw [mget_cons, if_pos rfl, mget_above hn (by simpa [mabove] using l)] at this
          exact absurd this hx
        · exact l
        · have := h j
          rw [mget_cons (j := j), if_pos rfl, mget_above hm (by simpa [mabove] using l)] at this
          exact absurd this.symm hy
      subst hij
      have hxy : x = y := by have := h i; rwa [mget_cons, mget_cons, if_pos rfl, if_pos rfl] at this
      subst hxy
      rw [ih wt wt' fun k => ?_]
      by_cases hk : k = i
      · subst hk; rw [mget_above wt hi, mget_above wt' hj]
      · have := h k; rwa [mget_cons, mget_cons, if_neg hk, if_neg hk] at this

end Sys2Proof.Machine
end

