-- ==== Sys2Proof/Laws/Reports.lean ====
section
/-! SUPPORT. What reporting leaves alone: an error record on its way to the Nose, the host and the neighbours, and a mark
for Fault, change no cluster, no memory and no waiting command. -/
namespace Sys2Proof.Machine

open Sys2Proof

/-- What every element of a list keeps, the whole list keeps. -/
theorem forEach_keep {α β : Type} {P : State → β} {f : α → State → State} (h : ∀ a s, P (f a s) = P s) (l : List α)
    (s : State) : P (s.forEach l f) = P s := by
  unfold State.forEach
  induction l generalizing s with
  | nil => rfl
  | cons a t ih => rw [List.foldl_cons, ih, h]

/-- A property that every element of a list keeps, the whole list keeps. -/
theorem forEach_inv {α : Type} {P : State → Prop} {f : α → State → State} (l : List α)
    (h : ∀ a ∈ l, ∀ s, P s → P (f a s)) {s : State} (hs : P s) : P (s.forEach l f) := by
  unfold State.forEach
  induction l generalizing s with
  | nil => exact hs
  | cons a t ih =>
    exact ih (fun b hb => h b (List.mem_cons_of_mem _ hb)) (h a (List.mem_cons_self ..) s hs)

/-- The parts of the state that reporting leaves alone. -/
def State.kept (s : State) : NMap Cluster × Memory × List Instr × Nat := (s.clusters, s.memory, s.pending, s.fresh)

@[simp] theorem kept_rset (s : State) (r : Reg) (i : Nat) (v : DWord) : (s.rset r i v).kept = s.kept := rfl
@[simp] theorem kept_fset (s : State) (f : Fld) (i x : Nat) : (s.fset f i x).kept = s.kept := rfl
@[simp] theorem kept_fbit (s : State) (f : Fld) (i : Nat) (b : Bool) : (s.fbit f i b).kept = s.kept := rfl
@[simp] theorem kept_fadd (s : State) (f : Fld) (i n : Nat) : (s.fadd f i n).kept = s.kept := rfl
@[simp] theorem kept_finc (s : State) (f : Fld) (i : Nat) : (s.finc f i).kept = s.kept := rfl
@[simp] theorem kept_emit (s : State) (o : Output) : (s.emit o).kept = s.kept := rfl
@[simp] theorem kept_hostWrite (s : State) (a : Nat) (b : List Byte) : (s.hostWrite a b).kept = s.kept := rfl
@[simp] theorem kept_setFp (s : State) (n : Nat) (p : FabPort) : (s.setFp n p).kept = s.kept := rfl
@[simp] theorem kept_updFp (s : State) (n : Nat) (f : FabPort → FabPort) : (s.updFp n f).kept = s.kept := rfl
@[simp] theorem kept_updCx (s : State) (c : Nat) (f : Ctx → Ctx) : (s.updCx c f).kept = s.kept := rfl
@[simp] theorem kept_updSite (s : State) (n : Nat) (f : Site → Site) : (s.updSite n f).kept = s.kept := rfl
@[simp] theorem kept_rememberPair (s : State) (p : Nat × Nat) : (s.rememberPair p).kept = s.kept := rfl

@[simp] theorem kept_toErrorRing (s : State) (r : Record) : (s.toErrorRing r).kept = s.kept := by
  unfold State.toErrorRing
  split
  · dsimp only
    split <;> rfl
  · rfl

@[simp] theorem kept_ownRsp (s : State) (v : Nat) (c : PacketCell) : (s.ownRsp v c).kept = s.kept := by
  unfold State.ownRsp; split <;> rfl

@[simp] theorem kept_sendCell (s : State) (v : Nat) (c : PacketCell) : (s.sendCell v c).kept = s.kept := by
  unfold State.sendCell
  split
  · rfl
  · dsimp only
    split
    · rfl
    · split
      · rfl
      · exact (kept_ownRsp ..).trans rfl

@[simp] theorem kept_sendTriggers (s : State) (a b c : Nat) : (s.sendTriggers a b c).kept = s.kept :=
  forEach_keep (P := State.kept) (fun _ _ => kept_sendCell _ _ _) _ s

theorem kept_ite {P : Prop} [Decidable P] {a b s : State} (ha : a.kept = s.kept) (hb : b.kept = s.kept) :
    (if P then a else b).kept = s.kept := by
  split
  · exact ha
  · exact hb

@[simp] theorem kept_ownTrigger (s : State) (k : Nat) : (s.ownTrigger k).kept = s.kept :=
  kept_ite ((kept_sendTriggers ..).trans rfl) rfl

@[simp] theorem kept_localTrigger (s : State) (k : Nat) : (s.localTrigger k).kept = s.kept :=
  (kept_ownTrigger ..).trans rfl

/-- A pushed datagram changes only what was sent. -/
@[simp] theorem kept_push (s : State) (op xid : Nat) (b : List Byte) : (s.push op xid b).kept = s.kept :=
  kept_ite (forEach_keep (P := State.kept) (fun _ _ => kept_emit ..) _ s) rfl

/-- A record that the Nose accepts leaves clusters, memory, queue and free values as they were. -/
@[simp] theorem kept_accept (s : State) (e : ErrorRecord) (n : Nat) : (s.accept e n).kept = s.kept := by
  unfold State.accept
  refine kept_ite rfl ?_
  have h : ∀ t : State, (if s.nose.log.length ≥ 4096 then t.finc NOS_STATUS.LOG_LOST 0 else t).kept = t.kept :=
    fun t => kept_ite rfl rfl
  dsimp only
  refine kept_ite ?_ ?_
  · rw [kept_localTrigger, kept_toErrorRing, kept_emit, kept_push]
    exact h (s.fset NOS_LOG.NEXT_SEQ 0 (s.fget NOS_LOG.NEXT_SEQ 0 + 1))
  · rw [kept_toErrorRing, kept_emit, kept_push]
    exact h (s.fset NOS_LOG.NEXT_SEQ 0 (s.fget NOS_LOG.NEXT_SEQ 0 + 1))

@[simp] theorem kept_report (s : State) (v b c i : Nat) (x : Option Nat) (d : List Word) :
    (s.report v b c i x d).kept = s.kept := kept_accept _ _ _

@[simp] theorem kept_markFault (s : State) (c st : Nat) : (s.markFault c st).kept = s.kept := rfl

@[simp] theorem kept_markClusterFault (s : State) (L st : Nat) : (s.markClusterFault L st).kept = s.kept := by
  unfold State.markClusterFault; split <;> rfl

@[simp] theorem kept_noteWindow (s : State) (L : Nat) : (s.noteWindow L).kept = s.kept := by
  unfold State.noteWindow; split <;> rfl

theorem kept_clusters {s t : State} (h : s.kept = t.kept) : s.clusters = t.clusters := congrArg (·.1) h
theorem kept_memory {s t : State} (h : s.kept = t.kept) : s.memory = t.memory := congrArg (·.2.1) h
theorem kept_pending {s t : State} (h : s.kept = t.kept) : s.pending = t.pending := congrArg (·.2.2.1) h

@[simp] theorem report_clusters (s : State) (v b c i : Nat) (x : Option Nat) (d : List Word) :
    (s.report v b c i x d).clusters = s.clusters := kept_clusters (kept_report ..)
@[simp] theorem report_memory (s : State) (v b c i : Nat) (x : Option Nat) (d : List Word) :
    (s.report v b c i x d).memory = s.memory := kept_memory (kept_report ..)
@[simp] theorem accept_clusters (s : State) (e : ErrorRecord) (n : Nat) : (s.accept e n).clusters = s.clusters :=
  kept_clusters (kept_accept ..)
@[simp] theorem accept_memory (s : State) (e : ErrorRecord) (n : Nat) : (s.accept e n).memory = s.memory :=
  kept_memory (kept_accept ..)

end Sys2Proof.Machine
end

