-- ==== Sys2Proof/Laws/Cores.lean ====
section
/-! SUPPORT. Laws of the clusters, their vaults and their cores: reads after writes, what checking and faulting leave of
the vaults, which bytes a store may write, and how an issued instruction reaches its effect. -/
namespace Sys2Proof.Machine

open Sys2Proof

/-! ### Clusters and cores by number -/

theorem cl_setCl {s : State} (L : Nat) (c : Cluster) (w : mwf (fun _ => Cluster.init) s.clusters = true) :
    (s.setCl L c).cl L = c := mget_mput_same _ _ w

theorem cl_setCl_ne (s : State) (L : Nat) {c : Cluster} (h : c ≠ Cluster.init) : (s.setCl L c).cl L = c :=
  mget_mput_ne _ _ h

theorem cl_setCl_other (s : State) {L M : Nat} (c : Cluster) (h : M ≠ L) : (s.setCl L c).cl M = s.cl M :=
  mget_mput_other _ _ h

theorem mwf_setCl {s : State} (L : Nat) (c : Cluster) (w : mwf (fun _ => Cluster.init) s.clusters = true) :
    mwf (fun _ => Cluster.init) (s.setCl L c).clusters = true := mwf_mput _ _ w

theorem getD_setIfInBounds {α : Type} {n : Nat} (v : Vector α n) (i j : Nat) (x d : α) :
    (v.setIfInBounds i x).toArray.getD j d = if i = j ∧ i < n then x else v.toArray.getD j d := by
  by_cases hj : j < n
  · simp only [Array.getD, Vector.size_toArray, hj, dif_pos]
    by_cases h : i = j
    · subst h; simp [hj]
    · simp only [h, false_and, if_false, Vector.toArray_setIfInBounds]
      exact Array.getElem_setIfInBounds_ne _ h
  · rw [if_neg (by omega)]
    simp [Array.getD, hj]

theorem core_setCore {s : State} {L n : Nat} (c : Core) (w : mwf (fun _ => Cluster.init) s.clusters = true) (hn : n < 3) :
    (s.setCore L n c).core L n = c := by
  unfold State.core State.setCore State.updCl
  rw [cl_setCl _ _ w]
  exact (getD_setIfInBounds ..).trans (if_pos ⟨rfl, hn⟩)

theorem core_setCore_other {s : State} {L m n : Nat} (c : Core) (w : mwf (fun _ => Cluster.init) s.clusters = true)
    (h : m ≠ n) : (s.setCore L n c).core L m = s.core L m := by
  unfold State.core State.setCore State.updCl
  rw [cl_setCl _ _ w]
  exact (getD_setIfInBounds ..).trans (if_neg fun e => h e.1.symm)

/-! ### An issued instruction -/

/-- A core that fetches an instruction of the row runs the row's effect. -/
theorem coreRow_fetches {s : State} {who : Issue} {i : Insn} {run : Insn → Option (State → State)} {f : State → State}
    (h : Fetches s who i) (hr : run i = some f) : coreRow who s run = .next (f s) := by
  unfold coreRow onUnit State.issue
  have hp : ¬ (s.core who.cluster who.core).pc ≥ imemWords who.core := by have := h.inside; omega
  simp only [h.ok, h.issues, if_neg hp, State.applyUpset, h.upset, h.decodes, h.known, hr, if_true, Bool.false_eq_true,
    if_false]

/-- A core that fetches an instruction of another row does nothing of this one. -/
theorem coreRow_other {s : State} {who : Issue} {i : Insn} {run : Insn → Option (State → State)}
    (h : Fetches s who i) (hr : run i = none) : coreRow who s run = .next s := by
  unfold coreRow onUnit State.issue
  have hp : ¬ (s.core who.cluster who.core).pc ≥ imemWords who.core := by have := h.inside; omega
  simp only [h.ok, h.issues, if_neg hp, State.applyUpset, h.upset, h.decodes, h.known, hr, if_true, Bool.false_eq_true,
    if_false]

/-! ### A vault without upsets -/

theorem checkGroups_sound {s : State} {L : Nat} (h : VaultSound s L) (gs : List Nat) (p : VPort) :
    s.checkGroups L gs p = ([], s) := by
  unfold State.checkGroups
  have : gs.filter (fun g => mget (fun _ => false) (s.cl L).bad g) = [] := by simp [h.sound]
  simp [this, State.forEach, State.injectGroup, h.quiet]

theorem vload_sound {s : State} {L : Nat} (h : VaultSound s L) (a n : Nat) (p : VPort) (hr : s.readOk L a n = true) :
    s.vload L a n p = (s.vbytes L a n, false, s) := by
  simp [State.vload, hr, State.checkParity, checkGroups_sound h]

/-! ### What changes no vault -/

/-- `t` has the vaults of `s`, and its clusters are in canonical form where those of `s` are. -/
def SameVaults (s t : State) : Prop :=
  mwf (fun _ => Cluster.init) s.clusters = true →
    mwf (fun _ => Cluster.init) t.clusters = true ∧ ∀ M, (t.cl M).vault = (s.cl M).vault

theorem SameVaults.refl (s : State) : SameVaults s s := fun w => ⟨w, fun _ => rfl⟩

theorem SameVaults.trans {s t u : State} (h : SameVaults s t) (k : SameVaults t u) : SameVaults s u := fun w =>
  ⟨(k (h w).1).1, fun M => ((k (h w).1).2 M).trans ((h w).2 M)⟩

theorem sameVaults_of_clusters {s t : State} (h : t.clusters = s.clusters) : SameVaults s t := fun w => by
  unfold State.cl; rw [h]; exact ⟨w, fun _ => rfl⟩

theorem sameVaults_of_kept {s t : State} (h : t.kept = s.kept) : SameVaults s t :=
  sameVaults_of_clusters (kept_clusters h)

theorem sameVaults_updCl (s : State) (L : Nat) {f : Cluster → Cluster} (h : (f (s.cl L)).vault = (s.cl L).vault) :
    SameVaults s (s.updCl L f) := fun w =>
  ⟨mwf_mput _ _ w, fun M => by
    by_cases e : M = L
    · subst e; exact (congrArg Cluster.vault (cl_setCl M _ w)).trans h
    · exact congrArg Cluster.vault (cl_setCl_other s _ e)⟩

theorem sameVaults_ite {P : Prop} [Decidable P] {s a b : State} (ha : SameVaults s a) (hb : SameVaults s b) :
    SameVaults s (if P then a else b) := by
  split
  · exact ha
  · exact hb

theorem sameVaults_forEach {α : Type} {f : α → State → State} (h : ∀ a s, SameVaults s (f a s)) (l : List α) (s : State) :
    SameVaults s (s.forEach l f) := by
  unfold State.forEach
  induction l generalizing s with
  | nil => exact .refl s
  | cons a t ih => exact (h a s).trans (ih (f a s))

theorem sameVaults_accept (s : State) (e : ErrorRecord) (n : Nat) : SameVaults s (s.accept e n) :=
  sameVaults_of_kept (kept_accept ..)

theorem sameVaults_markRerun (s : State) (L : Nat) : SameVaults s (s.markRerun L) := by
  unfold State.markRerun; split <;> exact sameVaults_of_clusters rfl

theorem sameVaults_hwSend (s : State) (L : Nat) (k : HwKind) (b c : Nat) (j : Bool) (d : List Word) :
    SameVaults s (s.hwSend L k b c j d) := by
  unfold State.hwSend
  split
  · refine SameVaults.trans ?_ (sameVaults_accept _ _ _)
    exact sameVaults_updCl s L rfl
  · exact sameVaults_updCl s L rfl

theorem sameVaults_hwRecord (s : State) (L : Nat) (k : HwKind) (b c : Nat) (j : Bool) (d : List Word) :
    SameVaults s (s.hwRecord L k b c j d) :=
  SameVaults.trans (sameVaults_ite (.refl s) (sameVaults_of_kept (kept_noteWindow ..))) (sameVaults_hwSend _ _ _ _ _ _ _)

theorem sameVaults_hwFault (s : State) (L : Nat) (k : HwKind) (b c : Nat) (j : Bool) (d : List Word) :
    SameVaults s (s.hwFault L k b c j d) := (sameVaults_markRerun s L).trans (sameVaults_hwRecord _ _ _ _ _ _ _)

theorem sameVaults_parityCount (s : State) (L g : Nat) (p : VPort) (j : Bool) : SameVaults s (s.parityCount L g p j) := by
  unfold State.parityCount
  refine SameVaults.trans ?_ (sameVaults_updCl _ L rfl)
  exact (sameVaults_ite (sameVaults_of_clusters rfl) (sameVaults_of_clusters rfl) :
    SameVaults s (if j then (s.finc VLT_PARITY.TOTAL L).finc VLT_PARITY.INJECTED L else s.finc VLT_PARITY.TOTAL L)).trans
    (sameVaults_of_clusters rfl)

theorem sameVaults_parityLost (s : State) (L g : Nat) : SameVaults s (s.parityLost L g) :=
  sameVaults_of_kept ((kept_markClusterFault ..).trans ((kept_report ..).trans rfl))

theorem sameVaults_parityError (s : State) (L g : Nat) (p : VPort) (j : Bool) : SameVaults s (s.parityError L g p j) :=
  have h := (sameVaults_parityCount s L g p j).trans (sameVaults_hwFault _ _ _ _ _ _ _)
  sameVaults_ite (h.trans (sameVaults_parityLost _ _ _)) h

theorem sameVaults_checkGroups (s : State) (L : Nat) (gs : List Nat) (p : VPort) : SameVaults s (s.checkGroups L gs p).2 := by
  unfold State.checkGroups
  have h : SameVaults s (s.forEach (gs.filter fun g => mget (fun _ => false) (s.cl L).bad g)
      fun g s => s.parityError L g p false) := sameVaults_forEach (fun g s => sameVaults_parityError s L g p false) _ s
  dsimp only
  split
  · refine h.trans (SameVaults.trans ?_ (sameVaults_parityError _ _ _ _ _))
    exact SameVaults.refl _
  · exact h

theorem sameVaults_violate (s : State) (L a : Nat) : SameVaults s (s.violate L a) := by
  unfold State.violate
  refine SameVaults.trans ?_ (sameVaults_of_kept (kept_markClusterFault _ _ _))
  refine sameVaults_ite (sameVaults_of_clusters rfl) ?_
  refine SameVaults.trans ?_ (sameVaults_of_kept (kept_report ..))
  exact (sameVaults_of_clusters rfl : SameVaults s ((s.finc VLT_PROTECT.COUNT L).fset VLT_PROTECT.ADDR L a)).trans
    (sameVaults_updCl _ L rfl)

/-- A checked read changes no vault. -/
theorem sameVaults_vload (s : State) (L a n : Nat) (p : VPort) : SameVaults s (s.vload L a n p).2.2 := by
  unfold State.vload
  split
  · exact sameVaults_checkGroups _ _ _ _
  · exact sameVaults_violate _ _ _

/-! ### Which bytes a store may write -/

/-- From `s` to `t` the clusters and the vaults keep their canonical form, and no byte of a vault changes but bytes of
vault `L` at addresses in `l`. -/
structure StoresAt (s t : State) (L : Nat) (l : List Nat) : Prop where
  clusters : mwf (fun _ => Cluster.init) t.clusters = true
  vaults : (∀ M, mwf zeroByte (s.cl M).vault = true) → ∀ M, mwf zeroByte (t.cl M).vault = true
  others : ∀ M, M ≠ L → (t.cl M).vault = (s.cl M).vault
  bytes : ∀ a, a ∉ l → vaultByte t L a = vaultByte s L a

theorem SameVaults.storesAt {s t : State} (h : SameVaults s t) (w : mwf (fun _ => Cluster.init) s.clusters = true) (L : Nat)
    (l : List Nat) : StoresAt s t L l where
  clusters := (h w).1
  vaults := fun v M => by rw [(h w).2 M]; exact v M
  others := fun M _ => (h w).2 M
  bytes := fun a _ => by unfold vaultByte; rw [(h w).2 L]

theorem vpairs_stores (s : State) (L : Nat) (l : List (Nat × Byte)) (p : VPort)
    (w : mwf (fun _ => Cluster.init) s.clusters = true) : StoresAt s (s.vpairs L l p) L (l.map (·.1)) := by
  unfold State.vpairs
  dsimp only
  generalize ((dedupRun (l.map fun e => e.1 / 8)).filter fun g => decide ((l.countP fun e => e.1 / 8 == g) < 8)) = gs
  have h := sameVaults_checkGroups s L gs p w
  generalize (s.checkGroups L gs p).2 = t at h
  obtain ⟨wt, hv⟩ := h
  have hL : ∀ c : Cluster, ((t.setCl L c).cl L) = c := fun c => cl_setCl L c wt
  refine ⟨mwf_mput _ _ wt, fun v M => ?_, fun M hM => ?_, fun a ha => ?_⟩
  · by_cases e : M = L
    · subst e
      rw [State.updCl, hL]
      refine mwf_mputs _ ?_
      rw [hv]; exact v M
    · rw [State.updCl, cl_setCl_other _ _ e, hv]; exact v M
  · rw [State.updCl, cl_setCl_other _ _ hM, hv]
  · unfold vaultByte
    rw [State.updCl, hL]
    refine (mget_mputs_other _ _ fun x hx e => ha ?_).trans (by rw [hv])
    subst e
    exact List.mem_map_of_mem hx

theorem StoresAt.mono {s t : State} {L : Nat} {l m : List Nat} (h : StoresAt s t L l) (hs : ∀ a ∈ l, a ∈ m) :
    StoresAt s t L m := ⟨h.clusters, h.vaults, h.others, fun a ha => h.bytes a fun k => ha (hs a k)⟩

/-- The addresses of a list of bytes from `a` on. -/
theorem mem_addressed {a x : Nat} {b : List Byte} (h : x ∈ (addressed a b).map (·.1)) : a ≤ x ∧ x < a + b.length := by
  induction b generalizing a with
  | nil => simp [addressed] at h
  | cons v t ih =>
    simp only [addressed, List.map_cons, List.mem_cons, List.length_cons] at h ⊢
    rcases h with h | h
    · omega
    · have := ih h; omega

theorem corePairs_stores (s : State) (L : Nat) (l : List (Nat × Byte)) (p : VPort)
    (w : mwf (fun _ => Cluster.init) s.clusters = true) : StoresAt s (s.corePairs L l p) L (l.map (·.1)) := by
  unfold State.corePairs
  split
  · have h := vpairs_stores s L (l.filter fun e => !s.headerByte L e.1) p w
    generalize s.vpairs L (l.filter fun e => !s.headerByte L e.1) p = t at h
    refine StoresAt.mono (l := (l.filter fun e => !s.headerByte L e.1).map (·.1)) ⟨h.clusters, h.vaults, h.others, h.bytes⟩
      fun a ha => ?_
    obtain ⟨e, he, rfl⟩ := List.mem_map.1 ha
    exact List.mem_map_of_mem (List.mem_of_mem_filter he)
  · exact vpairs_stores _ _ _ _ w

/-- A checked store by a core writes no byte but those it is given, from its address on. -/
theorem coreStore_stores (s : State) (L a : Nat) (b : List Byte) (p : VPort)
    (w : mwf (fun _ => Cluster.init) s.clusters = true) {x : Nat} (hx : x < a ∨ a + b.length ≤ x) :
    vaultByte (s.coreStore L a b p) L x = vaultByte s L x := by
  unfold State.coreStore
  split
  · refine (corePairs_stores s L (addressed a b) p w).bytes x fun h => ?_
    have := mem_addressed h
    omega
  · exact ((sameVaults_violate s L a).storesAt w L []).bytes x (by simp)

end Sys2Proof.Machine
end

