-- ==== Sys2Proof/Laws/Matrix.lean ====
section
/-! SUPPORT. The audit of a K-block and pass: partials that no upset touched agree with the sums of R95. -/
namespace Sys2Proof.Machine

open Sys2Proof

theorem wrap32_eq {x y : Int} : wrap32 x = wrap32 y ↔ x ≡ y [ZMOD 2 ^ 32] := by
  unfold wrap32
  rw [BitVec.toInt_inj]
  constructor
  · intro h
    have := congrArg BitVec.toNat h
    simp only [BitVec.toNat_ofInt] at this
    unfold Int.ModEq
    omega
  · intro h
    apply BitVec.eq_of_toNat_eq
    simp only [BitVec.toNat_ofInt]
    unfold Int.ModEq at h
    omega

theorem wrap32_modEq (x : Int) : wrap32 x ≡ x [ZMOD 2 ^ 32] := by
  unfold wrap32
  rw [BitVec.toInt_ofInt]
  unfold Int.ModEq
  rw [Int.bmod_def]
  split <;> omega

theorem sumTo_succ (n : Nat) (f : Nat → Int) : sumTo (n + 1) f = sumTo n f + f n := by
  simp [sumTo, List.range_succ]

theorem sumTo_congr {n : Nat} {f g : Nat → Int} (h : ∀ i < n, f i = g i) : sumTo n f = sumTo n g := by
  unfold sumTo
  rw [List.map_congr_left fun i hi => h i (List.mem_range.1 hi)]

theorem sumTo_modEq {n : Nat} {f g : Nat → Int} (h : ∀ i < n, f i ≡ g i [ZMOD 2 ^ 32]) :
    sumTo n f ≡ sumTo n g [ZMOD 2 ^ 32] := by
  induction n with
  | zero => rfl
  | succ n ih =>
    rw [sumTo_succ, sumTo_succ]
    exact (ih fun i hi => h i (by omega)).add (h n (by omega))

theorem sumTo_add (n : Nat) (f g : Nat → Int) : (sumTo n fun i => f i + g i) = sumTo n f + sumTo n g := by
  induction n with
  | zero => rfl
  | succ n ih => rw [sumTo_succ, sumTo_succ, sumTo_succ, ih]; ring

theorem sumTo_zero (n : Nat) : (sumTo n fun _ => 0) = 0 := by
  induction n with
  | zero => rfl
  | succ n ih => rw [sumTo_succ, ih]; rfl

theorem sumTo_comm (m n : Nat) (f : Nat → Nat → Int) :
    (sumTo m fun i => sumTo n fun j => f i j) = sumTo n fun j => sumTo m fun i => f i j := by
  induction m with
  | zero => exact (sumTo_zero n).symm
  | succ m ih =>
    rw [sumTo_succ, ih, ← sumTo_add]
    exact sumTo_congr fun j _ => (sumTo_succ m fun i => f i j).symm

theorem sumTo_mul (n : Nat) (f : Nat → Int) (c : Int) : (sumTo n fun i => f i * c) = sumTo n f * c := by
  induction n with
  | zero => simp [sumTo]
  | succ n ih => rw [sumTo_succ, sumTo_succ, ih]; ring

theorem mul_sumTo (n : Nat) (f : Nat → Int) (c : Int) : (sumTo n fun i => c * f i) = c * sumTo n f := by
  rw [mul_comm c, ← sumTo_mul]
  exact sumTo_congr fun i _ => mul_comm _ _

theorem ofFn_getD {α : Type} {n k : Nat} (f : Nat → α) (d : α) (h : k < n) :
    (Array.ofFn fun i : Fin n => f i).getD k d = f k := by
  simp [Array.getD, h]

theorem at_of {rows cols i j : Nat} (f : Nat → Nat → Int) (hi : i < rows) (hj : j < cols) :
    (Grid.of rows cols f).at_ i j = f i j := by
  unfold Grid.of Grid.at_
  rw [ofFn_getD (fun i => Array.ofFn fun j : Fin cols => f i j) _ hi, ofFn_getD (fun j => f i j) _ hj]

theorem partials_at {len i j : Nat} (A B : Grid) (hi : i < 64) (hj : j < 64) :
    (partials len A B .none).at_ i j ≡ sumTo len fun k => A.at_ i k * B.at_ k j [ZMOD 2 ^ 32] := by
  unfold partials
  rw [at_of _ hi hj]
  refine (wrap32_modEq _).trans ?_
  simp [upsetDelta]

theorem colSums_at {len k : Nat} (A : Grid) (h : k < len) : (A.colSums 64 len).getD k 0 = sumTo 64 fun i => A.at_ i k :=
  ofFn_getD (fun j => sumTo 64 fun i => A.at_ i j) 0 h

theorem rowSums_at {len k : Nat} (B : Grid) (h : k < len) : (B.rowSums len 64).getD k 0 = sumTo 64 fun j => B.at_ k j :=
  ofFn_getD (fun i => sumTo 64 fun j => B.at_ i j) 0 h

/-- The column sums of partials that no upset touched agree (R95). -/
theorem audit_col {len j : Nat} (A B : Grid) (hj : j < 64) :
    wrap32 (sumTo len fun k => (A.colSums 64 len).getD k 0 * B.at_ k j)
      = wrap32 (sumTo 64 fun i => (partials len A B .none).at_ i j) := by
  rw [wrap32_eq]
  refine Int.ModEq.trans ?_ (sumTo_modEq fun i hi => partials_at A B hi hj).symm
  rw [sumTo_comm, sumTo_congr fun k hk => by rw [colSums_at A hk, ← sumTo_mul]]

/-- So do the row sums. -/
theorem audit_row {len i : Nat} (A B : Grid) (hi : i < 64) :
    wrap32 (sumTo len fun k => A.at_ i k * (B.rowSums len 64).getD k 0)
      = wrap32 (sumTo 64 fun j => (partials len A B .none).at_ i j) := by
  rw [wrap32_eq]
  refine Int.ModEq.trans ?_ (sumTo_modEq fun j hj => partials_at A B hi hj).symm
  rw [sumTo_comm, sumTo_congr fun k hk => by rw [rowSums_at B hk, ← mul_sumTo]]

/-- And the corner. -/
theorem audit_corner (len : Nat) (A B : Grid) :
    (sumTo len fun k => (A.colSums 64 len).getD k 0 * (B.rowSums len 64).getD k 0)
      ≡ (sumTo 64 fun i => sumTo 64 fun j => (partials len A B .none).at_ i j) [ZMOD 2 ^ 32] := by
  refine Int.ModEq.trans ?_ (sumTo_modEq fun i hi => sumTo_modEq fun j hj => partials_at A B hi hj).symm
  rw [sumTo_congr fun i _ => sumTo_comm 64 len fun j k => A.at_ i k * B.at_ k j, sumTo_comm,
    sumTo_congr fun k hk => by rw [colSums_at A hk, rowSums_at B hk, ← sumTo_mul, sumTo_congr fun i _ => by rw [← mul_sumTo]]]

/-- Upsets of the checksum cells alone leave the partials as they are. -/
theorem partials_checksums {len : Nat} {A B : Grid} {u : CellUpset} (h : ∀ i < 64, ∀ j < 64, upsetDelta u i j = 0) :
    partials len A B u = partials len A B .none := by
  unfold partials Grid.of
  refine congrArg Array.ofFn (funext fun i => congrArg Array.ofFn (funext fun j => ?_))
  beta_reduce
  rw [h i i.2 j j.2]
  rfl

/-- An upset of the corner alone: the audit finds no mismatch exactly where it is no upset modulo 2^32 (R95, R96). -/
theorem auditOf_corner {len : Nat} {A B : Grid} {u : CellUpset}
    (h : ∀ i ≤ 64, ∀ j ≤ 64, i < 64 ∨ j < 64 → upsetDelta u i j = 0) :
    auditOf len A B (partials len A B u) u = if upsetDelta u 64 64 ≡ 0 [ZMOD 2 ^ 32] then none else some (2, 0, 0) := by
  rw [partials_checksums fun i hi j hj => h i hi.le j hj.le (.inl hi)]
  have hcol : ((List.range 64).find? fun j => wrap32 (upsetDelta u 64 j + sumTo len fun k => (A.colSums 64 len).getD k 0
      * B.at_ k j) != wrap32 (sumTo 64 fun i => (partials len A B .none).at_ i j)) = none := by
    rw [List.find?_eq_none]
    intro j hj
    have hj := List.mem_range.1 hj
    rw [h 64 le_rfl j hj.le (.inr hj), zero_add, audit_col A B hj]; simp
  have hrow : ((List.range 64).find? fun i => wrap32 (upsetDelta u i 64 + sumTo len fun k => A.at_ i k
      * (B.rowSums len 64).getD k 0) != wrap32 (sumTo 64 fun j => (partials len A B .none).at_ i j)) = none := by
    rw [List.find?_eq_none]
    intro i hi
    have hi := List.mem_range.1 hi
    rw [h i hi.le 64 le_rfl (.inl hi), zero_add, audit_row A B hi]; simp
  have hcorner : wrap32 (upsetDelta u 64 64 + sumTo len fun k => (A.colSums 64 len).getD k 0 * (B.rowSums len 64).getD k 0)
      = wrap32 (sumTo 64 fun i => sumTo 64 fun j => (partials len A B .none).at_ i j) ↔ upsetDelta u 64 64 ≡ 0 [ZMOD 2 ^ 32] := by
    rw [wrap32_eq]
    have e := audit_corner len A B
    generalize (sumTo len fun k => (A.colSums 64 len).getD k 0 * (B.rowSums len 64).getD k 0) = x at e ⊢
    generalize (sumTo 64 fun i => sumTo 64 fun j => (partials len A B .none).at_ i j) = y at e ⊢
    unfold Int.ModEq at *
    omega
  simp only [auditOf, hcol, hrow]
  split <;> split <;> simp_all

/-- The audit of partials that no upset touched finds no mismatch (R95). -/
theorem auditOf_partials (len : Nat) (A B : Grid) : auditOf len A B (partials len A B .none) .none = none :=
  (auditOf_corner (u := .none) fun _ _ _ _ _ => rfl).trans (if_pos (Int.ModEq.refl 0))

end Sys2Proof.Machine
end

