-- ==== Sys2Proof/Laws/Memory.lean ====
section
/-! SUPPORT. The memory keeps its canonical form through every operation on it, and a block reads back what was written. -/
namespace Sys2Proof.Machine

open Sys2Proof

theorem wf_iff {m : Memory} : m.wf = true ↔ mwf zeroByte m.bytes = true ∧ mwf noBool m.poison = true := by
  simp [Memory.wf]

theorem reset_memory_wf : State.reset.memory.wf = true := rfl

/-- The bytes and the POISON bits of the memory. -/
def State.array (s : State) : NMap Byte × NMap Bool := (s.memory.bytes, s.memory.poison)

theorem wf_of_array {s t : State} (h : t.array = s.array) (w : s.memory.wf = true) : t.memory.wf = true := by
  obtain ⟨h1, h2⟩ := Prod.mk.inj h
  rw [wf_iff] at w ⊢
  exact ⟨h1 ▸ w.1, h2 ▸ w.2⟩

theorem array_of_kept {s t : State} (h : t.kept = s.kept) : t.array = s.array := by
  unfold State.array; rw [kept_memory h]

theorem wf_arrays (m : Memory) {b : NMap Byte} {p : NMap Bool} (hb : mwf zeroByte b = true) (hp : mwf noBool p = true) :
    { m with bytes := b, poison := p }.wf = true := by
  simp [Memory.wf, hb, hp]

theorem wf_setMem (s : State) {m : Memory} (h : m.wf = true) : (s.setMem m).memory.wf = true := h

theorem wf_put {m : Memory} (a : Nat) (data : List Byte) (k : Nat) (q : Bool) (w : m.wf = true) :
    (m.put a data k q).wf = true :=
  wf_arrays m (mwf_mrun _ _ (wf_iff.1 w).1) (mwf_mput _ _ (wf_iff.1 w).2)

theorem wf_wipe {m : Memory} (b n : Nat) (q : Bool) (w : m.wf = true) : (m.wipe b n q).wf = true := by
  refine wf_arrays m (mwf_mkeep _ (wf_iff.1 w).1) ?_
  dsimp only
  split
  · exact mwf_mrun _ _ (mwf_mkeep _ (wf_iff.1 w).2)
  · exact mwf_mkeep _ (wf_iff.1 w).2

theorem kept_judgeSummary (s : State) : s.judgeSummary.kept = s.kept := kept_ite ((kept_report ..).trans rfl) rfl

theorem kept_syncMem (s : State) (p : Nat) : (s.syncMem p).kept = s.kept :=
  kept_ite ((kept_judgeSummary _).trans rfl) rfl

theorem kept_chChange (s : State) (p ch st kind cx : Nat) (j : Bool) : (s.chChange p ch st kind cx j).kept = s.kept :=
  (kept_syncMem _ _).trans ((kept_accept ..).trans rfl)

theorem kept_chDegrade (s : State) (p ch kind cx : Nat) (j : Bool) : (s.chDegrade p ch kind cx j).kept = s.kept :=
  kept_ite (kept_chChange ..) rfl

theorem kept_ledgerAppend (s : State) (a b c : Nat) : (s.ledgerAppend a b c).kept = s.kept := kept_ite rfl rfl

theorem kept_dataLost (s : State) (p ch : Nat) : (s.dataLost p ch).kept = s.kept := by
  refine forEach_keep (P := State.kept) (fun c s => ?_) _ s
  split
  · rfl
  · exact kept_report ..

theorem array_dropChunk (s : State) (p ch k : Nat) : (s.dropChunk p ch k).array = s.array := by
  unfold State.dropChunk
  generalize chKey p ch = i
  generalize chunkKey p ch k = j
  rfl

theorem array_freeFrame (s : State) (f : List (Nat × Nat × Nat)) : (s.freeFrame f).array = s.array := by
  unfold State.freeFrame
  refine forEach_keep (P := State.array) (fun t u => ?_) f s
  rw [array_dropChunk]

/-- Abandoning the migrations to a channel frees chunks, and changes no byte. -/
theorem array_dropMigrations (s : State) (p ch : Nat) : (s.dropMigrations p ch).array = s.array :=
  (forEach_keep (P := State.array) (fun _ _ => array_freeFrame _ _) _ _).trans rfl

theorem array_ite {P : Prop} [Decidable P] {a b s : State} (ha : a.array = s.array) (hb : b.array = s.array) :
    (if P then a else b).array = s.array := by
  split
  · exact ha
  · exact hb

theorem array_chFail (s : State) (p ch kind cx : Nat) : (s.chFail p ch kind cx).array = s.array :=
  array_ite rfl ((array_dropMigrations ..).trans
    (array_of_kept ((kept_dataLost ..).trans ((kept_ledgerAppend ..).trans (kept_chChange ..)))))

theorem kept_ceLimit (s : State) (p ch cx : Nat) : (s.ceLimit p ch cx).kept = s.kept :=
  kept_ite (kept_chDegrade ..) rfl

theorem array_ueLimit (s : State) (p ch cx : Nat) : (s.ueLimit p ch cx).array = s.array :=
  array_ite (array_chFail ..) rfl

theorem array_laneLimit (s : State) (p ch cx pin : Nat) : (s.laneLimit p ch cx pin).array = s.array :=
  array_ite (array_ite (array_ite rfl (array_chFail ..))
    (array_of_kept ((kept_syncMem ..).trans ((kept_ledgerAppend ..).trans ((kept_report ..).trans rfl))))) rfl

theorem array_countPins (s : State) (p ch cx : Nat) (pins : List Nat) : (s.countPins p ch cx pins).array = s.array := by
  refine forEach_keep (P := State.array) (fun pin s => ?_) _ s
  exact (array_laneLimit ..).trans rfl

/-- A corrected error changes no byte and no POISON bit. -/
theorem array_memCe (s : State) (p ch cx : Nat) (pins : List Nat) (j : Bool) : (s.memCe p ch cx pins j).array = s.array :=
  array_ite rfl ((array_countPins ..).trans ((array_of_kept (kept_ceLimit ..)).trans rfl))

/-- The array with a block rewritten. -/
def State.arrayPut (s : State) (p ch b : Nat) (data : List Byte) (q : Bool) : NMap Byte × NMap Bool :=
  let m := s.memory.put (64 * blockKey p ch b) data (blockKey p ch b) q
  (m.bytes, m.poison)

/-- An uncorrectable error rewrites its block with POISON set, and changes nothing else of the array. -/
theorem array_memUe (s : State) (p ch b cx : Nat) (data : List Byte) (pins : List Nat) (j : Bool) :
    (s.memUe p ch b cx data pins j).array = s.arrayPut p ch b data true := by
  have h : ∀ t : State, t.array = s.arrayPut p ch b data true →
      (t.chDegrade p ch 1 cx j).array = s.arrayPut p ch b data true :=
    fun t e => (array_of_kept (kept_chDegrade ..)).trans e
  unfold State.memUe
  dsimp only
  split
  · exact h _ rfl
  · rw [array_countPins, array_ueLimit]
    exact h _ rfl

theorem wf_memUe {s : State} (p ch b cx : Nat) (data : List Byte) (pins : List Nat) (j : Bool) (w : s.memory.wf = true) :
    (s.memUe p ch b cx data pins j).memory.wf = true := by
  obtain ⟨h1, h2⟩ := Prod.mk.inj (array_memUe s p ch b cx data pins j)
  have w2 := wf_iff.1 (wf_put (64 * blockKey p ch b) data (blockKey p ch b) true w)
  rw [wf_iff, h1, h2]
  exact w2

theorem wf_memCe {s : State} (p ch cx : Nat) (pins : List Nat) (j : Bool) (w : s.memory.wf = true) :
    (s.memCe p ch cx pins j).memory.wf = true := wf_of_array (array_memCe ..) w

theorem wf_writeBlockBack {s : State} (p ch b : Nat) (data : List Byte) (w : s.memory.wf = true) :
    (s.writeBlockBack p ch b data).memory.wf = true := by
  unfold State.writeBlockBack
  split
  · exact w
  · exact wf_setMem _ (wf_put _ _ _ _ w)

theorem wf_readCorrected {s : State} (p ch b cx : Nat) (data : List Byte) (pins : List Nat) (w : s.memory.wf = true) :
    (s.readCorrected p ch b cx data pins).2.memory.wf = true := by
  unfold State.readCorrected
  split
  · exact w
  · exact wf_memCe _ _ _ _ _ (wf_writeBlockBack _ _ _ _ w)

/-- Whatever symbols are in error, the read of a block keeps the form. -/
theorem wf_readOutcome {s : State} (p ch b cx : Nat) (r : BlockErrors) (w : s.memory.wf = true) :
    (s.readOutcome p ch b cx r).2.memory.wf = true := by
  unfold State.readOutcome
  dsimp only
  split
  · exact wf_memUe (s := s.fset MEM_INJECT.UE p 0) _ _ _ _ _ _ _ w
  · split
    · exact wf_memCe (s := s.fset MEM_INJECT.CE p 0) _ _ _ _ _ w
    · split
      · exact wf_readCorrected _ _ _ _ _ _ w
      · split
        · exact wf_readCorrected _ _ _ _ _ _ w
        · exact wf_memUe _ _ _ _ _ _ _ w

theorem kept_poisonRead (s : State) (c p ch b : Nat) : (s.poisonRead c p ch b).kept = s.kept :=
  kept_ite rfl ((kept_report ..).trans rfl)

theorem wf_ite {P : Prop} [Decidable P] {a b : State} (ha : a.memory.wf = true) (hb : b.memory.wf = true) :
    (if P then a else b).memory.wf = true := by
  split
  · exact ha
  · exact hb

/-- A block read keeps the form. -/
theorem wf_blockRead {s : State} (p ch b cx : Nat) (r : BlockErrors) (w : s.memory.wf = true) :
    (s.blockRead p ch b cx r).2.memory.wf = true := by
  have h : ∀ t : State, t.memory.wf = true → ((t.finc MEM_POISON.READ p).poisonRead cx p ch b).memory.wf = true :=
    fun t e => wf_of_array (array_of_kept (kept_poisonRead ..)) e
  have ht := wf_readOutcome p ch b cx r w
  unfold State.blockRead
  split
  · exact w
  · split
    · exact h _ w
    · generalize s.readOutcome p ch b cx r = t at ht
      dsimp only
      by_cases e : t.2.blockPoison p ch b = true
      · rw [if_pos e]; exact h _ ht
      · rw [if_neg e]; exact ht

/-- A block write keeps the form. -/
theorem wf_blockWrite {s : State} (p ch b cx off : Nat) (data : List Byte) (q : Bool) (w : s.memory.wf = true) :
    (s.blockWrite p ch b cx off data q).2.memory.wf = true := by
  have ht : (if data.length == 64 then s else (s.readOutcome p ch b cx .none).2).memory.wf = true :=
    wf_ite w (wf_readOutcome _ _ _ _ _ w)
  unfold State.blockWrite
  split
  · exact w
  · split
    · exact w
    · exact wf_setMem _ (wf_put _ _ _ _ ht)

theorem put_reads {m : Memory} (a k : Nat) (data : List Byte) (q : Bool) (w : m.wf = true) :
    mslice zeroByte (m.put a data k q).bytes a data.length = data ∧ mget noBool (m.put a data k q).poison k = q :=
  ⟨mslice_mrun _ _ (wf_iff.1 w).1, mget_mput_same _ _ (wf_iff.1 w).2⟩

theorem blockWrite_whole {s : State} (p ch b cx : Nat) (data : List Byte) (q : Bool) (hs : s.memServes p = true)
    (hw : s.working p ch = true) (hl : (data.length == 64) = true) :
    s.blockWrite p ch b cx 0 data q
      = (false, s.setMem (s.memory.put (64 * blockKey p ch b + 0) data (blockKey p ch b) q)) := by
  unfold State.blockWrite
  rw [hs, hw, hl]
  simp only [if_true, Bool.not_true, Bool.false_eq_true, if_false, Bool.false_and, Bool.or_false]

/-- A whole block that a working channel takes reads back as it was written, with the POISON it was written with. -/
theorem blockWrite_reads {s : State} (p ch b cx : Nat) (data : List Byte) (q : Bool) (w : s.memory.wf = true)
    (hs : s.memServes p = true) (hw : s.working p ch = true) (hl : data.length = 64) :
    ∃ t, s.blockWrite p ch b cx 0 data q = (false, t) ∧ t.blockBytes p ch b = data ∧ t.blockPoison p ch b = q := by
  have e := blockWrite_whole p ch b cx data q hs hw (by rw [hl]; rfl)
  rw [Nat.add_zero] at e
  refine ⟨_, e, ?_⟩
  unfold State.blockBytes State.blockPoison
  generalize blockKey p ch b = k
  have := put_reads (64 * k) k data q w
  rw [hl] at this
  exact this

theorem foldl_wf {α β : Type} {f : β × State → α → β × State} (h : ∀ x a, x.2.memory.wf = true → (f x a).2.memory.wf = true)
    (l : List α) (x : β × State) (w : x.2.memory.wf = true) : (l.foldl f x).2.memory.wf = true := by
  induction l generalizing x with
  | nil => exact w
  | cons a t ih => exact ih _ (h x a w)

/-- A read of logical memory keeps the form. -/
theorem wf_memRead {s : State} (c a n : Nat) (raw : Bool) (w : s.memory.wf = true) :
    (s.memRead c a n raw).2.memory.wf = true := by
  refine foldl_wf (fun x pc hx => ?_) _ _ w
  dsimp only
  split
  · exact hx
  · next p ch b off _ =>
    have hr := wf_blockRead (s := x.2) p ch b c .none hx
    split
    · next e => rw [e] at hr; exact hr
    · next e => rw [e] at hr; exact hr

/-- A write of logical memory keeps the form. -/
theorem wf_memWrite {s : State} (c a : Nat) (data : List Byte) (q : Bool) (w : s.memory.wf = true) :
    (s.memWrite c a data q).2.memory.wf = true := by
  refine foldl_wf (fun x pc hx => ?_) _ _ w
  dsimp only
  split
  · exact hx
  · exact wf_blockWrite _ _ _ _ _ _ _ hx

/-- Making a chunk new keeps the form. -/
theorem wf_wipeChunk {s : State} (p ch k : Nat) (q : Bool) (w : s.memory.wf = true) :
    (s.wipeChunk p ch k q).memory.wf = true :=
  wf_setMem _ (wf_wipe _ _ _ w)

theorem wf_wipeFrame {s : State} (f : List (Nat × Nat × Nat)) (w : s.memory.wf = true) :
    (s.wipeFrame f).memory.wf = true :=
  forEach_inv (P := fun s => s.memory.wf = true) f (fun _ _ _ h => wf_wipeChunk _ _ _ _ h) w

/-- Step 7's replacement of the chunks of a frame keeps the form. -/
theorem wf_replaceIn {s : State} (key : Nat) (f : List (Nat × Nat × Nat)) (w : s.memory.wf = true) :
    (s.replaceIn key f).memory.wf = true := by
  refine forEach_inv (P := fun s => s.memory.wf = true) _ (fun i _ s h => ?_) w
  dsimp only
  split
  · exact h
  · next p ch k _ =>
    split
    · split
      · exact h
      · next new _ _ =>
        split
        · exact h
        · next j _ =>
          generalize hu : s.useChunk p new j = u
          have h2 := wf_wipeChunk (s := u) p new j true (hu ▸ h)
          generalize u.wipeChunk p new j true = x at h2
          exact h2
    · exact h

theorem wf_replaceChunks {s : State} (w : s.memory.wf = true) : s.replaceChunks.memory.wf = true :=
  forEach_inv (P := fun s => s.memory.wf = true) _ (fun _ _ _ h => wf_replaceIn _ _ h) w

end Sys2Proof.Machine
end

