-- ==== Sys2Proof/Laws/Regs.lean ====
section
/-! SUPPORT. Laws of the register file: registers read back, other registers and instances stay, and the file keeps its
canonical form. -/
namespace Sys2Proof.Machine

theorem num_injective : Function.Injective Reg.num := fun a b h => by
  have : Reg.all[a.num]? = Reg.all[b.num]? := by rw [h]
  have key : ∀ r : Reg, Reg.all[r.num]? = some r := fun r => by cases r <;> rfl
  rw [key, key] at this
  exact Option.some.inj this

/-- Keys of different registers, and of different instances of one, differ. -/
theorem regKey_inj {r q : Reg} {i j : Nat} (hi : i < 2 ^ 20) (hj : j < 2 ^ 20) (h : regKey r i = regKey q j) :
    r = q ∧ i = j := by
  unfold regKey at h
  have : r.num = q.num := by omega
  exact ⟨num_injective this, by omega⟩

@[simp] theorem regs_rset (s : State) (r : Reg) (i : Nat) (v : DWord) :
    (s.rset r i v).regs = mput regDefault s.regs (regKey r i) v := rfl

/-- The register file keeps its canonical form. -/
theorem mwf_rset {s : State} (r : Reg) (i : Nat) (v : DWord) (w : mwf regDefault s.regs = true) :
    mwf regDefault (s.rset r i v).regs = true := mwf_mput _ _ w

theorem mwf_fset {s : State} (f : Fld) (i x : Nat) (w : mwf regDefault s.regs = true) :
    mwf regDefault (s.fset f i x).regs = true := mwf_rset _ _ _ w

/-- A register reads back. -/
theorem rget_rset {s : State} (r : Reg) (i : Nat) (v : DWord) (w : mwf regDefault s.regs = true) :
    (s.rset r i v).rget r i = v := mget_mput_same _ _ w

/-- Another register, or another instance, is as it was. -/
theorem rget_rset_other (s : State) {r q : Reg} {i j : Nat} (v : DWord) (h : regKey q j ≠ regKey r i) :
    (s.rset r i v).rget q j = s.rget q j := mget_mput_other _ _ h

theorem rget_fset_other (s : State) {f : Fld} {q : Reg} {i j x : Nat} (h : regKey q j ≠ regKey f.reg i) :
    (s.fset f i x).rget q j = s.rget q j := rget_rset_other _ _ h

theorem fget_fset_other (s : State) {f g : Fld} {i j x : Nat} (h : regKey g.reg j ≠ regKey f.reg i) :
    (s.fset f i x).fget g j = s.fget g j := by rw [State.fget, rget_fset_other _ h, State.fget]

theorem withField_toNat (v : DWord) {hi lo : Nat} (x : Nat) (hl : lo ≤ hi) (hh : hi < 64) :
    fieldOf (withField v hi lo x) hi lo = x % 2 ^ (hi + 1 - lo) := by
  unfold fieldOf withField fieldMask
  apply Nat.eq_of_testBit_eq
  intro b
  simp only [Nat.testBit_mod_two_pow, Nat.testBit_shiftRight]
  by_cases hb : b < hi + 1 - lo
  · have h64 : lo + b < 64 := by omega
    simp only [hb, decide_true, Bool.true_and]
    rw [← BitVec.getLsbD]
    simp only [BitVec.getLsbD_or, BitVec.getLsbD_and, BitVec.getLsbD_not, BitVec.getLsbD_ofNat, h64, decide_true,
      Bool.true_and, Nat.testBit_mul_two_pow, Nat.testBit_two_pow_sub_one]
    have : lo ≤ lo + b := by omega
    simp [hb]
  · simp [hb]

/-- A field reads back, cut to its width. -/
theorem fget_fset {s : State} (f : Fld) (i x : Nat) (hl : f.lo ≤ f.hi) (hh : f.hi < 64) (w : mwf regDefault s.regs = true) :
    (s.fset f i x).fget f i = x % 2 ^ (f.hi + 1 - f.lo) := by
  unfold State.fget State.fset
  rw [rget_rset _ _ _ w, withField_toNat _ _ hl hh]

end Sys2Proof.Machine
end

