-- ==== Sys2Proof/Laws/Sha256.lean ====
section
/-! SUPPORT. Laws of SHA-256: a digest has 32 bytes. -/
namespace Sys2Proof.Machine

theorem leBytes_length (n v : Nat) : (leBytes n v).length = n := by
  induction n generalizing v with
  | zero => rfl
  | succ n ih => simp [leBytes, ih]

theorem rounds_length (ks : List Word) (r : Rounds) (ht : r.top.length = 4) (hb : r.bottom.length = 4) :
    (ks.foldl Rounds.next r).top.length = 4 ∧ (ks.foldl Rounds.next r).bottom.length = 4 := by
  induction ks generalizing r with
  | nil => exact ⟨ht, hb⟩
  | cons k ks ih => exact ih _ (by simp [Rounds.next, ht]) (by simp [Rounds.next, hb])

theorem shaBlock_length {h : List Word} (b : List Byte) (l : h.length = 8) : (shaBlock h b).length = 8 := by
  obtain ⟨t, u⟩ := rounds_length shaK
    ⟨(List.range 16).map fun i => beWord ((b.drop (4 * i)).take 4), h.take 4, h.drop 4⟩ (by simp [l]) (by simp [l])
  simp [shaBlock, l, t, u]

theorem shaBlocks_length (n : Nat) (h : List Word) (m : List Byte) (l : h.length = 8) : (shaBlocks n h m).length = 8 := by
  induction n generalizing h m with
  | zero => exact l
  | succ n ih => exact ih _ _ (shaBlock_length _ l)

theorem sha256_length (m : List Byte) : (sha256 m).length = 32 := by
  have h := shaBlocks_length ((shaPad m).length / 64) shaInit (shaPad m) (by decide +kernel)
  simp [sha256, List.length_flatMap, beNat, leBytes_length, h]

end Sys2Proof.Machine
end

