-- ==== Sys2Proof/Laws/State.lean ====
section
/-! SUPPORT. What each base update leaves of each field of State: one lemma a field and update, true by definition. -/
namespace Sys2Proof.Machine

variable (s : State)

/-! ### setCl -/

@[simp] theorem setCl_regs (L : Nat) (c : Cluster) : (s.setCl L c).regs = s.regs := rfl
@[simp] theorem setCl_rwt (L : Nat) (c : Cluster) : (s.setCl L c).rwt = s.rwt := rfl
@[simp] theorem setCl_low (L : Nat) (c : Cluster) : (s.setCl L c).low = s.low := rfl
@[simp] theorem setCl_tally (L : Nat) (c : Cluster) : (s.setCl L c).tally = s.tally := rfl
@[simp] theorem setCl_clusters (L : Nat) (c : Cluster) : (s.setCl L c).clusters = mput (fun _ => Cluster.init) s.clusters L c := rfl
@[simp] theorem setCl_ctxs (L : Nat) (c : Cluster) : (s.setCl L c).ctxs = s.ctxs := rfl
@[simp] theorem setCl_placer (L : Nat) (c : Cluster) : (s.setCl L c).placer = s.placer := rfl
@[simp] theorem setCl_mesh (L : Nat) (c : Cluster) : (s.setCl L c).mesh = s.mesh := rfl
@[simp] theorem setCl_fabric (L : Nat) (c : Cluster) : (s.setCl L c).fabric = s.fabric := rfl
@[simp] theorem setCl_memory (L : Nat) (c : Cluster) : (s.setCl L c).memory = s.memory := rfl
@[simp] theorem setCl_domains (L : Nat) (c : Cluster) : (s.setCl L c).domains = s.domains := rfl
@[simp] theorem setCl_nose (L : Nat) (c : Cluster) : (s.setCl L c).nose = s.nose := rfl
@[simp] theorem setCl_host (L : Nat) (c : Cluster) : (s.setCl L c).host = s.host := rfl
@[simp] theorem setCl_security (L : Nat) (c : Cluster) : (s.setCl L c).security = s.security := rfl
@[simp] theorem setCl_imageJob (L : Nat) (c : Cluster) : (s.setCl L c).imageJob = s.imageJob := rfl
@[simp] theorem setCl_power (L : Nat) (c : Cluster) : (s.setCl L c).power = s.power := rfl
@[simp] theorem setCl_test (L : Nat) (c : Cluster) : (s.setCl L c).test = s.test := rfl
@[simp] theorem setCl_recovery (L : Nat) (c : Cluster) : (s.setCl L c).recovery = s.recovery := rfl
@[simp] theorem setCl_bringUp (L : Nat) (c : Cluster) : (s.setCl L c).bringUp = s.bringUp := rfl
@[simp] theorem setCl_fresh (L : Nat) (c : Cluster) : (s.setCl L c).fresh = s.fresh := rfl
@[simp] theorem setCl_hostMem (L : Nat) (c : Cluster) : (s.setCl L c).hostMem = s.hostMem := rfl
@[simp] theorem setCl_hostPoison (L : Nat) (c : Cluster) : (s.setCl L c).hostPoison = s.hostPoison := rfl
@[simp] theorem setCl_out (L : Nat) (c : Cluster) : (s.setCl L c).out = s.out := rfl
@[simp] theorem setCl_pending (L : Nat) (c : Cluster) : (s.setCl L c).pending = s.pending := rfl

/-! ### setCx -/

@[simp] theorem setCx_regs (k : Nat) (x : Ctx) : (s.setCx k x).regs = s.regs := rfl
@[simp] theorem setCx_rwt (k : Nat) (x : Ctx) : (s.setCx k x).rwt = s.rwt := rfl
@[simp] theorem setCx_low (k : Nat) (x : Ctx) : (s.setCx k x).low = s.low := rfl
@[simp] theorem setCx_tally (k : Nat) (x : Ctx) : (s.setCx k x).tally = s.tally := rfl
@[simp] theorem setCx_clusters (k : Nat) (x : Ctx) : (s.setCx k x).clusters = s.clusters := rfl
@[simp] theorem setCx_ctxs (k : Nat) (x : Ctx) : (s.setCx k x).ctxs = mput (fun _ => Ctx.init) s.ctxs k x := rfl
@[simp] theorem setCx_placer (k : Nat) (x : Ctx) : (s.setCx k x).placer = s.placer := rfl
@[simp] theorem setCx_mesh (k : Nat) (x : Ctx) : (s.setCx k x).mesh = s.mesh := rfl
@[simp] theorem setCx_fabric (k : Nat) (x : Ctx) : (s.setCx k x).fabric = s.fabric := rfl
@[simp] theorem setCx_memory (k : Nat) (x : Ctx) : (s.setCx k x).memory = s.memory := rfl
@[simp] theorem setCx_domains (k : Nat) (x : Ctx) : (s.setCx k x).domains = s.domains := rfl
@[simp] theorem setCx_nose (k : Nat) (x : Ctx) : (s.setCx k x).nose = s.nose := rfl
@[simp] theorem setCx_host (k : Nat) (x : Ctx) : (s.setCx k x).host = s.host := rfl
@[simp] theorem setCx_security (k : Nat) (x : Ctx) : (s.setCx k x).security = s.security := rfl
@[simp] theorem setCx_imageJob (k : Nat) (x : Ctx) : (s.setCx k x).imageJob = s.imageJob := rfl
@[simp] theorem setCx_power (k : Nat) (x : Ctx) : (s.setCx k x).power = s.power := rfl
@[simp] theorem setCx_test (k : Nat) (x : Ctx) : (s.setCx k x).test = s.test := rfl
@[simp] theorem setCx_recovery (k : Nat) (x : Ctx) : (s.setCx k x).recovery = s.recovery := rfl
@[simp] theorem setCx_bringUp (k : Nat) (x : Ctx) : (s.setCx k x).bringUp = s.bringUp := rfl
@[simp] theorem setCx_fresh (k : Nat) (x : Ctx) : (s.setCx k x).fresh = s.fresh := rfl
@[simp] theorem setCx_hostMem (k : Nat) (x : Ctx) : (s.setCx k x).hostMem = s.hostMem := rfl
@[simp] theorem setCx_hostPoison (k : Nat) (x : Ctx) : (s.setCx k x).hostPoison = s.hostPoison := rfl
@[simp] theorem setCx_out (k : Nat) (x : Ctx) : (s.setCx k x).out = s.out := rfl
@[simp] theorem setCx_pending (k : Nat) (x : Ctx) : (s.setCx k x).pending = s.pending := rfl

/-! ### setSite -/

@[simp] theorem setSite_regs (n : Nat) (x : Site) : (s.setSite n x).regs = s.regs := rfl
@[simp] theorem setSite_rwt (n : Nat) (x : Site) : (s.setSite n x).rwt = s.rwt := rfl
@[simp] theorem setSite_low (n : Nat) (x : Site) : (s.setSite n x).low = s.low := rfl
@[simp] theorem setSite_tally (n : Nat) (x : Site) : (s.setSite n x).tally = s.tally := rfl
@[simp] theorem setSite_clusters (n : Nat) (x : Site) : (s.setSite n x).clusters = s.clusters := rfl
@[simp] theorem setSite_ctxs (n : Nat) (x : Site) : (s.setSite n x).ctxs = s.ctxs := rfl
@[simp] theorem setSite_placer (n : Nat) (x : Site) : (s.setSite n x).placer = { s.placer with sites := mput (fun _ => Site.init) s.placer.sites n x } := rfl
@[simp] theorem setSite_mesh (n : Nat) (x : Site) : (s.setSite n x).mesh = s.mesh := rfl
@[simp] theorem setSite_fabric (n : Nat) (x : Site) : (s.setSite n x).fabric = s.fabric := rfl
@[simp] theorem setSite_memory (n : Nat) (x : Site) : (s.setSite n x).memory = s.memory := rfl
@[simp] theorem setSite_domains (n : Nat) (x : Site) : (s.setSite n x).domains = s.domains := rfl
@[simp] theorem setSite_nose (n : Nat) (x : Site) : (s.setSite n x).nose = s.nose := rfl
@[simp] theorem setSite_host (n : Nat) (x : Site) : (s.setSite n x).host = s.host := rfl
@[simp] theorem setSite_security (n : Nat) (x : Site) : (s.setSite n x).security = s.security := rfl
@[simp] theorem setSite_imageJob (n : Nat) (x : Site) : (s.setSite n x).imageJob = s.imageJob := rfl
@[simp] theorem setSite_power (n : Nat) (x : Site) : (s.setSite n x).power = s.power := rfl
@[simp] theorem setSite_test (n : Nat) (x : Site) : (s.setSite n x).test = s.test := rfl
@[simp] theorem setSite_recovery (n : Nat) (x : Site) : (s.setSite n x).recovery = s.recovery := rfl
@[simp] theorem setSite_bringUp (n : Nat) (x : Site) : (s.setSite n x).bringUp = s.bringUp := rfl
@[simp] theorem setSite_fresh (n : Nat) (x : Site) : (s.setSite n x).fresh = s.fresh := rfl
@[simp] theorem setSite_hostMem (n : Nat) (x : Site) : (s.setSite n x).hostMem = s.hostMem := rfl
@[simp] theorem setSite_hostPoison (n : Nat) (x : Site) : (s.setSite n x).hostPoison = s.hostPoison := rfl
@[simp] theorem setSite_out (n : Nat) (x : Site) : (s.setSite n x).out = s.out := rfl
@[simp] theorem setSite_pending (n : Nat) (x : Site) : (s.setSite n x).pending = s.pending := rfl

/-! ### setOwner -/

@[simp] theorem setOwner_regs (L : Nat) (c : Option Nat) : (s.setOwner L c).regs = s.regs := rfl
@[simp] theorem setOwner_rwt (L : Nat) (c : Option Nat) : (s.setOwner L c).rwt = s.rwt := rfl
@[simp] theorem setOwner_low (L : Nat) (c : Option Nat) : (s.setOwner L c).low = s.low := rfl
@[simp] theorem setOwner_tally (L : Nat) (c : Option Nat) : (s.setOwner L c).tally = s.tally := rfl
@[simp] theorem setOwner_clusters (L : Nat) (c : Option Nat) : (s.setOwner L c).clusters = s.clusters := rfl
@[simp] theorem setOwner_ctxs (L : Nat) (c : Option Nat) : (s.setOwner L c).ctxs = s.ctxs := rfl
@[simp] theorem setOwner_placer (L : Nat) (c : Option Nat) : (s.setOwner L c).placer = { s.placer with reserved := mput (fun _ => none) s.placer.reserved L c } := rfl
@[simp] theorem setOwner_mesh (L : Nat) (c : Option Nat) : (s.setOwner L c).mesh = s.mesh := rfl
@[simp] theorem setOwner_fabric (L : Nat) (c : Option Nat) : (s.setOwner L c).fabric = s.fabric := rfl
@[simp] theorem setOwner_memory (L : Nat) (c : Option Nat) : (s.setOwner L c).memory = s.memory := rfl
@[simp] theorem setOwner_domains (L : Nat) (c : Option Nat) : (s.setOwner L c).domains = s.domains := rfl
@[simp] theorem setOwner_nose (L : Nat) (c : Option Nat) : (s.setOwner L c).nose = s.nose := rfl
@[simp] theorem setOwner_host (L : Nat) (c : Option Nat) : (s.setOwner L c).host = s.host := rfl
@[simp] theorem setOwner_security (L : Nat) (c : Option Nat) : (s.setOwner L c).security = s.security := rfl
@[simp] theorem setOwner_imageJob (L : Nat) (c : Option Nat) : (s.setOwner L c).imageJob = s.imageJob := rfl
@[simp] theorem setOwner_power (L : Nat) (c : Option Nat) : (s.setOwner L c).power = s.power := rfl
@[simp] theorem setOwner_test (L : Nat) (c : Option Nat) : (s.setOwner L c).test = s.test := rfl
@[simp] theorem setOwner_recovery (L : Nat) (c : Option Nat) : (s.setOwner L c).recovery = s.recovery := rfl
@[simp] theorem setOwner_bringUp (L : Nat) (c : Option Nat) : (s.setOwner L c).bringUp = s.bringUp := rfl
@[simp] theorem setOwner_fresh (L : Nat) (c : Option Nat) : (s.setOwner L c).fresh = s.fresh := rfl
@[simp] theorem setOwner_hostMem (L : Nat) (c : Option Nat) : (s.setOwner L c).hostMem = s.hostMem := rfl
@[simp] theorem setOwner_hostPoison (L : Nat) (c : Option Nat) : (s.setOwner L c).hostPoison = s.hostPoison := rfl
@[simp] theorem setOwner_out (L : Nat) (c : Option Nat) : (s.setOwner L c).out = s.out := rfl
@[simp] theorem setOwner_pending (L : Nat) (c : Option Nat) : (s.setOwner L c).pending = s.pending := rfl

/-! ### setDomain -/

@[simp] theorem setDomain_regs (k : Nat) (d : Domain) : (s.setDomain k d).regs = s.regs := rfl
@[simp] theorem setDomain_rwt (k : Nat) (d : Domain) : (s.setDomain k d).rwt = s.rwt := rfl
@[simp] theorem setDomain_low (k : Nat) (d : Domain) : (s.setDomain k d).low = s.low := rfl
@[simp] theorem setDomain_tally (k : Nat) (d : Domain) : (s.setDomain k d).tally = s.tally := rfl
@[simp] theorem setDomain_clusters (k : Nat) (d : Domain) : (s.setDomain k d).clusters = s.clusters := rfl
@[simp] theorem setDomain_ctxs (k : Nat) (d : Domain) : (s.setDomain k d).ctxs = s.ctxs := rfl
@[simp] theorem setDomain_placer (k : Nat) (d : Domain) : (s.setDomain k d).placer = s.placer := rfl
@[simp] theorem setDomain_mesh (k : Nat) (d : Domain) : (s.setDomain k d).mesh = s.mesh := rfl
@[simp] theorem setDomain_fabric (k : Nat) (d : Domain) : (s.setDomain k d).fabric = s.fabric := rfl
@[simp] theorem setDomain_memory (k : Nat) (d : Domain) : (s.setDomain k d).memory = s.memory := rfl
@[simp] theorem setDomain_domains (k : Nat) (d : Domain) : (s.setDomain k d).domains = mput domDefault s.domains k d := rfl
@[simp] theorem setDomain_nose (k : Nat) (d : Domain) : (s.setDomain k d).nose = s.nose := rfl
@[simp] theorem setDomain_host (k : Nat) (d : Domain) : (s.setDomain k d).host = s.host := rfl
@[simp] theorem setDomain_security (k : Nat) (d : Domain) : (s.setDomain k d).security = s.security := rfl
@[simp] theorem setDomain_imageJob (k : Nat) (d : Domain) : (s.setDomain k d).imageJob = s.imageJob := rfl
@[simp] theorem setDomain_power (k : Nat) (d : Domain) : (s.setDomain k d).power = s.power := rfl
@[simp] theorem setDomain_test (k : Nat) (d : Domain) : (s.setDomain k d).test = s.test := rfl
@[simp] theorem setDomain_recovery (k : Nat) (d : Domain) : (s.setDomain k d).recovery = s.recovery := rfl
@[simp] theorem setDomain_bringUp (k : Nat) (d : Domain) : (s.setDomain k d).bringUp = s.bringUp := rfl
@[simp] theorem setDomain_fresh (k : Nat) (d : Domain) : (s.setDomain k d).fresh = s.fresh := rfl
@[simp] theorem setDomain_hostMem (k : Nat) (d : Domain) : (s.setDomain k d).hostMem = s.hostMem := rfl
@[simp] theorem setDomain_hostPoison (k : Nat) (d : Domain) : (s.setDomain k d).hostPoison = s.hostPoison := rfl
@[simp] theorem setDomain_out (k : Nat) (d : Domain) : (s.setDomain k d).out = s.out := rfl
@[simp] theorem setDomain_pending (k : Nat) (d : Domain) : (s.setDomain k d).pending = s.pending := rfl

/-! ### rset -/

@[simp] theorem rset_rwt (r : Reg) (i : Nat) (v : DWord) : (s.rset r i v).rwt = s.rwt := rfl
@[simp] theorem rset_low (r : Reg) (i : Nat) (v : DWord) : (s.rset r i v).low = s.low := rfl
@[simp] theorem rset_tally (r : Reg) (i : Nat) (v : DWord) : (s.rset r i v).tally = s.tally := rfl
@[simp] theorem rset_clusters (r : Reg) (i : Nat) (v : DWord) : (s.rset r i v).clusters = s.clusters := rfl
@[simp] theorem rset_ctxs (r : Reg) (i : Nat) (v : DWord) : (s.rset r i v).ctxs = s.ctxs := rfl
@[simp] theorem rset_placer (r : Reg) (i : Nat) (v : DWord) : (s.rset r i v).placer = s.placer := rfl
@[simp] theorem rset_mesh (r : Reg) (i : Nat) (v : DWord) : (s.rset r i v).mesh = s.mesh := rfl
@[simp] theorem rset_fabric (r : Reg) (i : Nat) (v : DWord) : (s.rset r i v).fabric = s.fabric := rfl
@[simp] theorem rset_memory (r : Reg) (i : Nat) (v : DWord) : (s.rset r i v).memory = s.memory := rfl
@[simp] theorem rset_domains (r : Reg) (i : Nat) (v : DWord) : (s.rset r i v).domains = s.domains := rfl
@[simp] theorem rset_nose (r : Reg) (i : Nat) (v : DWord) : (s.rset r i v).nose = s.nose := rfl
@[simp] theorem rset_host (r : Reg) (i : Nat) (v : DWord) : (s.rset r i v).host = s.host := rfl
@[simp] theorem rset_security (r : Reg) (i : Nat) (v : DWord) : (s.rset r i v).security = s.security := rfl
@[simp] theorem rset_imageJob (r : Reg) (i : Nat) (v : DWord) : (s.rset r i v).imageJob = s.imageJob := rfl
@[simp] theorem rset_power (r : Reg) (i : Nat) (v : DWord) : (s.rset r i v).power = s.power := rfl
@[simp] theorem rset_test (r : Reg) (i : Nat) (v : DWord) : (s.rset r i v).test = s.test := rfl
@[simp] theorem rset_recovery (r : Reg) (i : Nat) (v : DWord) : (s.rset r i v).recovery = s.recovery := rfl
@[simp] theorem rset_bringUp (r : Reg) (i : Nat) (v : DWord) : (s.rset r i v).bringUp = s.bringUp := rfl
@[simp] theorem rset_fresh (r : Reg) (i : Nat) (v : DWord) : (s.rset r i v).fresh = s.fresh := rfl
@[simp] theorem rset_hostMem (r : Reg) (i : Nat) (v : DWord) : (s.rset r i v).hostMem = s.hostMem := rfl
@[simp] theorem rset_hostPoison (r : Reg) (i : Nat) (v : DWord) : (s.rset r i v).hostPoison = s.hostPoison := rfl
@[simp] theorem rset_out (r : Reg) (i : Nat) (v : DWord) : (s.rset r i v).out = s.out := rfl
@[simp] theorem rset_pending (r : Reg) (i : Nat) (v : DWord) : (s.rset r i v).pending = s.pending := rfl

/-! ### fset -/

@[simp] theorem fset_regs (f : Fld) (i x : Nat) : (s.fset f i x).regs = (s.rset f.reg i (withField (s.rget f.reg i) f.hi f.lo x)).regs := rfl
@[simp] theorem fset_rwt (f : Fld) (i x : Nat) : (s.fset f i x).rwt = s.rwt := rfl
@[simp] theorem fset_low (f : Fld) (i x : Nat) : (s.fset f i x).low = s.low := rfl
@[simp] theorem fset_tally (f : Fld) (i x : Nat) : (s.fset f i x).tally = s.tally := rfl
@[simp] theorem fset_clusters (f : Fld) (i x : Nat) : (s.fset f i x).clusters = s.clusters := rfl
@[simp] theorem fset_ctxs (f : Fld) (i x : Nat) : (s.fset f i x).ctxs = s.ctxs := rfl
@[simp] theorem fset_placer (f : Fld) (i x : Nat) : (s.fset f i x).placer = s.placer := rfl
@[simp] theorem fset_mesh (f : Fld) (i x : Nat) : (s.fset f i x).mesh = s.mesh := rfl
@[simp] theorem fset_fabric (f : Fld) (i x : Nat) : (s.fset f i x).fabric = s.fabric := rfl
@[simp] theorem fset_memory (f : Fld) (i x : Nat) : (s.fset f i x).memory = s.memory := rfl
@[simp] theorem fset_domains (f : Fld) (i x : Nat) : (s.fset f i x).domains = s.domains := rfl
@[simp] theorem fset_nose (f : Fld) (i x : Nat) : (s.fset f i x).nose = s.nose := rfl
@[simp] theorem fset_host (f : Fld) (i x : Nat) : (s.fset f i x).host = s.host := rfl
@[simp] theorem fset_security (f : Fld) (i x : Nat) : (s.fset f i x).security = s.security := rfl
@[simp] theorem fset_imageJob (f : Fld) (i x : Nat) : (s.fset f i x).imageJob = s.imageJob := rfl
@[simp] theorem fset_power (f : Fld) (i x : Nat) : (s.fset f i x).power = s.power := rfl
@[simp] theorem fset_test (f : Fld) (i x : Nat) : (s.fset f i x).test = s.test := rfl
@[simp] theorem fset_recovery (f : Fld) (i x : Nat) : (s.fset f i x).recovery = s.recovery := rfl
@[simp] theorem fset_bringUp (f : Fld) (i x : Nat) : (s.fset f i x).bringUp = s.bringUp := rfl
@[simp] theorem fset_fresh (f : Fld) (i x : Nat) : (s.fset f i x).fresh = s.fresh := rfl
@[simp] theorem fset_hostMem (f : Fld) (i x : Nat) : (s.fset f i x).hostMem = s.hostMem := rfl
@[simp] theorem fset_hostPoison (f : Fld) (i x : Nat) : (s.fset f i x).hostPoison = s.hostPoison := rfl
@[simp] theorem fset_out (f : Fld) (i x : Nat) : (s.fset f i x).out = s.out := rfl
@[simp] theorem fset_pending (f : Fld) (i x : Nat) : (s.fset f i x).pending = s.pending := rfl

/-! ### setFp -/

@[simp] theorem setFp_regs (n : Nat) (p : FabPort) : (s.setFp n p).regs = s.regs := rfl
@[simp] theorem setFp_rwt (n : Nat) (p : FabPort) : (s.setFp n p).rwt = s.rwt := rfl
@[simp] theorem setFp_low (n : Nat) (p : FabPort) : (s.setFp n p).low = s.low := rfl
@[simp] theorem setFp_tally (n : Nat) (p : FabPort) : (s.setFp n p).tally = s.tally := rfl
@[simp] theorem setFp_clusters (n : Nat) (p : FabPort) : (s.setFp n p).clusters = s.clusters := rfl
@[simp] theorem setFp_ctxs (n : Nat) (p : FabPort) : (s.setFp n p).ctxs = s.ctxs := rfl
@[simp] theorem setFp_placer (n : Nat) (p : FabPort) : (s.setFp n p).placer = s.placer := rfl
@[simp] theorem setFp_mesh (n : Nat) (p : FabPort) : (s.setFp n p).mesh = s.mesh := rfl
@[simp] theorem setFp_fabric (n : Nat) (p : FabPort) : (s.setFp n p).fabric = { s.fabric with ports := mput (fun _ => FabPort.init) s.fabric.ports n p } := rfl
@[simp] theorem setFp_memory (n : Nat) (p : FabPort) : (s.setFp n p).memory = s.memory := rfl
@[simp] theorem setFp_domains (n : Nat) (p : FabPort) : (s.setFp n p).domains = s.domains := rfl
@[simp] theorem setFp_nose (n : Nat) (p : FabPort) : (s.setFp n p).nose = s.nose := rfl
@[simp] theorem setFp_host (n : Nat) (p : FabPort) : (s.setFp n p).host = s.host := rfl
@[simp] theorem setFp_security (n : Nat) (p : FabPort) : (s.setFp n p).security = s.security := rfl
@[simp] theorem setFp_imageJob (n : Nat) (p : FabPort) : (s.setFp n p).imageJob = s.imageJob := rfl
@[simp] theorem setFp_power (n : Nat) (p : FabPort) : (s.setFp n p).power = s.power := rfl
@[simp] theorem setFp_test (n : Nat) (p : FabPort) : (s.setFp n p).test = s.test := rfl
@[simp] theorem setFp_recovery (n : Nat) (p : FabPort) : (s.setFp n p).recovery = s.recovery := rfl
@[simp] theorem setFp_bringUp (n : Nat) (p : FabPort) : (s.setFp n p).bringUp = s.bringUp := rfl
@[simp] theorem setFp_fresh (n : Nat) (p : FabPort) : (s.setFp n p).fresh = s.fresh := rfl
@[simp] theorem setFp_hostMem (n : Nat) (p : FabPort) : (s.setFp n p).hostMem = s.hostMem := rfl
@[simp] theorem setFp_hostPoison (n : Nat) (p : FabPort) : (s.setFp n p).hostPoison = s.hostPoison := rfl
@[simp] theorem setFp_out (n : Nat) (p : FabPort) : (s.setFp n p).out = s.out := rfl
@[simp] theorem setFp_pending (n : Nat) (p : FabPort) : (s.setFp n p).pending = s.pending := rfl

/-! ### setBinding -/

@[simp] theorem setBinding_regs (k : Nat) (b : Binding) : (s.setBinding k b).regs = s.regs := rfl
@[simp] theorem setBinding_rwt (k : Nat) (b : Binding) : (s.setBinding k b).rwt = s.rwt := rfl
@[simp] theorem setBinding_low (k : Nat) (b : Binding) : (s.setBinding k b).low = s.low := rfl
@[simp] theorem setBinding_tally (k : Nat) (b : Binding) : (s.setBinding k b).tally = s.tally := rfl
@[simp] theorem setBinding_clusters (k : Nat) (b : Binding) : (s.setBinding k b).clusters = s.clusters := rfl
@[simp] theorem setBinding_ctxs (k : Nat) (b : Binding) : (s.setBinding k b).ctxs = s.ctxs := rfl
@[simp] theorem setBinding_placer (k : Nat) (b : Binding) : (s.setBinding k b).placer = s.placer := rfl
@[simp] theorem setBinding_mesh (k : Nat) (b : Binding) : (s.setBinding k b).mesh = s.mesh := rfl
@[simp] theorem setBinding_fabric (k : Nat) (b : Binding) : (s.setBinding k b).fabric = { s.fabric with binds := mput (fun _ => Binding.init) s.fabric.binds k b } := rfl
@[simp] theorem setBinding_memory (k : Nat) (b : Binding) : (s.setBinding k b).memory = s.memory := rfl
@[simp] theorem setBinding_domains (k : Nat) (b : Binding) : (s.setBinding k b).domains = s.domains := rfl
@[simp] theorem setBinding_nose (k : Nat) (b : Binding) : (s.setBinding k b).nose = s.nose := rfl
@[simp] theorem setBinding_host (k : Nat) (b : Binding) : (s.setBinding k b).host = s.host := rfl
@[simp] theorem setBinding_security (k : Nat) (b : Binding) : (s.setBinding k b).security = s.security := rfl
@[simp] theorem setBinding_imageJob (k : Nat) (b : Binding) : (s.setBinding k b).imageJob = s.imageJob := rfl
@[simp] theorem setBinding_power (k : Nat) (b : Binding) : (s.setBinding k b).power = s.power := rfl
@[simp] theorem setBinding_test (k : Nat) (b : Binding) : (s.setBinding k b).test = s.test := rfl
@[simp] theorem setBinding_recovery (k : Nat) (b : Binding) : (s.setBinding k b).recovery = s.recovery := rfl
@[simp] theorem setBinding_bringUp (k : Nat) (b : Binding) : (s.setBinding k b).bringUp = s.bringUp := rfl
@[simp] theorem setBinding_fresh (k : Nat) (b : Binding) : (s.setBinding k b).fresh = s.fresh := rfl
@[simp] theorem setBinding_hostMem (k : Nat) (b : Binding) : (s.setBinding k b).hostMem = s.hostMem := rfl
@[simp] theorem setBinding_hostPoison (k : Nat) (b : Binding) : (s.setBinding k b).hostPoison = s.hostPoison := rfl
@[simp] theorem setBinding_out (k : Nat) (b : Binding) : (s.setBinding k b).out = s.out := rfl
@[simp] theorem setBinding_pending (k : Nat) (b : Binding) : (s.setBinding k b).pending = s.pending := rfl

/-! ### setHost -/

@[simp] theorem setHost_regs (h : HostIf) : (s.setHost h).regs = s.regs := rfl
@[simp] theorem setHost_rwt (h : HostIf) : (s.setHost h).rwt = s.rwt := rfl
@[simp] theorem setHost_low (h : HostIf) : (s.setHost h).low = s.low := rfl
@[simp] theorem setHost_tally (h : HostIf) : (s.setHost h).tally = s.tally := rfl
@[simp] theorem setHost_clusters (h : HostIf) : (s.setHost h).clusters = s.clusters := rfl
@[simp] theorem setHost_ctxs (h : HostIf) : (s.setHost h).ctxs = s.ctxs := rfl
@[simp] theorem setHost_placer (h : HostIf) : (s.setHost h).placer = s.placer := rfl
@[simp] theorem setHost_mesh (h : HostIf) : (s.setHost h).mesh = s.mesh := rfl
@[simp] theorem setHost_fabric (h : HostIf) : (s.setHost h).fabric = s.fabric := rfl
@[simp] theorem setHost_memory (h : HostIf) : (s.setHost h).memory = s.memory := rfl
@[simp] theorem setHost_domains (h : HostIf) : (s.setHost h).domains = s.domains := rfl
@[simp] theorem setHost_nose (h : HostIf) : (s.setHost h).nose = s.nose := rfl
@[simp] theorem setHost_host (h : HostIf) : (s.setHost h).host = h := rfl
@[simp] theorem setHost_security (h : HostIf) : (s.setHost h).security = s.security := rfl
@[simp] theorem setHost_imageJob (h : HostIf) : (s.setHost h).imageJob = s.imageJob := rfl
@[simp] theorem setHost_power (h : HostIf) : (s.setHost h).power = s.power := rfl
@[simp] theorem setHost_test (h : HostIf) : (s.setHost h).test = s.test := rfl
@[simp] theorem setHost_recovery (h : HostIf) : (s.setHost h).recovery = s.recovery := rfl
@[simp] theorem setHost_bringUp (h : HostIf) : (s.setHost h).bringUp = s.bringUp := rfl
@[simp] theorem setHost_fresh (h : HostIf) : (s.setHost h).fresh = s.fresh := rfl
@[simp] theorem setHost_hostMem (h : HostIf) : (s.setHost h).hostMem = s.hostMem := rfl
@[simp] theorem setHost_hostPoison (h : HostIf) : (s.setHost h).hostPoison = s.hostPoison := rfl
@[simp] theorem setHost_out (h : HostIf) : (s.setHost h).out = s.out := rfl
@[simp] theorem setHost_pending (h : HostIf) : (s.setHost h).pending = s.pending := rfl

/-! ### setSec -/

@[simp] theorem setSec_regs (x : Security) : (s.setSec x).regs = s.regs := rfl
@[simp] theorem setSec_rwt (x : Security) : (s.setSec x).rwt = s.rwt := rfl
@[simp] theorem setSec_low (x : Security) : (s.setSec x).low = s.low := rfl
@[simp] theorem setSec_tally (x : Security) : (s.setSec x).tally = s.tally := rfl
@[simp] theorem setSec_clusters (x : Security) : (s.setSec x).clusters = s.clusters := rfl
@[simp] theorem setSec_ctxs (x : Security) : (s.setSec x).ctxs = s.ctxs := rfl
@[simp] theorem setSec_placer (x : Security) : (s.setSec x).placer = s.placer := rfl
@[simp] theorem setSec_mesh (x : Security) : (s.setSec x).mesh = s.mesh := rfl
@[simp] theorem setSec_fabric (x : Security) : (s.setSec x).fabric = s.fabric := rfl
@[simp] theorem setSec_memory (x : Security) : (s.setSec x).memory = s.memory := rfl
@[simp] theorem setSec_domains (x : Security) : (s.setSec x).domains = s.domains := rfl
@[simp] theorem setSec_nose (x : Security) : (s.setSec x).nose = s.nose := rfl
@[simp] theorem setSec_host (x : Security) : (s.setSec x).host = s.host := rfl
@[simp] theorem setSec_security (x : Security) : (s.setSec x).security = x := rfl
@[simp] theorem setSec_imageJob (x : Security) : (s.setSec x).imageJob = s.imageJob := rfl
@[simp] theorem setSec_power (x : Security) : (s.setSec x).power = s.power := rfl
@[simp] theorem setSec_test (x : Security) : (s.setSec x).test = s.test := rfl
@[simp] theorem setSec_recovery (x : Security) : (s.setSec x).recovery = s.recovery := rfl
@[simp] theorem setSec_bringUp (x : Security) : (s.setSec x).bringUp = s.bringUp := rfl
@[simp] theorem setSec_fresh (x : Security) : (s.setSec x).fresh = s.fresh := rfl
@[simp] theorem setSec_hostMem (x : Security) : (s.setSec x).hostMem = s.hostMem := rfl
@[simp] theorem setSec_hostPoison (x : Security) : (s.setSec x).hostPoison = s.hostPoison := rfl
@[simp] theorem setSec_out (x : Security) : (s.setSec x).out = s.out := rfl
@[simp] theorem setSec_pending (x : Security) : (s.setSec x).pending = s.pending := rfl

/-! ### setNose -/

@[simp] theorem setNose_regs (x : Nose) : (s.setNose x).regs = s.regs := rfl
@[simp] theorem setNose_rwt (x : Nose) : (s.setNose x).rwt = s.rwt := rfl
@[simp] theorem setNose_low (x : Nose) : (s.setNose x).low = s.low := rfl
@[simp] theorem setNose_tally (x : Nose) : (s.setNose x).tally = s.tally := rfl
@[simp] theorem setNose_clusters (x : Nose) : (s.setNose x).clusters = s.clusters := rfl
@[simp] theorem setNose_ctxs (x : Nose) : (s.setNose x).ctxs = s.ctxs := rfl
@[simp] theorem setNose_placer (x : Nose) : (s.setNose x).placer = s.placer := rfl
@[simp] theorem setNose_mesh (x : Nose) : (s.setNose x).mesh = s.mesh := rfl
@[simp] theorem setNose_fabric (x : Nose) : (s.setNose x).fabric = s.fabric := rfl
@[simp] theorem setNose_memory (x : Nose) : (s.setNose x).memory = s.memory := rfl
@[simp] theorem setNose_domains (x : Nose) : (s.setNose x).domains = s.domains := rfl
@[simp] theorem setNose_nose (x : Nose) : (s.setNose x).nose = x := rfl
@[simp] theorem setNose_host (x : Nose) : (s.setNose x).host = s.host := rfl
@[simp] theorem setNose_security (x : Nose) : (s.setNose x).security = s.security := rfl
@[simp] theorem setNose_imageJob (x : Nose) : (s.setNose x).imageJob = s.imageJob := rfl
@[simp] theorem setNose_power (x : Nose) : (s.setNose x).power = s.power := rfl
@[simp] theorem setNose_test (x : Nose) : (s.setNose x).test = s.test := rfl
@[simp] theorem setNose_recovery (x : Nose) : (s.setNose x).recovery = s.recovery := rfl
@[simp] theorem setNose_bringUp (x : Nose) : (s.setNose x).bringUp = s.bringUp := rfl
@[simp] theorem setNose_fresh (x : Nose) : (s.setNose x).fresh = s.fresh := rfl
@[simp] theorem setNose_hostMem (x : Nose) : (s.setNose x).hostMem = s.hostMem := rfl
@[simp] theorem setNose_hostPoison (x : Nose) : (s.setNose x).hostPoison = s.hostPoison := rfl
@[simp] theorem setNose_out (x : Nose) : (s.setNose x).out = s.out := rfl
@[simp] theorem setNose_pending (x : Nose) : (s.setNose x).pending = s.pending := rfl

/-! ### setPower -/

@[simp] theorem setPower_regs (x : Power) : (s.setPower x).regs = s.regs := rfl
@[simp] theorem setPower_rwt (x : Power) : (s.setPower x).rwt = s.rwt := rfl
@[simp] theorem setPower_low (x : Power) : (s.setPower x).low = s.low := rfl
@[simp] theorem setPower_tally (x : Power) : (s.setPower x).tally = s.tally := rfl
@[simp] theorem setPower_clusters (x : Power) : (s.setPower x).clusters = s.clusters := rfl
@[simp] theorem setPower_ctxs (x : Power) : (s.setPower x).ctxs = s.ctxs := rfl
@[simp] theorem setPower_placer (x : Power) : (s.setPower x).placer = s.placer := rfl
@[simp] theorem setPower_mesh (x : Power) : (s.setPower x).mesh = s.mesh := rfl
@[simp] theorem setPower_fabric (x : Power) : (s.setPower x).fabric = s.fabric := rfl
@[simp] theorem setPower_memory (x : Power) : (s.setPower x).memory = s.memory := rfl
@[simp] theorem setPower_domains (x : Power) : (s.setPower x).domains = s.domains := rfl
@[simp] theorem setPower_nose (x : Power) : (s.setPower x).nose = s.nose := rfl
@[simp] theorem setPower_host (x : Power) : (s.setPower x).host = s.host := rfl
@[simp] theorem setPower_security (x : Power) : (s.setPower x).security = s.security := rfl
@[simp] theorem setPower_imageJob (x : Power) : (s.setPower x).imageJob = s.imageJob := rfl
@[simp] theorem setPower_power (x : Power) : (s.setPower x).power = x := rfl
@[simp] theorem setPower_test (x : Power) : (s.setPower x).test = s.test := rfl
@[simp] theorem setPower_recovery (x : Power) : (s.setPower x).recovery = s.recovery := rfl
@[simp] theorem setPower_bringUp (x : Power) : (s.setPower x).bringUp = s.bringUp := rfl
@[simp] theorem setPower_fresh (x : Power) : (s.setPower x).fresh = s.fresh := rfl
@[simp] theorem setPower_hostMem (x : Power) : (s.setPower x).hostMem = s.hostMem := rfl
@[simp] theorem setPower_hostPoison (x : Power) : (s.setPower x).hostPoison = s.hostPoison := rfl
@[simp] theorem setPower_out (x : Power) : (s.setPower x).out = s.out := rfl
@[simp] theorem setPower_pending (x : Power) : (s.setPower x).pending = s.pending := rfl

/-! ### setTest -/

@[simp] theorem setTest_regs (x : SelfTest) : (s.setTest x).regs = s.regs := rfl
@[simp] theorem setTest_rwt (x : SelfTest) : (s.setTest x).rwt = s.rwt := rfl
@[simp] theorem setTest_low (x : SelfTest) : (s.setTest x).low = s.low := rfl
@[simp] theorem setTest_tally (x : SelfTest) : (s.setTest x).tally = s.tally := rfl
@[simp] theorem setTest_clusters (x : SelfTest) : (s.setTest x).clusters = s.clusters := rfl
@[simp] theorem setTest_ctxs (x : SelfTest) : (s.setTest x).ctxs = s.ctxs := rfl
@[simp] theorem setTest_placer (x : SelfTest) : (s.setTest x).placer = s.placer := rfl
@[simp] theorem setTest_mesh (x : SelfTest) : (s.setTest x).mesh = s.mesh := rfl
@[simp] theorem setTest_fabric (x : SelfTest) : (s.setTest x).fabric = s.fabric := rfl
@[simp] theorem setTest_memory (x : SelfTest) : (s.setTest x).memory = s.memory := rfl
@[simp] theorem setTest_domains (x : SelfTest) : (s.setTest x).domains = s.domains := rfl
@[simp] theorem setTest_nose (x : SelfTest) : (s.setTest x).nose = s.nose := rfl
@[simp] theorem setTest_host (x : SelfTest) : (s.setTest x).host = s.host := rfl
@[simp] theorem setTest_security (x : SelfTest) : (s.setTest x).security = s.security := rfl
@[simp] theorem setTest_imageJob (x : SelfTest) : (s.setTest x).imageJob = s.imageJob := rfl
@[simp] theorem setTest_power (x : SelfTest) : (s.setTest x).power = s.power := rfl
@[simp] theorem setTest_test (x : SelfTest) : (s.setTest x).test = x := rfl
@[simp] theorem setTest_recovery (x : SelfTest) : (s.setTest x).recovery = s.recovery := rfl
@[simp] theorem setTest_bringUp (x : SelfTest) : (s.setTest x).bringUp = s.bringUp := rfl
@[simp] theorem setTest_fresh (x : SelfTest) : (s.setTest x).fresh = s.fresh := rfl
@[simp] theorem setTest_hostMem (x : SelfTest) : (s.setTest x).hostMem = s.hostMem := rfl
@[simp] theorem setTest_hostPoison (x : SelfTest) : (s.setTest x).hostPoison = s.hostPoison := rfl
@[simp] theorem setTest_out (x : SelfTest) : (s.setTest x).out = s.out := rfl
@[simp] theorem setTest_pending (x : SelfTest) : (s.setTest x).pending = s.pending := rfl

/-! ### setRecovery -/

@[simp] theorem setRecovery_regs (x : Recovery) : (s.setRecovery x).regs = s.regs := rfl
@[simp] theorem setRecovery_rwt (x : Recovery) : (s.setRecovery x).rwt = s.rwt := rfl
@[simp] theorem setRecovery_low (x : Recovery) : (s.setRecovery x).low = s.low := rfl
@[simp] theorem setRecovery_tally (x : Recovery) : (s.setRecovery x).tally = s.tally := rfl
@[simp] theorem setRecovery_clusters (x : Recovery) : (s.setRecovery x).clusters = s.clusters := rfl
@[simp] theorem setRecovery_ctxs (x : Recovery) : (s.setRecovery x).ctxs = s.ctxs := rfl
@[simp] theorem setRecovery_placer (x : Recovery) : (s.setRecovery x).placer = s.placer := rfl
@[simp] theorem setRecovery_mesh (x : Recovery) : (s.setRecovery x).mesh = s.mesh := rfl
@[simp] theorem setRecovery_fabric (x : Recovery) : (s.setRecovery x).fabric = s.fabric := rfl
@[simp] theorem setRecovery_memory (x : Recovery) : (s.setRecovery x).memory = s.memory := rfl
@[simp] theorem setRecovery_domains (x : Recovery) : (s.setRecovery x).domains = s.domains := rfl
@[simp] theorem setRecovery_nose (x : Recovery) : (s.setRecovery x).nose = s.nose := rfl
@[simp] theorem setRecovery_host (x : Recovery) : (s.setRecovery x).host = s.host := rfl
@[simp] theorem setRecovery_security (x : Recovery) : (s.setRecovery x).security = s.security := rfl
@[simp] theorem setRecovery_imageJob (x : Recovery) : (s.setRecovery x).imageJob = s.imageJob := rfl
@[simp] theorem setRecovery_power (x : Recovery) : (s.setRecovery x).power = s.power := rfl
@[simp] theorem setRecovery_test (x : Recovery) : (s.setRecovery x).test = s.test := rfl
@[simp] theorem setRecovery_recovery (x : Recovery) : (s.setRecovery x).recovery = x := rfl
@[simp] theorem setRecovery_bringUp (x : Recovery) : (s.setRecovery x).bringUp = s.bringUp := rfl
@[simp] theorem setRecovery_fresh (x : Recovery) : (s.setRecovery x).fresh = s.fresh := rfl
@[simp] theorem setRecovery_hostMem (x : Recovery) : (s.setRecovery x).hostMem = s.hostMem := rfl
@[simp] theorem setRecovery_hostPoison (x : Recovery) : (s.setRecovery x).hostPoison = s.hostPoison := rfl
@[simp] theorem setRecovery_out (x : Recovery) : (s.setRecovery x).out = s.out := rfl
@[simp] theorem setRecovery_pending (x : Recovery) : (s.setRecovery x).pending = s.pending := rfl

/-! ### setBringUp -/

@[simp] theorem setBringUp_regs (x : BringUp) : (s.setBringUp x).regs = s.regs := rfl
@[simp] theorem setBringUp_rwt (x : BringUp) : (s.setBringUp x).rwt = s.rwt := rfl
@[simp] theorem setBringUp_low (x : BringUp) : (s.setBringUp x).low = s.low := rfl
@[simp] theorem setBringUp_tally (x : BringUp) : (s.setBringUp x).tally = s.tally := rfl
@[simp] theorem setBringUp_clusters (x : BringUp) : (s.setBringUp x).clusters = s.clusters := rfl
@[simp] theorem setBringUp_ctxs (x : BringUp) : (s.setBringUp x).ctxs = s.ctxs := rfl
@[simp] theorem setBringUp_placer (x : BringUp) : (s.setBringUp x).placer = s.placer := rfl
@[simp] theorem setBringUp_mesh (x : BringUp) : (s.setBringUp x).mesh = s.mesh := rfl
@[simp] theorem setBringUp_fabric (x : BringUp) : (s.setBringUp x).fabric = s.fabric := rfl
@[simp] theorem setBringUp_memory (x : BringUp) : (s.setBringUp x).memory = s.memory := rfl
@[simp] theorem setBringUp_domains (x : BringUp) : (s.setBringUp x).domains = s.domains := rfl
@[simp] theorem setBringUp_nose (x : BringUp) : (s.setBringUp x).nose = s.nose := rfl
@[simp] theorem setBringUp_host (x : BringUp) : (s.setBringUp x).host = s.host := rfl
@[simp] theorem setBringUp_security (x : BringUp) : (s.setBringUp x).security = s.security := rfl
@[simp] theorem setBringUp_imageJob (x : BringUp) : (s.setBringUp x).imageJob = s.imageJob := rfl
@[simp] theorem setBringUp_power (x : BringUp) : (s.setBringUp x).power = s.power := rfl
@[simp] theorem setBringUp_test (x : BringUp) : (s.setBringUp x).test = s.test := rfl
@[simp] theorem setBringUp_recovery (x : BringUp) : (s.setBringUp x).recovery = s.recovery := rfl
@[simp] theorem setBringUp_bringUp (x : BringUp) : (s.setBringUp x).bringUp = x := rfl
@[simp] theorem setBringUp_fresh (x : BringUp) : (s.setBringUp x).fresh = s.fresh := rfl
@[simp] theorem setBringUp_hostMem (x : BringUp) : (s.setBringUp x).hostMem = s.hostMem := rfl
@[simp] theorem setBringUp_hostPoison (x : BringUp) : (s.setBringUp x).hostPoison = s.hostPoison := rfl
@[simp] theorem setBringUp_out (x : BringUp) : (s.setBringUp x).out = s.out := rfl
@[simp] theorem setBringUp_pending (x : BringUp) : (s.setBringUp x).pending = s.pending := rfl

/-! ### setTally -/

@[simp] theorem setTally_regs (x : Tally) : (s.setTally x).regs = s.regs := rfl
@[simp] theorem setTally_rwt (x : Tally) : (s.setTally x).rwt = s.rwt := rfl
@[simp] theorem setTally_low (x : Tally) : (s.setTally x).low = s.low := rfl
@[simp] theorem setTally_tally (x : Tally) : (s.setTally x).tally = x := rfl
@[simp] theorem setTally_clusters (x : Tally) : (s.setTally x).clusters = s.clusters := rfl
@[simp] theorem setTally_ctxs (x : Tally) : (s.setTally x).ctxs = s.ctxs := rfl
@[simp] theorem setTally_placer (x : Tally) : (s.setTally x).placer = s.placer := rfl
@[simp] theorem setTally_mesh (x : Tally) : (s.setTally x).mesh = s.mesh := rfl
@[simp] theorem setTally_fabric (x : Tally) : (s.setTally x).fabric = s.fabric := rfl
@[simp] theorem setTally_memory (x : Tally) : (s.setTally x).memory = s.memory := rfl
@[simp] theorem setTally_domains (x : Tally) : (s.setTally x).domains = s.domains := rfl
@[simp] theorem setTally_nose (x : Tally) : (s.setTally x).nose = s.nose := rfl
@[simp] theorem setTally_host (x : Tally) : (s.setTally x).host = s.host := rfl
@[simp] theorem setTally_security (x : Tally) : (s.setTally x).security = s.security := rfl
@[simp] theorem setTally_imageJob (x : Tally) : (s.setTally x).imageJob = s.imageJob := rfl
@[simp] theorem setTally_power (x : Tally) : (s.setTally x).power = s.power := rfl
@[simp] theorem setTally_test (x : Tally) : (s.setTally x).test = s.test := rfl
@[simp] theorem setTally_recovery (x : Tally) : (s.setTally x).recovery = s.recovery := rfl
@[simp] theorem setTally_bringUp (x : Tally) : (s.setTally x).bringUp = s.bringUp := rfl
@[simp] theorem setTally_fresh (x : Tally) : (s.setTally x).fresh = s.fresh := rfl
@[simp] theorem setTally_hostMem (x : Tally) : (s.setTally x).hostMem = s.hostMem := rfl
@[simp] theorem setTally_hostPoison (x : Tally) : (s.setTally x).hostPoison = s.hostPoison := rfl
@[simp] theorem setTally_out (x : Tally) : (s.setTally x).out = s.out := rfl
@[simp] theorem setTally_pending (x : Tally) : (s.setTally x).pending = s.pending := rfl

/-! ### setMem -/

@[simp] theorem setMem_regs (x : Memory) : (s.setMem x).regs = s.regs := rfl
@[simp] theorem setMem_rwt (x : Memory) : (s.setMem x).rwt = s.rwt := rfl
@[simp] theorem setMem_low (x : Memory) : (s.setMem x).low = s.low := rfl
@[simp] theorem setMem_tally (x : Memory) : (s.setMem x).tally = s.tally := rfl
@[simp] theorem setMem_clusters (x : Memory) : (s.setMem x).clusters = s.clusters := rfl
@[simp] theorem setMem_ctxs (x : Memory) : (s.setMem x).ctxs = s.ctxs := rfl
@[simp] theorem setMem_placer (x : Memory) : (s.setMem x).placer = s.placer := rfl
@[simp] theorem setMem_mesh (x : Memory) : (s.setMem x).mesh = s.mesh := rfl
@[simp] theorem setMem_fabric (x : Memory) : (s.setMem x).fabric = s.fabric := rfl
@[simp] theorem setMem_memory (x : Memory) : (s.setMem x).memory = x := rfl
@[simp] theorem setMem_domains (x : Memory) : (s.setMem x).domains = s.domains := rfl
@[simp] theorem setMem_nose (x : Memory) : (s.setMem x).nose = s.nose := rfl
@[simp] theorem setMem_host (x : Memory) : (s.setMem x).host = s.host := rfl
@[simp] theorem setMem_security (x : Memory) : (s.setMem x).security = s.security := rfl
@[simp] theorem setMem_imageJob (x : Memory) : (s.setMem x).imageJob = s.imageJob := rfl
@[simp] theorem setMem_power (x : Memory) : (s.setMem x).power = s.power := rfl
@[simp] theorem setMem_test (x : Memory) : (s.setMem x).test = s.test := rfl
@[simp] theorem setMem_recovery (x : Memory) : (s.setMem x).recovery = s.recovery := rfl
@[simp] theorem setMem_bringUp (x : Memory) : (s.setMem x).bringUp = s.bringUp := rfl
@[simp] theorem setMem_fresh (x : Memory) : (s.setMem x).fresh = s.fresh := rfl
@[simp] theorem setMem_hostMem (x : Memory) : (s.setMem x).hostMem = s.hostMem := rfl
@[simp] theorem setMem_hostPoison (x : Memory) : (s.setMem x).hostPoison = s.hostPoison := rfl
@[simp] theorem setMem_out (x : Memory) : (s.setMem x).out = s.out := rfl
@[simp] theorem setMem_pending (x : Memory) : (s.setMem x).pending = s.pending := rfl

/-! ### setPlacer -/

@[simp] theorem setPlacer_regs (x : Placer) : (s.setPlacer x).regs = s.regs := rfl
@[simp] theorem setPlacer_rwt (x : Placer) : (s.setPlacer x).rwt = s.rwt := rfl
@[simp] theorem setPlacer_low (x : Placer) : (s.setPlacer x).low = s.low := rfl
@[simp] theorem setPlacer_tally (x : Placer) : (s.setPlacer x).tally = s.tally := rfl
@[simp] theorem setPlacer_clusters (x : Placer) : (s.setPlacer x).clusters = s.clusters := rfl
@[simp] theorem setPlacer_ctxs (x : Placer) : (s.setPlacer x).ctxs = s.ctxs := rfl
@[simp] theorem setPlacer_placer (x : Placer) : (s.setPlacer x).placer = x := rfl
@[simp] theorem setPlacer_mesh (x : Placer) : (s.setPlacer x).mesh = s.mesh := rfl
@[simp] theorem setPlacer_fabric (x : Placer) : (s.setPlacer x).fabric = s.fabric := rfl
@[simp] theorem setPlacer_memory (x : Placer) : (s.setPlacer x).memory = s.memory := rfl
@[simp] theorem setPlacer_domains (x : Placer) : (s.setPlacer x).domains = s.domains := rfl
@[simp] theorem setPlacer_nose (x : Placer) : (s.setPlacer x).nose = s.nose := rfl
@[simp] theorem setPlacer_host (x : Placer) : (s.setPlacer x).host = s.host := rfl
@[simp] theorem setPlacer_security (x : Placer) : (s.setPlacer x).security = s.security := rfl
@[simp] theorem setPlacer_imageJob (x : Placer) : (s.setPlacer x).imageJob = s.imageJob := rfl
@[simp] theorem setPlacer_power (x : Placer) : (s.setPlacer x).power = s.power := rfl
@[simp] theorem setPlacer_test (x : Placer) : (s.setPlacer x).test = s.test := rfl
@[simp] theorem setPlacer_recovery (x : Placer) : (s.setPlacer x).recovery = s.recovery := rfl
@[simp] theorem setPlacer_bringUp (x : Placer) : (s.setPlacer x).bringUp = s.bringUp := rfl
@[simp] theorem setPlacer_fresh (x : Placer) : (s.setPlacer x).fresh = s.fresh := rfl
@[simp] theorem setPlacer_hostMem (x : Placer) : (s.setPlacer x).hostMem = s.hostMem := rfl
@[simp] theorem setPlacer_hostPoison (x : Placer) : (s.setPlacer x).hostPoison = s.hostPoison := rfl
@[simp] theorem setPlacer_out (x : Placer) : (s.setPlacer x).out = s.out := rfl
@[simp] theorem setPlacer_pending (x : Placer) : (s.setPlacer x).pending = s.pending := rfl

/-! ### setJob -/

@[simp] theorem setJob_regs (x : ImageJob) : (s.setJob x).regs = s.regs := rfl
@[simp] theorem setJob_rwt (x : ImageJob) : (s.setJob x).rwt = s.rwt := rfl
@[simp] theorem setJob_low (x : ImageJob) : (s.setJob x).low = s.low := rfl
@[simp] theorem setJob_tally (x : ImageJob) : (s.setJob x).tally = s.tally := rfl
@[simp] theorem setJob_clusters (x : ImageJob) : (s.setJob x).clusters = s.clusters := rfl
@[simp] theorem setJob_ctxs (x : ImageJob) : (s.setJob x).ctxs = s.ctxs := rfl
@[simp] theorem setJob_placer (x : ImageJob) : (s.setJob x).placer = s.placer := rfl
@[simp] theorem setJob_mesh (x : ImageJob) : (s.setJob x).mesh = s.mesh := rfl
@[simp] theorem setJob_fabric (x : ImageJob) : (s.setJob x).fabric = s.fabric := rfl
@[simp] theorem setJob_memory (x : ImageJob) : (s.setJob x).memory = s.memory := rfl
@[simp] theorem setJob_domains (x : ImageJob) : (s.setJob x).domains = s.domains := rfl
@[simp] theorem setJob_nose (x : ImageJob) : (s.setJob x).nose = s.nose := rfl
@[simp] theorem setJob_host (x : ImageJob) : (s.setJob x).host = s.host := rfl
@[simp] theorem setJob_security (x : ImageJob) : (s.setJob x).security = s.security := rfl
@[simp] theorem setJob_imageJob (x : ImageJob) : (s.setJob x).imageJob = x := rfl
@[simp] theorem setJob_power (x : ImageJob) : (s.setJob x).power = s.power := rfl
@[simp] theorem setJob_test (x : ImageJob) : (s.setJob x).test = s.test := rfl
@[simp] theorem setJob_recovery (x : ImageJob) : (s.setJob x).recovery = s.recovery := rfl
@[simp] theorem setJob_bringUp (x : ImageJob) : (s.setJob x).bringUp = s.bringUp := rfl
@[simp] theorem setJob_fresh (x : ImageJob) : (s.setJob x).fresh = s.fresh := rfl
@[simp] theorem setJob_hostMem (x : ImageJob) : (s.setJob x).hostMem = s.hostMem := rfl
@[simp] theorem setJob_hostPoison (x : ImageJob) : (s.setJob x).hostPoison = s.hostPoison := rfl
@[simp] theorem setJob_out (x : ImageJob) : (s.setJob x).out = s.out := rfl
@[simp] theorem setJob_pending (x : ImageJob) : (s.setJob x).pending = s.pending := rfl

/-! ### emit -/

@[simp] theorem emit_regs (o : Output) : (s.emit o).regs = s.regs := rfl
@[simp] theorem emit_rwt (o : Output) : (s.emit o).rwt = s.rwt := rfl
@[simp] theorem emit_low (o : Output) : (s.emit o).low = s.low := rfl
@[simp] theorem emit_tally (o : Output) : (s.emit o).tally = s.tally := rfl
@[simp] theorem emit_clusters (o : Output) : (s.emit o).clusters = s.clusters := rfl
@[simp] theorem emit_ctxs (o : Output) : (s.emit o).ctxs = s.ctxs := rfl
@[simp] theorem emit_placer (o : Output) : (s.emit o).placer = s.placer := rfl
@[simp] theorem emit_mesh (o : Output) : (s.emit o).mesh = s.mesh := rfl
@[simp] theorem emit_fabric (o : Output) : (s.emit o).fabric = s.fabric := rfl
@[simp] theorem emit_memory (o : Output) : (s.emit o).memory = s.memory := rfl
@[simp] theorem emit_domains (o : Output) : (s.emit o).domains = s.domains := rfl
@[simp] theorem emit_nose (o : Output) : (s.emit o).nose = s.nose := rfl
@[simp] theorem emit_host (o : Output) : (s.emit o).host = s.host := rfl
@[simp] theorem emit_security (o : Output) : (s.emit o).security = s.security := rfl
@[simp] theorem emit_imageJob (o : Output) : (s.emit o).imageJob = s.imageJob := rfl
@[simp] theorem emit_power (o : Output) : (s.emit o).power = s.power := rfl
@[simp] theorem emit_test (o : Output) : (s.emit o).test = s.test := rfl
@[simp] theorem emit_recovery (o : Output) : (s.emit o).recovery = s.recovery := rfl
@[simp] theorem emit_bringUp (o : Output) : (s.emit o).bringUp = s.bringUp := rfl
@[simp] theorem emit_fresh (o : Output) : (s.emit o).fresh = s.fresh := rfl
@[simp] theorem emit_hostMem (o : Output) : (s.emit o).hostMem = s.hostMem := rfl
@[simp] theorem emit_hostPoison (o : Output) : (s.emit o).hostPoison = s.hostPoison := rfl
@[simp] theorem emit_out (o : Output) : (s.emit o).out = s.out ++ [o] := rfl
@[simp] theorem emit_pending (o : Output) : (s.emit o).pending = s.pending := rfl

/-! ### hostPut -/

@[simp] theorem hostPut_regs (a : Nat) (b : List Byte) (p : Bool) : (s.hostPut a b p).regs = s.regs := rfl
@[simp] theorem hostPut_rwt (a : Nat) (b : List Byte) (p : Bool) : (s.hostPut a b p).rwt = s.rwt := rfl
@[simp] theorem hostPut_low (a : Nat) (b : List Byte) (p : Bool) : (s.hostPut a b p).low = s.low := rfl
@[simp] theorem hostPut_tally (a : Nat) (b : List Byte) (p : Bool) : (s.hostPut a b p).tally = s.tally := rfl
@[simp] theorem hostPut_clusters (a : Nat) (b : List Byte) (p : Bool) : (s.hostPut a b p).clusters = s.clusters := rfl
@[simp] theorem hostPut_ctxs (a : Nat) (b : List Byte) (p : Bool) : (s.hostPut a b p).ctxs = s.ctxs := rfl
@[simp] theorem hostPut_placer (a : Nat) (b : List Byte) (p : Bool) : (s.hostPut a b p).placer = s.placer := rfl
@[simp] theorem hostPut_mesh (a : Nat) (b : List Byte) (p : Bool) : (s.hostPut a b p).mesh = s.mesh := rfl
@[simp] theorem hostPut_fabric (a : Nat) (b : List Byte) (p : Bool) : (s.hostPut a b p).fabric = s.fabric := rfl
@[simp] theorem hostPut_memory (a : Nat) (b : List Byte) (p : Bool) : (s.hostPut a b p).memory = s.memory := rfl
@[simp] theorem hostPut_domains (a : Nat) (b : List Byte) (p : Bool) : (s.hostPut a b p).domains = s.domains := rfl
@[simp] theorem hostPut_nose (a : Nat) (b : List Byte) (p : Bool) : (s.hostPut a b p).nose = s.nose := rfl
@[simp] theorem hostPut_host (a : Nat) (b : List Byte) (p : Bool) : (s.hostPut a b p).host = s.host := rfl
@[simp] theorem hostPut_security (a : Nat) (b : List Byte) (p : Bool) : (s.hostPut a b p).security = s.security := rfl
@[simp] theorem hostPut_imageJob (a : Nat) (b : List Byte) (p : Bool) : (s.hostPut a b p).imageJob = s.imageJob := rfl
@[simp] theorem hostPut_power (a : Nat) (b : List Byte) (p : Bool) : (s.hostPut a b p).power = s.power := rfl
@[simp] theorem hostPut_test (a : Nat) (b : List Byte) (p : Bool) : (s.hostPut a b p).test = s.test := rfl
@[simp] theorem hostPut_recovery (a : Nat) (b : List Byte) (p : Bool) : (s.hostPut a b p).recovery = s.recovery := rfl
@[simp] theorem hostPut_bringUp (a : Nat) (b : List Byte) (p : Bool) : (s.hostPut a b p).bringUp = s.bringUp := rfl
@[simp] theorem hostPut_fresh (a : Nat) (b : List Byte) (p : Bool) : (s.hostPut a b p).fresh = s.fresh := rfl
@[simp] theorem hostPut_hostMem (a : Nat) (b : List Byte) (p : Bool) : (s.hostPut a b p).hostMem = mrun zeroByte s.hostMem a b := rfl
@[simp] theorem hostPut_hostPoison (a : Nat) (b : List Byte) (p : Bool) : (s.hostPut a b p).hostPoison = mputs noFlag s.hostPoison ((hostPieces a b.length).map fun k => (k, p)) := rfl
@[simp] theorem hostPut_out (a : Nat) (b : List Byte) (p : Bool) : (s.hostPut a b p).out = s.out := rfl
@[simp] theorem hostPut_pending (a : Nat) (b : List Byte) (p : Bool) : (s.hostPut a b p).pending = s.pending := rfl

/-! ### hostWrite -/

@[simp] theorem hostWrite_regs (a : Nat) (b : List Byte) : (s.hostWrite a b).regs = s.regs := rfl
@[simp] theorem hostWrite_rwt (a : Nat) (b : List Byte) : (s.hostWrite a b).rwt = s.rwt := rfl
@[simp] theorem hostWrite_low (a : Nat) (b : List Byte) : (s.hostWrite a b).low = s.low := rfl
@[simp] theorem hostWrite_tally (a : Nat) (b : List Byte) : (s.hostWrite a b).tally = s.tally := rfl
@[simp] theorem hostWrite_clusters (a : Nat) (b : List Byte) : (s.hostWrite a b).clusters = s.clusters := rfl
@[simp] theorem hostWrite_ctxs (a : Nat) (b : List Byte) : (s.hostWrite a b).ctxs = s.ctxs := rfl
@[simp] theorem hostWrite_placer (a : Nat) (b : List Byte) : (s.hostWrite a b).placer = s.placer := rfl
@[simp] theorem hostWrite_mesh (a : Nat) (b : List Byte) : (s.hostWrite a b).mesh = s.mesh := rfl
@[simp] theorem hostWrite_fabric (a : Nat) (b : List Byte) : (s.hostWrite a b).fabric = s.fabric := rfl
@[simp] theorem hostWrite_memory (a : Nat) (b : List Byte) : (s.hostWrite a b).memory = s.memory := rfl
@[simp] theorem hostWrite_domains (a : Nat) (b : List Byte) : (s.hostWrite a b).domains = s.domains := rfl
@[simp] theorem hostWrite_nose (a : Nat) (b : List Byte) : (s.hostWrite a b).nose = s.nose := rfl
@[simp] theorem hostWrite_host (a : Nat) (b : List Byte) : (s.hostWrite a b).host = s.host := rfl
@[simp] theorem hostWrite_security (a : Nat) (b : List Byte) : (s.hostWrite a b).security = s.security := rfl
@[simp] theorem hostWrite_imageJob (a : Nat) (b : List Byte) : (s.hostWrite a b).imageJob = s.imageJob := rfl
@[simp] theorem hostWrite_power (a : Nat) (b : List Byte) : (s.hostWrite a b).power = s.power := rfl
@[simp] theorem hostWrite_test (a : Nat) (b : List Byte) : (s.hostWrite a b).test = s.test := rfl
@[simp] theorem hostWrite_recovery (a : Nat) (b : List Byte) : (s.hostWrite a b).recovery = s.recovery := rfl
@[simp] theorem hostWrite_bringUp (a : Nat) (b : List Byte) : (s.hostWrite a b).bringUp = s.bringUp := rfl
@[simp] theorem hostWrite_fresh (a : Nat) (b : List Byte) : (s.hostWrite a b).fresh = s.fresh := rfl
@[simp] theorem hostWrite_hostMem (a : Nat) (b : List Byte) : (s.hostWrite a b).hostMem = mrun zeroByte s.hostMem a b := rfl
@[simp] theorem hostWrite_hostPoison (a : Nat) (b : List Byte) : (s.hostWrite a b).hostPoison = mputs noFlag s.hostPoison ((hostPieces a b.length).map fun k => (k, false)) := rfl
@[simp] theorem hostWrite_out (a : Nat) (b : List Byte) : (s.hostWrite a b).out = s.out := rfl
@[simp] theorem hostWrite_pending (a : Nat) (b : List Byte) : (s.hostWrite a b).pending = s.pending := rfl

end Sys2Proof.Machine
end

