-- ==== Sys2Proof/Tests/Slice0.lean ====
section
/-! SUPPORT. Tests: what well-formedness refuses, small results worked out from the spec by hand, and for every statement
a state and operands that meet its hypotheses. -/
namespace Sys2Proof.Tests

open Sys2Proof Sys2Proof.Machine

-- One test after another: each evaluates in the kernel, and a thread for every one that waits would need more memory
-- than there is.
set_option Elab.async false

/-! ### States to test on -/

/-- Every power domain in service. -/

def allOn : NMap Domain := (List.range 33).map fun k => (k + 1, Domain.on)

/-- A cluster at a site in its segment. -/
def placed (n : Nat) : Cluster := { Cluster.init with site := some n, inSegment := true }

/-- The site that holds one cluster. -/
def holding (L : Nat) : Site := { Site.init with state := .HOLDING, holds := [L] }

/-- A device after bring-up: clusters 0 and 1 at sites 0 and 1, reserved by context 0, in their segments; the vault of
cluster 0 one scratch region, that of cluster 1 another. -/
def ready : State :=
  (({ State.reset with
      domains := allOn
      security := { Security.init with startTest := false }
      bringUp := { BringUp.init with done := 9 }
      host := { HostIf.init with ready := true, perst := false, memorySpace := true }
      clusters := [(0, placed 0), (1, placed 1)]
      placer := { Placer.init with
        sites := [(0, holding 0), (1, holding 1)], reserved := [(0, some 0), (1, some 0)] } }.fset VLT_REGION.KIND 0 1).fset
    VLT_REGION.LENGTH 0 3072).fset VLT_REGION.KIND 16 1 |>.fset VLT_REGION.LENGTH 16 3072

/-- Core `n` of cluster 0. -/
def who (n : Nat) : Issue := { cluster := 0, core := n, upset := .none }

/-- Core `n` of cluster 0 about to issue the instruction `i`, with some general registers set. -/
def about (n : Nat) (i : Insn) (g : List (Nat × Word)) : State :=
  ready.setCore 0 n (g.foldl (fun c e => c.setG e.1 e.2)
    { Core.init with run := .running, imem := [(0, encodeInsn i)] })

/-- Whether a core fetches an instruction, as a Boolean. -/
def fetches (s : State) (who : Issue) (i : Insn) : Bool :=
  who.ok && decide (who.upset = .none) && s.issues who.cluster who.core
    && decide ((s.core who.cluster who.core).pc < imemWords who.core)
    && decide (decodeInsn (mget (fun _ => 0) (s.core who.cluster who.core).imem (s.core who.cluster who.core).pc) = some i)
    && !i.wrongCore who.core

theorem fetches_of {s : State} {w : Issue} {i : Insn} (h : fetches s w i = true) : Fetches s w i := by
  simp only [fetches, Bool.and_eq_true, decide_eq_true_eq, Bool.not_eq_true'] at h
  obtain ⟨⟨⟨⟨⟨h1, h2⟩, h3⟩, h4⟩, h5⟩, h6⟩ := h
  exact ⟨h1, h2, h3, h4, h5, h6⟩

theorem vaultSound_of {s : State} {L : Nat} (h : (s.cl L).bad = [] ∧ s.fon VLT_PARITY_INJECT.ARM L = false) :
    VaultSound s L := ⟨fun g => by rw [h.1]; rfl, h.2⟩

theorem reached_of {s : State} {r : Reg} {i : Nat}
    (h : (s.barsOn && s.up (domPlat 0) && !s.unplacedReg r i && s.served r i true) = true) : Reached s r i := by
  simp only [Bool.and_eq_true, Bool.not_eq_true'] at h
  obtain ⟨⟨⟨h1, h2⟩, h3⟩, h4⟩ := h
  exact ⟨h1, h2, h3, h4⟩

/-- A command that has a next state. -/
def runs (c : Instr) (s : State) : Bool :=
  match exec c s with
  | .next _ => true
  | _ => false

theorem runs_of {c : Instr} {s : State} (h : runs c s = true) : ∃ t, exec c s = .next t := by
  unfold runs at h
  split at h
  · next t e => exact ⟨t, e⟩
  · cases h

/-- The next state of a command. -/
def next (c : Instr) (s : State) : State :=
  match exec c s with
  | .next t => t
  | _ => s

theorem region_of {s : State} {L a : Nat} {P : Region → Bool}
    (h : (match s.regionAt L a with | some (_, r) => P r | none => false) = true) :
    ∃ i r, s.regionAt L a = some (i, r) ∧ P r = true := by
  split at h
  · next i r e => exact ⟨i, r, e, h⟩
  · cases h

/-- The last bytes of a vault that a store of `n` bytes fits into. -/
def top (n : Nat) : Word := BitVec.ofNat 32 (12582912 - n)

/-! ### Statements about the tally instruction set -/

/-! Instructions of every row, with field values at the ends of their ranges, each with the core that issues it. -/

def sampleA : List (Nat × Insn) :=
  [(0, .alu .SUB 31 1 2 7), (1, .addi 1 31 0xFFFF8000), (2, .andi 3 1 0xFFFF), (0, .ori 1 1 1), (0, .xori 1 1 1),
   (0, .lui 31 0xFFFF0000), (1, .shli 1 1 31), (1, .shri 1 1 31), (1, .srai 1 1 31), (0, .cmp .LTU 7 31 1),
   (2, .kop .COUNT 31 7 0), (1, .kop .ANDN 7 7 7), (1, .vv .MUL 15 15 15 7), (2, .vs .SRAS 15 15 31 7),
   (1, .vcmp .LEU 7 15 15), (1, .vcmps .EQ 7 15 31), (1, .sel 15 15 15 7), (1, .red .MAXABS 31 15 7)]

def sampleB : List (Nat × Insn) :=
  [(0, .ldw 31 31 7 (-1024)), (1, .stw 31 31 0 1020), (1, .vld 15 31 7 0 (-4096)), (1, .vst 15 31 0 0 4080),
   (1, .sld 7 31 7 true 2 0), (1, .sst 7 31 0 false 0 0), (1, .vldr 15 31 31 7 0), (1, .vstr 15 31 31 0 4),
   (1, .bmax 15 7 7 0 7 2 true), (2, .rescale 15 15 7 7 4 1 2 true), (1, .smul 7 7 7 7), (1, .smov 7 7 7),
   (1, .sshift 7 7 31 7), (1, .sget 31 7 3 7), (1, .sput 7 31 15 7), (1, .smaxe 7 7 7 7), (1, .lut 15 15 7 12 31 0)]

def sampleC : List (Nat × Insn) :=
  [(1, .qsend false 15 7 7 31 2047), (1, .qsend true 15 7 7 31 0), (1, .qrecv false 15 7 7 31 0),
   (2, .qrecv true 15 7 7 31 2047), (0, .msend false 31 31 31 7), (0, .msend true 31 31 31 7), (0, .dmaq false 31 31 31 7),
   (0, .dmaq true 31 31 31 7), (0, .dmapop false 31 31 7), (0, .dmapop true 31 31 7), (0, .mxi false 31 31 7),
   (0, .mxi true 31 31 7), (0, .mxpop false 31 31 7), (0, .mxpop true 31 31 7), (0, .beqz 31 (-1048576)),
   (1, .bnez 31 1048575), (0, .jal 31 (-1)), (0, .jr 31), (0, .nop), (1, .halt), (0, .wft), (0, .vrun 1 31),
   (0, .vwait 3), (0, .fence), (2, .trap 0x1F), (1, .rdsr 31 2)]

def sample : List (Nat × Insn) := sampleA ++ sampleB ++ sampleC

theorem witness_fetches (e : Nat × Insn) (h : e ∈ sample) : Fetches (about e.1 e.2 []) (who e.1) e.2 := by
  have : (sample.all fun e => fetches (about e.1 e.2 []) (who e.1) e.2) = true := by decide +kernel
  exact fetches_of (List.all_eq_true.1 this e h)

theorem witness_StepRunsFront : ({ ready with pending := [.lostClear, .aged 0 0] } : State).pending = .lostClear :: [.aged 0 0]
    ∧ ready.pending = [] := ⟨rfl, rfl⟩

theorem witness_CompletesIffWellFormed : Instr.wf (.hangDeclared 15) = true ∧ Instr.wf (.hangDeclared 16) = false := by
  decide

theorem witness_CoreRowsKeepSound : State.reset.clusters = [] ∧ Instr.issue? (.alu (who 0)) = some (who 0)
    ∧ runs (.alu (who 0)) (about 0 (.alu .SUB 31 1 2 7) []) = true := by
  refine ⟨rfl, rfl, ?_⟩
  decide +kernel

/-- A device with one cluster in canonical form meets CoresSound. -/
theorem coresSound_of {s : State} (h : mwf (fun _ => Cluster.init) s.clusters = true)
    (hv : (s.clusters.all fun e => mwf zeroByte e.2.vault) = true)
    (hk : (s.clusters.all fun e => (List.range 8).all fun i =>
      decide (i = 0) || decide ((e.2.cores.toArray.getD 0 Core.init).kr i &&& 1 = (e.2.cores.toArray.getD 0 Core.init).kr i)) = true) :
    CoresSound s := by
  have hc : ∀ L, s.cl L = Cluster.init ∨ ∃ e ∈ s.clusters, s.cl L = e.2 := by
    intro L
    unfold State.cl
    generalize s.clusters = m
    induction m with
    | nil => exact .inl rfl
    | cons e t ih =>
      obtain ⟨j, v⟩ := e
      rw [mget_cons]
      split
      · exact .inr ⟨_, List.mem_cons_self .., rfl⟩
      · rcases ih with h | ⟨e, he, h⟩
        · exact .inl h
        · exact .inr ⟨e, List.mem_cons_of_mem _ he, h⟩
  have big : ∀ (c : Core) (i : Nat), 8 ≤ i → c.kr i = 0 := fun c i hi => by
    rw [Core.kr, if_neg (by omega), Array.getD, dif_neg (by simp; omega)]
  refine ⟨h, fun L => ?_, fun L i hi => ?_⟩
  · rcases hc L with e | ⟨e, he, h⟩
    · rw [e]; rfl
    · rw [h]; exact List.all_eq_true.1 hv e he
  · by_cases h8 : 8 ≤ i
    · rw [big _ _ h8]; rfl
    · unfold State.core
      rcases hc L with e | ⟨e, he, h⟩
      · rw [e]
        have : ∀ i, i < 8 → i ≠ 0 → (Core.init).kr i &&& 1 = (Core.init).kr i := by decide
        exact this i (by omega) hi
      · rw [h]
        have := List.all_eq_true.1 (List.all_eq_true.1 hk e he) i (List.mem_range.2 (by omega))
        simpa [hi] using this

theorem witness_CoresSound : CoresSound (about 0 (.alu .SUB 31 1 2 7) [(1, 5)]) :=
  coresSound_of (by decide +kernel) (by decide +kernel) (by decide +kernel)

theorem witness_CoreWordsRoundTrip : (sample.all fun e => e.2.encodable && decodeInsn (encodeInsn e.2) == some e.2) = true := by
  decide +kernel

theorem witness_RegisterRowFrame : (sample.all fun e => match e.2.registerRow (who e.1) with
    | some (c, _) => (about e.1 e.2 []).fon VEC_RESIDUE_INJECT.ARM (e.1 - 1) == false && runs c (about e.1 e.2 [])
    | none => true) = true := by decide +kernel

theorem witness_StoreFrame :
    ([(.stw 1 31 0 0, 4), (.vst 15 31 0 0 0, 32), (.sst 7 31 0 true 0 0, 16), (.vstr 15 31 30 0 4, 256)].all fun (e : Insn × Nat) =>
      let s := about 1 e.1 [(31, top e.2), (30, 1)]
      fetches s (who 1) e.1 && (match e.1.storeRow s (who 1) with
        | some (c, R, _, _) => decide ((s.cl R).bad = []) && !s.fon VLT_PARITY_INJECT.ARM R && runs c s
        | none => false)) = true := by decide +kernel

theorem witness_VectorCoresStart :
    let s := about 0 (.vrun 1 31) [(31, 8191)]
    let u := (about 0 (.vrun 1 31) []).setCore 0 2 { Core.init with run := .running }
    (Fetches s (who 0) (.vrun 1 31) ∧ (s.core 0 2).run = .idle)
    ∧ Fetches (about 1 .halt []) (who 1) .halt
    ∧ (Fetches u (who 0) (.vrun 1 31) ∧ (u.core 0 2).run ≠ .idle
      ∧ let t := next (.vrun (who 0)) u
        (t.core 0 2).run ≠ .idle ∧ let v := t.setCore 0 2 Core.init
        (v.core 0 0).run = .blocked ∧ (v.core 0 0).wait = (t.core 0 0).wait ∧ (v.core 0 2).run = .idle) := by
  refine ⟨⟨fetches_of ?_, ?_⟩, fetches_of ?_, fetches_of ?_, ?_⟩ <;> decide +kernel

theorem witness_Reductions : (about 1 (.red .ADDS 31 15 7) []).fon VEC_RESIDUE_INJECT.ARM (0 * 2 + (1 - 1)) = false
    ∧ Fetches (about 1 (.red .ADDS 31 15 7) []) (who 1) (.red .ADDS 31 15 7) ∧ ([1, 2] : List Word).Perm [2, 1] := by
  refine ⟨by decide +kernel, fetches_of (by decide +kernel), by decide⟩

theorem witness_VstStoresItsLanes :
    let s := about 1 (.vst 15 31 0 0 0) [(31, top 64)]
    let x := (s.core 0 1).addr 31 0
    Fetches s (who 1) (.vst 15 31 0 0 0) ∧ VaultSound s 0 ∧ mwf zeroByte (s.cl 0).vault = true
    ∧ Fmt.ofCode 0 = some .I8 ∧ (s.core 0 1).kr 0 ≠ 0 ∧ x % 16 = 0 ∧ x + rowBytes Fmt.I8.width 64 = Config.vaultBytes
    ∧ ∀ o ∈ touched Fmt.I8.width ((s.core 0 1).kr 0), ∃ i r, s.regionAt 0 (x + o) = some (i, r)
      ∧ (r.kind ≠ 3 ∧ r.kind ≠ 4 ∧ r.inCurrent (x + o) = false) := by
  refine ⟨fetches_of ?_, vaultSound_of ?_, ?_, ?_, ?_, ?_, ?_, fun o ho => ?_⟩
  case refine_8 =>
    have h : ((touched Fmt.I8.width (((about 1 (.vst 15 31 0 0 0) [(31, top 64)]).core 0 1).kr 0)).all fun o =>
      match (about 1 (.vst 15 31 0 0 0) [(31, top 64)]).regionAt 0
          (((about 1 (.vst 15 31 0 0 0) [(31, top 64)]).core 0 1).addr 31 0 + o) with
      | some (_, r) => decide (r.kind ≠ 3 ∧ r.kind ≠ 4 ∧ r.inCurrent
          (((about 1 (.vst 15 31 0 0 0) [(31, top 64)]).core 0 1).addr 31 0 + o) = false)
      | none => false) = true := by decide +kernel
    obtain ⟨i, r, e, h⟩ := region_of (List.all_eq_true.1 h o ho)
    exact ⟨i, r, e, of_decide_eq_true h⟩
  all_goals decide +kernel

theorem witness_ScalarArithmetic (e : Nat × Insn) (h : e ∈ sampleA) : Fetches (about e.1 e.2 []) (who e.1) e.2 :=
  witness_fetches e (by simp [sample, h])

theorem witness_ControlFlow :
    (∀ e ∈ sampleC, Fetches (about e.1 e.2 []) (who e.1) e.2)
    ∧ ((about 0 (.vrun 1 31) []).core 0 2).run = .idle
    ∧ (((about 0 (.vrun 1 31) []).setCore 0 2 { Core.init with run := .running }).core 0 2).run ≠ .idle
    ∧ ((about 0 (.vwait 3) []).cl 0).halted 3 = true
    ∧ Fetches (about 2 (.rdsr 31 0) []) (who 2) (.rdsr 31 0)
      ∧ Fetches (about 2 (.rdsr 31 1) []) (who 2) (.rdsr 31 1) := by
  refine ⟨fun e h => witness_fetches e (by simp [sample, h]), ?_, ?_, ?_, fetches_of ?_, fetches_of ?_⟩ <;> decide +kernel

theorem witness_VectorArithmetic :
    (∀ e ∈ sampleA, Fetches (about e.1 e.2 []) (who e.1) e.2)
    ∧ (∀ n < 3, (about n (.vv .MUL 15 15 15 7) []).fon VEC_RESIDUE_INJECT.ARM (0 * 2 + (n - 1)) = false)
    ∧ Fetches (about 1 (.lut 15 15 7 12 31 0) []) (who 1) (.lut 15 15 7 12 31 0) ∧ 64 * 0 + 2 ^ 12 ≤ 4096 := by
  refine ⟨fun e h => witness_fetches e (by simp [sample, h]), ?_, fetches_of ?_, ?_⟩ <;> decide +kernel

/-- A load or store by core 1 of cluster 0 at g31. -/
def access (i : Insn) (n : Nat) : State := about 1 i [(31, top n)]

theorem witness_VaultLoads :
    (let s := access (.ldw 1 31 0 0) 4
      let x := (s.core 0 1).addr 31 0
      VaultSound s 0 ∧ Fetches s (who 1) (.ldw 1 31 0 0) ∧ lane ((s.core 0 1).kr 0) 0 = true ∧ x % 4 = 0
      ∧ x + 4 = Config.vaultBytes ∧ s.readOk 0 x 4 = true)
    ∧ (let s := access (.vld 1 31 0 8 0) 256
      let x := (s.core 0 1).addr 31 0
      VaultSound s 0 ∧ Fetches s (who 1) (.vld 1 31 0 8 0) ∧ Fmt.ofCode 8 = some .I32 ∧ (s.core 0 1).kr 0 ≠ 0 ∧ x % 16 = 0
      ∧ x + rowBytes Fmt.I32.width 64 = Config.vaultBytes
      ∧ ∀ o ∈ touched Fmt.I32.width ((s.core 0 1).kr 0), (s.regionAt 0 (x + o)).isSome = true)
    ∧ (let s := access (.sld 1 31 0 true 2 0) 8
      let x := (s.core 0 1).addr 31 0
      VaultSound s 0 ∧ Fetches s (who 1) (.sld 1 31 0 true 2 0) ∧ lane ((s.core 0 1).kr 0) 0 = true
      ∧ x + blkScales 2 * (scaleFmt true).bytes ≤ Config.vaultBytes
      ∧ s.readOk 0 x (blkScales 2 * (scaleFmt true).bytes) = true) := by
  refine ⟨⟨vaultSound_of ?_, fetches_of ?_, ?_, ?_, ?_, ?_⟩, ⟨vaultSound_of ?_, fetches_of ?_, ?_, ?_, ?_, ?_, ?_⟩,
    ⟨vaultSound_of ?_, fetches_of ?_, ?_, ?_, ?_⟩⟩ <;> decide +kernel

theorem witness_VaultStores :
    (let s := access (.stw 1 31 0 0) 4
      let x := (s.core 0 1).addr 31 0
      Fetches s (who 1) (.stw 1 31 0 0) ∧ lane ((s.core 0 1).kr 0) 0 = true ∧ x % 4 = 0 ∧ x + 4 = Config.vaultBytes)
    ∧ (let s := access (.vst 1 31 0 4 0) 16
      let x := (s.core 0 1).addr 31 0
      Fetches s (who 1) (.vst 1 31 0 4 0) ∧ Fmt.ofCode 4 = some .I2 ∧ (s.core 0 1).kr 0 ≠ 0 ∧ x % 16 = 0
      ∧ x + rowBytes Fmt.I2.width 64 = Config.vaultBytes)
    ∧ (let s := access (.sst 1 31 0 false 0 0) 4
      let x := (s.core 0 1).addr 31 0
      Fetches s (who 1) (.sst 1 31 0 false 0 0) ∧ lane ((s.core 0 1).kr 0) 0 = true
      ∧ x + blkScales 0 * (scaleFmt false).bytes ≤ Config.vaultBytes) := by
  refine ⟨⟨fetches_of ?_, ?_⟩, ⟨fetches_of ?_, ?_⟩, ⟨fetches_of ?_, ?_⟩⟩ <;> decide +kernel

/-- The same device with the array of partition 0's neighbour off; cluster 1 is at a site of it. -/
def fencedPeer (i : Insn) : State :=
  ((about 1 i [(31, top 256), (30, 1)]).updCl 1 fun c => { c with site := some 7 }).setDomain (domArr 1) .off

/-- The issuing cluster stands on CD1 and its peer on CD2, and CD3, which only the answers cross, is in reset. -/
def answerLost (i : Insn) : State :=
  (((about 1 i [(31, top 256), (30, 1)]).updCl 0 fun c => { c with site := some 21 }).updCl 1 fun c =>
    { c with site := some 168 }).setDomain (domPlat 3) .reset

theorem witness_RemoteVault :
    (let s := about 1 (.vldr 1 31 30 0 8) [(31, top 256), (30, 1)]
      let x := (s.core 0 1).addr 31 0
      Fmt.ofCode 8 = some .I32 ∧ (s.core 0 1).kr 0 ≠ 0 ∧ x % 16 = 0 ∧ x + rowBytes Fmt.I32.width 64 = Config.vaultBytes
      ∧ ((s.core 0 1).gr 30).toNat = 1 ∧ s.sameContext 0 1 = true ∧ Fetches s (who 1) (.vldr 1 31 30 0 8)
      ∧ s.reachable 1 = true ∧ VaultSound s 1
      ∧ ∀ o ∈ touched Fmt.I32.width ((s.core 0 1).kr 0), (s.regionAt 1 (x + o)).isSome = true)
    ∧ (let s := about 1 (.vstr 1 31 30 0 8) [(31, top 256), (30, 1)]
      Fetches s (who 1) (.vstr 1 31 30 0 8) ∧ s.sameContext 0 1 = true ∧ s.reachable 1 = true)
    ∧ (Fetches (fencedPeer (.vldr 1 31 30 0 8)) (who 1) (.vldr 1 31 30 0 8)
      ∧ Fetches (fencedPeer (.vstr 1 31 30 0 8)) (who 1) (.vstr 1 31 30 0 8)
      ∧ (fencedPeer (.vldr 1 31 30 0 8)).sameContext 0 1 = true
        ∧ (fencedPeer (.vldr 1 31 30 0 8)).reachable 1 = false)
    ∧ (Fetches (answerLost (.vldr 1 31 30 0 8)) (who 1) (.vldr 1 31 30 0 8)
      ∧ Fetches (answerLost (.vstr 1 31 30 0 8)) (who 1) (.vstr 1 31 30 0 8)
      ∧ let s := answerLost (.vstr 1 31 30 0 8)
        s.sameContext 0 1 = true ∧ s.askRefusal (.cluster 0 4) (.cluster 1 0) = none
        ∧ s.readRefused (.cluster 0 4) (.cluster 1 0) = true) := by
  refine ⟨⟨?_, ?_, ?_, ?_, ?_, ?_, fetches_of ?_, ?_, vaultSound_of ?_, ?_⟩, ⟨fetches_of ?_, ?_⟩,
    ⟨fetches_of ?_, fetches_of ?_, ?_⟩, ⟨fetches_of ?_, fetches_of ?_, ?_⟩⟩ <;> decide +kernel

theorem witness_ScaleInstructions :
    (∀ e ∈ sampleB, Fetches (about e.1 e.2 []) (who e.1) e.2)
    ∧ (∀ i ∈ [Insn.smul 7 7 7 0, .smaxe 7 7 7 0, .smov 7 7 0, .sget 31 7 3 0, .sput 7 31 15 0, .sshift 7 7 31 0],
      Fetches (about 2 i []) (who 2) i ∧ lane (((about 2 i []).core 0 2).kr 0) 0 = true)
    ∧ (∀ i < 4, ((about 2 (.sshift 7 7 31 0) []).core 0 2).entry 7 i = .normal ((fun _ => 127) i) ((fun _ => 128) i))
    ∧ Fetches (about 2 (.bmax 15 7 7 8 0 2 true) []) (who 2) (.bmax 15 7 7 8 0 2 true)
    ∧ Fetches (about 2 (.rescale 15 15 7 7 8 5 2 true) []) (who 2) (.rescale 15 15 7 7 8 5 2 true)
    ∧ Fmt.ofCode 8 = some .I32 ∧ (Conv.ofField 5 false).isSome = true
    ∧ (about 2 (.rescale 15 15 7 7 8 5 2 true) []).fon VEC_RESIDUE_INJECT.ARM (0 * 2 + (2 - 1)) = false := by
  refine ⟨fun e h => witness_fetches e (by simp [sample, h]), fun i h => ⟨fetches_of ?_, ?_⟩, ?_, fetches_of ?_, fetches_of ?_, ?_⟩
  · revert i; decide +kernel
  · revert i; decide +kernel
  all_goals decide +kernel

/-! ### Statements about queues, units and the matrix core -/

/-- An endpoint to or from endpoint 0 of cluster 1. -/
def endpoint (send : Bool) (credits : Nat) (held : List (Token × Producer)) : Endpoint :=
  { send := send, kind := .token, peer := 1, peerEp := 0, circuit := false, fabric := false, count := 1, depth := 1, skew := 0,
    credits := credits, slots := 1, ext := 0, parked := 0, held := held, pos := 0 }

def token0 : Token := ready.token 1 0 .data 0 0 0 0 [] [] false

/-- Core 1 of cluster 0 about to issue `i`, with endpoint `q`. -/
def withEp (i : Insn) (q : Nat) (e : Endpoint) : State := (about 1 i []).setEp 0 q e

theorem witness_TokenInstructions :
    (∀ t, (let s := withEp (.qsend t 15 7 7 31 2047) 2047 (endpoint true 1 [])
      s.ep 0 2047 = some (endpoint true 1 []) ∧ Fetches s (who 1) (.qsend t 15 7 7 31 2047)))
    ∧ (let s := withEp (.qsend true 15 7 7 31 2047) 2047 (endpoint true 0 [])
      s.ep 0 2047 = some (endpoint true 0 []) ∧ Fetches s (who 1) (.qsend true 15 7 7 31 2047))
    ∧ (∀ t, (let s := withEp (.qrecv t 15 7 7 31 0) 0 (endpoint false 0 [(token0, .none)])
      s.ep 0 0 = some (endpoint false 0 [(token0, .none)]) ∧ Fetches s (who 1) (.qrecv t 15 7 7 31 0)))
    ∧ (let s := withEp (.qrecv true 15 7 7 31 0) 0 (endpoint false 0 [])
      s.ep 0 0 = some (endpoint false 0 []) ∧ Fetches s (who 1) (.qrecv true 15 7 7 31 0)) := by
  refine ⟨fun t => ⟨?_, fetches_of ?_⟩, ⟨?_, fetches_of ?_⟩, fun t => ⟨?_, fetches_of ?_⟩, ⟨?_, fetches_of ?_⟩⟩ <;>
    (try cases t) <;> decide +kernel

/-- A message of 32 bytes to the mailbox of cluster 1 at the last place of its vault. -/
def mailMsg : List Byte := leBytes 4 8 ++ leBytes 4 1 ++ leBytes 4 (12582912 - 32) ++ List.replicate 20 0

theorem witness_UnitQueueInstructions :
    (∀ t, let s := (about 0 (.msend t 1 31 2 0) [(31, top 32)]).updCl 0 fun c =>
        { c with vault := mrun zeroByte [] (12582912 - 32) mailMsg }
      lane ((s.core 0 0).kr 0) 0 = true ∧ Fetches s (who 0) (.msend t 1 31 2 0) ∧ VaultSound s 0 ∧ s.owner 0 = some 0
      ∧ s.readOk 0 (12582912 - 32) 32 = true
      ∧ s.msgRefusal 0 (12582912 - 32) (s.vbytes 0 (12582912 - 32) 32) = none
      ∧ s.readOk 0 (12582912 - 32) (msgBytes (s.vbytes 0 (12582912 - 32) 32)) = true)
    ∧ (∀ t, let s := about 0 (.dmaq t 1 31 2 0) [(31, top 64)]
      Fetches s (who 0) (.dmaq t 1 31 2 0) ∧ ((s.core 0 0).gr 31).toNat % 64 = 0
      ∧ ((s.core 0 0).gr 31).toNat + 64 = Config.vaultBytes ∧ (s.cl 0).dma.room = true)
    ∧ (∀ t, let s := about 0 (.mxi t 1 31 0) [(31, top 64)]
      Fetches s (who 0) (.mxi t 1 31 0) ∧ ((s.core 0 0).gr 31).toNat % 64 = 0
      ∧ ((s.core 0 0).gr 31).toNat + 64 = Config.vaultBytes ∧ (s.cl 0).matrix.room = true)
    ∧ (∀ t, let s := (about 0 (.dmapop t 1 2 0) []).updCl 0 fun c => { c with dma := { c.dma with done := [7] } }
      Fetches s (who 0) (.dmapop t 1 2 0) ∧ (s.cl 0).dma.done = 7 :: [])
    ∧ (∀ t, let s := (about 0 (.mxpop t 1 2 0) []).updCl 0 fun c => { c with matrix := { c.matrix with done := [7] } }
      Fetches s (who 0) (.mxpop t 1 2 0) ∧ (s.cl 0).matrix.done = 7 :: []) := by
  refine ⟨fun t => ⟨?_, fetches_of ?_, vaultSound_of ?_, ?_⟩, fun t => ⟨fetches_of ?_, ?_⟩, fun t => ⟨fetches_of ?_, ?_⟩,
    fun t => ⟨fetches_of ?_, ?_⟩, fun t => ⟨fetches_of ?_, ?_⟩⟩ <;> cases t <;> decide +kernel

theorem witness_CoreAndSiteEvents :
    (let s := ready.setCore 0 2 { Core.init with run := .blocked, wait := some (.cores 1) };
      (s.core 0 2).run = .blocked ∧ (s.core 0 2).wait = some (.cores 1) ∧ s.available 0 (.cores 1) = true)
    ∧ (let s := ((ready.setSite 335 { holding 0 with holds := [0, 1], turn := 1 }).setCore 1 0 { Core.init with run := .wft });
      (s.site 335).holds[(s.site 335).turn]? = some 1 ∧ (s.site 335).holds.length = 2 ∧ (s.cl 1).yields = true)
    ∧ (Reached ready .VEC_RESIDUE_INJECT (2 * 0 + 1 - 1) ∧ Reached ready .VEC_RESIDUE_INJECT (2 * 0 + 2 - 1))
    ∧ Reached ready .VLT_PARITY_INJECT 0 ∧ (ready.cl 0).moving = false
    ∧ (let s := ready.updCl 0 fun c => { c with moving := true };
      s.barsOn = true ∧ s.up (domPlat 0) = true ∧ (s.cl 0).moving = true)
    ∧ (let s := ready.setCore 0 0 { Core.init with run := .wft };
      (s.core 0 0).run = .wft ∧ s.allDone 0 = true ∧ ∀ cx, s.owner 0 = some cx → s.draining cx = false) := by
  refine ⟨?_, ?_, ⟨reached_of ?_, reached_of ?_⟩, reached_of ?_, ?_, ?_, ?_, ?_, fun cx h => ?_⟩
  case refine_10 =>
    have e : (ready.setCore 0 0 { Core.init with run := .wft }).owner 0 = some 0 := by decide +kernel
    cases e.symm.trans h
    decide +kernel
  all_goals decide +kernel

/-- A descriptor of one tile with 64 elements along K, 8-bit operands with scale blocks of 16 along K, into the vault at
0x8000. -/
def desc0 : List Word :=
  [0, 0x00100100, 1, 0x10000000, 0x4000, 0x00020002, 0x10001000, 0x5000, 0x8000, 0xA000, 2] ++ List.replicate 5 0

def job0 : Job :=
  { serial := 1, desc := desc0, tile := 0, kblock := 0, pass := 0, written := 0, waiting := none, arrayDone := false,
    flags := 0, mismatch := false, invalid := [] }

def withMatrix (f : Matrix → Matrix) : State := ready.updMatrix 0 f

theorem witness_MatrixWork :
    (let s := withMatrix fun m => { m with queue := [(1, desc0)] };
      (s.cl 0).matrix.queue = (1, desc0) :: [] ∧ s.reachable 0 = true ∧ (s.cl 0).matrix.startable = true
      ∧ s.arrayFree 0 = true ∧ (s.cl 0).site = some 0)
    ∧ (let s := withMatrix fun m => { m with jobs := [job0] }
      let len := kBlockLen job0.desc
      let a := s.readRanges 0 .matrixA (rangesA job0.desc (tileRow job0.desc 0) (0 * len) len)
      let b := a.2.readRanges 0 .matrixB (rangesB job0.desc (0 * len) (tileCol job0.desc 0) len)
      (s.cl 0).matrix.running = some job0 ∧ s.reachable 0 = true ∧ VaultSound s 0 ∧ s.fon MXC_AUDIT_INJECT.ARM 0 = false
      ∧ b.2.fon MXC_AUDIT_INJECT.ARM 0 = false ∧ (b.2.claim 0 1 0).isSome = true)
    ∧ (∀ dest ∈ [0, 1, 2], let d := desc0.set 0 (BitVec.ofNat 32 (dest * 2 ^ 24))
      let acc : AccSet := { job := 1, tile := 0, order := 1, full := true, cells := [], poison := [], outbox := none }
      let s := withMatrix fun m => { m with jobs := [{ job0 with desc := d, arrayDone := true }], sets := [none, some acc] }
      descDest d = dest ∧ (FreedSet.mk 1 (some (63, 63))).ok = true ∧ (s.cl 0).matrix.sets.getD 1 none = some acc
      ∧ ((s.cl 0).matrix.jobs.find? fun j => j.serial == acc.job) = some { job0 with desc := d, arrayDone := true }
      ∧ s.reachable 0 = true ∧ s.behindInLane 0 acc dest = false)
    ∧ (let j := { job0 with arrayDone := true, written := 1 }
      let s := withMatrix fun m => { m with jobs := [j] };
      (s.cl 0).matrix.jobs[0]? = some j ∧ j.arrayDone = true ∧ j.written = descTiles j.desc ∧ j.flags.testBit 21 = false)
    ∧ (let s := withMatrix fun m => { m with done := [7] }
      Reached s .MXC_COMPLETION_POP 0 ∧ (s.cl 0).moving = false ∧ (s.cl 0).matrix.done = 7 :: [])
    ∧ Reached ready .MXC_AUDIT_INJECT 0
    ∧ ((ready.updCl 0 fun c => { c with auditPending := some (1, 2) }).cl 0).auditPending = some (1, 2) := by
  refine ⟨?_, ⟨?_, ?_, vaultSound_of ?_, ?_⟩, ?_, ?_, ⟨reached_of ?_, ?_⟩, reached_of ?_, ?_⟩ <;> decide +kernel

/-- A queue destination without an endpoint leaves no row to send, whatever the tile. -/
theorem witness_MatrixWork_rows (f : Matrix → Matrix) (r : Nat × List Word × List Word × Bool)
    (rows : List (Nat × List Word × List Word × Bool)) :
    ∃ u, ((withMatrix id).updMatrix 0 f).sendRows 0 0 (r :: rows) = ([], u) := by
  have h : ((withMatrix id).updMatrix 0 f).ep 0 0 = none := by
    unfold State.updMatrix State.ep State.updCl
    rw [cl_setCl _ _ (by decide +kernel)]
    exact (show mget (fun _ => none) ((withMatrix id).cl 0).eps 0 = none by decide +kernel)
  obtain ⟨a, b, c, d⟩ := r
  exact ⟨_, by rw [State.sendRows, h]⟩

/-- The audit of partials without an upset passes, and an error of 1 in the corner's checksum shows (R95, R96). -/
theorem witness_MatrixWork_audit (A B : Grid) :
    let c := CellUpset.cells [(64, 64, 1)]
    auditOf 64 A B (partials 64 A B .none) .none = none ∧ auditOf 64 A B (partials 64 A B c) c = some (2, 0, 0)
    ∧ CellUpset.none.ok = true ∧ c.ok = true ∧ ∀ r k, c ≠ .writeback r k := by
  refine ⟨auditOf_partials _ _ _, (auditOf_corner fun i _ j _ h => ?_).trans (if_neg (by decide)), by decide, by decide, fun _ _ h => nomatch h⟩
  have e : ((64 : Nat) == i && (64 : Nat) == j) = false := by
    rw [Bool.and_eq_false_iff, beq_eq_false_iff_ne, beq_eq_false_iff_ne]; omega
  simp [upsetDelta, List.filter, e]
/-! ### Statements about DMA, messages, the mesh and clearing -/

/-- A request of cluster 0 with tag 127. -/
def req (op src dst len peer pattern : Nat) : DmaReq :=
  { tag := 127, desc := [op, len, src, 0, dst, 0, peer, 0, pattern].map (BitVec.ofNat 32) ++ List.replicate 7 0,
    started := false, moved := 0, poison := false, fenced := false, waiting := 0, issued := false, xid := 0, status := 0 }

/-- An image of one folio that uses cluster 0, with what the statements look up in it. -/
def image0 : Image :=
  { context := 0, steady := true, budget := 0, pages := 0, fabricPorts := 0, clusters := [],
    folios := [⟨0, 0, 0, 1⟩, ⟨0, 0, 0, 0⟩, ⟨0, 0, 0, 1⟩], folioClusters := [⟨0, 0, 0xFFFF, [0xFFFF, 0xFFFF], [0xFFFF, 0xFFFF], 0xFFFF, 0, 0, 0⟩],
    segments := [], endpoints := [], halos := [⟨0, 3, 0, 1, 0x1000, 0x2000, 64, 0, 0⟩],
    clearing := [⟨0, 5, 2, 0, 4, 0x8000, 0, [0, 1]⟩], fabric := [], rings := [⟨9, 1, 2, 256⟩], windows := [],
    objects := [⟨1, 0, 0, 1, 0x200000, 0, 0, 0⟩], uses := [⟨0, 1, 3⟩], dataOffset := 0, fabricAt := 0,
    signedLength := 0, imageLength := 0, ownerSigned := false, digest := [] }

/-- Context 0 has that image. -/
def imaged (s : State) : State := s.updCx 0 fun x => { x with image := some image0, runNumber := 1 }

def withReq (q : DmaReq) : State := imaged (ready.updDma 0 fun d => { d with reqs := [q] })

theorem witness_DmaOperations :
    (∀ op ∈ [1, 2, 3, 4, 5, 6, 7, 8], let q := req op 0x200000 0x400000 64 (if op = 7 then 1 else if op = 8 then 3 else 0) 0
      (withReq q).starting 0 127 op = some (0, q) ∧ (withReq q).reachable 0 = true
      ∧ (withReq q).readOk 0 q.src q.length = true ∧ (withReq q).writeOk 0 q.dst q.length .dma = true
      ∧ (withReq q).writeOk 0 q.dst q.length .fill = true ∧ (withReq q).writeOk 1 q.dst q.length .mesh = true
      ∧ overlap q.src q.dst q.length = false)
    ∧ (let q := req 3 0x200000 0x200020 64 0 0; (withReq q).starting 0 127 3 = some (0, q)
      ∧ overlap q.src q.dst q.length = true)
    ∧ (let q := req 2 0xFFFFE0 0 64 0 0; (withReq q).starting 0 127 2 = some (0, q)
      ∧ (withReq q).readOk 0 q.src q.length = false)
    ∧ (let q := req 4 0 0xFFFFC0 64 0 0; (withReq q).starting 0 127 4 = some (0, q)
      ∧ (withReq q).writeOk 0 q.dst q.length .fill = false)
    ∧ (let s := withReq (req 8 0 0 0 3 0)
      ∃ h, s.halo 0 0 3 = some h ∧ s.readOk 0 h.srcAddr h.length = true
        ∧ s.askRefusal (.cluster 0 2) (.cluster h.dst 0) = none ∧ s.haloOk h.dst h.dstAddr h.length = true)
    ∧ (let q := { req 1 0 0 64 0 0 with started := true, issued := true }
      (withReq q).dmaReq 0 127 = some q)
    ∧ (∀ op ∈ [9, 10], let q := { req op 0 0 64 0 0 with started := true }
      let s := { withReq q with fabric := { Fabric.init with tx := [⟨1, 0, 0, 127, op == 9, 0, 64, []⟩] } }
      s.dmaReq 0 127 = some q ∧ q.op = op ∧ s.fget DMA_TIMEOUT.REMOTE 0 ≠ 0
      ∧ (s.fabric.tx.any fun t => t.cluster == 0 && t.tag == 127) = true) := by
  refine ⟨?_, ?_, ?_, ?_, ⟨⟨0, 3, 0, 1, 0x1000, 0x2000, 64, 0, 0⟩, ?_⟩, ?_, ?_⟩ <;> decide +kernel

/-- The piece of a halo of 64 bytes on its way to cluster 1. -/
def piece : Packet := packet .WRITE_REQ (.cluster 1 0) (.cluster 0 2) 0 0x2000 0 127 (.bytes (List.replicate 64 1))

theorem witness_DmaOperations_halo :
    let q := { req 8 0 0 0 3 0 with started := true, issued := true, waiting := 1 }
    let s := withReq q
    let t := s.takePacket piece
    let v := t.vstore 1 piece.addr (packetBytes piece) .mesh
    let h : HaloRec := ⟨0, 3, 0, 1, 0x1000, 0x2000, 64, 0, 0⟩
    let w := v.updReq 0 127 fun q => { q with moved := q.moved + (packetBytes piece).length }
    piece.ok = true ∧ s.flying piece = false ∧ s.behind piece = false ∧ t.refusal piece = none ∧ t.reachable 1 = true
    ∧ t.dmaReq 0 127 = some q ∧ t.haloOf 0 0 127 = some h ∧ v.dmaReq 0 127 = some q ∧ v.haloOf 0 0 127 = some h
    ∧ w.haloOf 0 0 127 = some h ∧ q.moved + (packetBytes piece).length = h.length := by
  decide +kernel

/-- A message from core 2 of cluster 0 in the mesh. -/
def inMesh (p : Packet) : State := imaged { ready with mesh := { Mesh.init with packets := [p] } }

/-- A packet all of whose flits have reached its unit. -/
def here (p : Packet) : Packet := { p with ejected := flitsOf p }

def mail : Packet := here <| packet .MSG (.cluster 1 1) (.cluster 0 5) 0 0 0 2 (.bytes mailMsg)
def ringMsg : Packet := here <| packet .MSG (.cluster 1 1) (.cluster 0 5) 0 0 0 2 (.bytes (leBytes 8 (9 * 2 ^ 32) ++ List.replicate 24 0))

def ringed : State := (((inMesh ringMsg).fset VLT_REGION.KIND 18 4).fset VLT_REGION.BASE 18 0x100).fset VLT_REGION.LENGTH 18 1

def sent (answer : Option (Nat × Nat)) (held : Bool) : State :=
  ready.setSend 0 2 (some { d := 31, b := 30, try_ := false, msg := mailMsg, held := held, heldAt := 7, answer := answer })

/-- Core 2 of cluster 0 has a message for the ring that was held. -/
def heldSend : State :=
  ringed.setSend 0 2 (some { d := 31, b := 30, try_ := false, msg := leBytes 8 (9 * 2 ^ 32) ++ List.replicate 24 0, held := true,
                             heldAt := 7, answer := none })

theorem witness_ClusterMessages :
    ((inMesh mail).mesh.packets[0]? = some mail ∧ (inMesh mail).landed mail = true ∧ mail.type = .MSG
      ∧ mail.dst = .cluster 1 1 ∧ mail.src = .cluster 0 5
      ∧ mail.payload = .bytes mailMsg ∧ ((inMesh mail).dropPacket 0).refusal mail = none ∧ msgMailbox mailMsg = true)
    ∧ (let m := leBytes 8 (9 * 2 ^ 32) ++ List.replicate 24 0
      ringed.mesh.packets[0]? = some ringMsg ∧ ringed.landed ringMsg = true ∧ ringMsg.payload = .bytes m
      ∧ (ringed.dropPacket 0).refusal ringMsg = none ∧ msgMailbox m = false
      ∧ (ringed.dropPacket 0).ringRec 0 (msgDest m) = some ⟨9, 1, 2, 256⟩
      ∧ ((ringed.dropPacket 0).present 1 2 m 0).1 ≠ stWouldBlock)
    ∧ (let s := (ringed.fset VLT_REGION.LENGTH 18 0).setSend 0 2 ((heldSend).sendOf 0 2)
      let x := (s.dropPacket 0).present 1 2 (leBytes 8 (9 * 2 ^ 32) ++ List.replicate 24 0) 0
      x.1 = stWouldBlock ∧ (s.dropPacket 0).sendOf 0 2 = x.2.2.sendOf 0 2)
    ∧ (let s := (sent (some (0, 7)) false).updCore 0 2 fun c => { c with wait := some .answer }
      (s.sendOf 0 2).any (fun x => x.answer == some (0, 7)) = true ∧ (s.core 0 2).wait = some .answer)
    ∧ ((heldSend.sendOf 0 2).any (fun x => x.held && x.heldAt == 7) = true ∧ heldSend.owner 0 = some 0
      ∧ heldSend.ringRec 0 9 = some ⟨9, 1, 2, 256⟩ ∧ heldSend.ringMark 1 2 ≠ 7)
    ∧ Reached ready .MSG_RING_CTRL 0 := by
  refine ⟨?_, ?_, ?_, ?_, ?_, reached_of ?_⟩ <;> decide +kernel

/-- A request of the PCIe endpoint. -/
def request (t : PktType) (dst : MeshUnit) (poison : Bool) : Packet :=
  { packet t dst .pcie 0 0x1000 0 0 (.bytes (List.replicate 32 1)) with poison := poison }

theorem witness_MeshRequests :
    (∀ poison, let p := request .WRITE_REQ (.cluster 1 2) poison
      (ReadService.mk p [(.cluster 0 2, 7)] 10).ok = true ∧ ready.refusal p = none ∧ ready.flying p = false
        ∧ ready.behind p = false ∧ ready.carriesHalo p = false)
    ∧ (let p := request .READ_REQ (.channel 11 31) false
      p.ok = true ∧ ready.refusal p = none ∧ ready.flying p = false ∧ ready.behind p = false
      ∧ (ready.memRead 0 (0x1000 / 64 * 64) 64 true).1.fenced = false
      ∧ (ready.memWrite 0 0x1000 (packetBytes (request .WRITE_REQ (.channel 11 31) false)) false).1 = false)
    ∧ (let p := request .READ_REQ (.cluster 1 2) false
      (inMesh p).flying p = true ∧ (ready.fset FNC_PART_STATUS.FENCED 0 1).refusal p = some 1
      ∧ (ready.fset FNC_PART_STATUS.FENCED 0 1).flying p = false
        ∧ (ready.fset FNC_PART_STATUS.FENCED 0 1).behind p = false) := by
  refine ⟨fun p => ?_, ?_, ?_⟩ <;> (try cases p) <;> decide +kernel

/-- A packet at router (1, 0) on its way west to cluster 0. -/
def atOne (serial inj : Nat) : Packet :=
  { packet .READ_RSP (.cluster 0 2) (.cluster 1 3) 0 0 0 127 (.bytes (List.replicate 32 1)) with
    serial := serial, x := 1, injTime := inj }

theorem witness_MeshResponses :
    (let p := atOne 0 0;
      p.ok = true ∧ p.dst = .cluster 0 2 ∧ ready.flying p = false ∧ ready.lateAt (ready.hostPart 0) = false
      ∧ (ready.fset FNC_PART_STATUS.FENCED 0 1).flying p = false
      ∧ (ready.fset FNC_PART_STATUS.FENCED 0 1).lateAt ((ready.fset FNC_PART_STATUS.FENCED 0 1).hostPart 0) = true)
    ∧ (packet .MCAST_RSP (.cluster 0 2) .pcie 0 0 0 0 (.dests [(.cluster 0 2, 127), (.cluster 1 2, 0)] [])).ok = true := by
  decide +kernel

/-- Two packets that stand at router (1, 0), one from the east and one from its own cluster, and both leave to the west; a
circuit flit of cluster 0's context stands there as well, in slot 5 of that output. -/
def crossing : State :=
  { ready with mesh := { Mesh.init with
      packets := [atOne 0 5, atOne 1 5]
      buffers := [(bufKey (1, 0) 2 1 false, [⟨0, 1, []⟩]), (bufKey (1, 0) 4 1 false, [⟨1, 1, []⟩])]
      flits := [⟨0, 9, 1, 2, 7⟩]
      slots := [((1 * 5 + portNum .west) * 64 + 5, some (2, 9, 0))] } }

theorem witness_MeshForwarding :
    stepXY (1, 0) .west = some (0, 0) ∧ crossing.up (domPlat (dieOfPart (partOfXY (1, 0)))) = true
    ∧ crossing.up (domPlat (dieOfPart (partOfXY (0, 0)))) = true
    ∧ (crossing.placer.regions.all fun r => !regionHas r (1, 0)) = true
    ∧ crossing.slotFlit (1, 0) .west 69 = some 0 ∧ crossing.slotFlit (1, 0) .west 4 = none
    ∧ (let able := leaders ((crossing.bids (1, 0) .west).filter fun b => crossing.credited b (1, 0))
      able.length = 2
        ∧ (nearestInput (mget (fun _ => 0) crossing.mesh.pointers ((42 * 0 + 1) * 5 + portNum .west)) able).isSome = true)
    ∧ nearestInput 0 (leaders ((ready.bids (1, 0) .west).filter fun b => ready.credited b (1, 0))) = none
    ∧ (let s := { ready with placer := { ready.placer with regions := [⟨1, 0, 1, 0⟩] } }
      (s.placer.regions.all fun r => !regionHas r (1, 0)) = false)
    ∧ (crossing.mesh.packets[0]? = some (atOne 0 5) ∧ (atOne 0 5).aged = false
      ∧ ((2 ^ 15 + 6) % 2 ^ 16 + 2 ^ 16 - (atOne 0 5).injTime % 2 ^ 16) % 2 ^ 16 > 2 ^ 15) := by
  decide +kernel

/-- A contribution of cluster 1 to row 3 of the group with tag 5. -/
def clearPkt : Packet := packet .CLEAR (.cluster 0 1) (.cluster 1 3) 0 0 2 5 (.clear 3 1 1 false 0x7F (List.replicate 64 1) [1])

/-- The same group with a tree at router (0, 0), whose buffers hold `l`. -/
def treed (l : List Combine) : State :=
  { inMesh clearPkt with placer := { (inMesh clearPkt).placer with trees := [⟨0, 0, 5, [0]⟩] } }.setCombines 0 l
    |>.setBuf (bufKey (0, 0) 2 2 false) [⟨0, 3, []⟩]

theorem witness_ClearCombining :
    (let b : Combine := ⟨0, 5, 3, 1, false, 0x7F, 1, List.replicate 64 1, [0], false⟩
      let same := fun (b : Combine) => b.cx == clearPkt.cx && b.tag == clearPkt.reqId && b.row == 3 && b.run == 1
      let s := treed [b]
      s.mesh.packets[0]? = some clearPkt ∧ s.awaitsLook clearPkt (0, 0) = true ∧ s.wholeAt (0, 0) clearPkt = true ∧
      (s.combines 0).findIdx? same = some 0 ∧ (s.combines 0)[0]? = some b
        ∧ sameClearScale false 0x7F b.sfmt16 b.scale = true
      ∧ (sameClearScale false 0x7F true 3 = false ∧ clearScaleOf false 0x7F ≠ .invalid
        ∧ clearScaleOf false 0x80 ≠ .invalid
        ∧ sameClearScale false 0x7F false 0x80 = false) ∧ (s.group clearPkt.cx clearPkt.reqId).isSome = true
          ∧ takeAt (s.combines 0) 0 = some (b, []))
    ∧ (let s := treed []
      (s.combines 0).length < 4 ∧ s.awaitsLook clearPkt (0, 0) = true ∧ s.wholeAt (0, 0) clearPkt = true
      ∧ 1 < s.subtree ⟨0, 5, 2, 0, 4, 0x8000, 0, [0, 1]⟩ (0, 0) ∧ s.fget MSH_CLR_HOLD.HOLD (partOfXY (0, 0)) ≠ 0) := by
  decide +kernel

theorem witness_TokensCreditsAndRoots :
    (let p := here <| packet .TOKEN (.cluster 0 1) (.cluster 1 3) 0 0 2 0 (.token token0 .none)
      let t := (inMesh p).setEp 0 0 (endpoint false 0 []) |>.dropPacket 0
      (inMesh p).landed p = true ∧ (inMesh p).overtakes 0 p .none = false ∧ t.refusal p = none
        ∧ t.ep 0 token0.endpoint = some (endpoint false 0 []) ∧ token0.epoch = t.fget FOL_CX_STATE.EPOCH p.cx
      ∧ t.draining p.cx = false)
    ∧ (let s := ({ ready with mesh := { Mesh.init with credits := [(0, 2047)] } } : State).setEp 0 2047 (endpoint true 0 [])
      takeAt s.mesh.credits 0 = some ((0, 2047), []) ∧ s.ep 0 2047 = some (endpoint true 0 []))
    ∧ (let p := here clearPkt
      let t := (inMesh p).dropPacket 0
      let g : ClearingRec := ⟨0, 5, 2, 0, 4, 0x8000, 0, [0, 1]⟩
      (inMesh p).landed p = true ∧ t.refusal p = none ∧ t.group clearPkt.cx clearPkt.reqId = some g
        ∧ 1 = (t.cx clearPkt.cx).runNumber % 2 ^ 16
      ∧ 3 < g.rows ∧ VaultSound t 0 ∧ t.readOk 0 (g.base + 288 * 3) 288 = true
      ∧ (absorbInto (RowSlot.ofBytes ((t.vbytes 0 (g.base + 288 * 3) 288).take 32))
          (wordsOf ((t.vbytes 0 (g.base + 288 * 3) 288).drop 32) 64) 1 g.contributions 1 false 0x7F (List.replicate 64 1)).2.2 = 0)
    ∧ (let t := ((inMesh (here clearPkt)).updCx 0 fun x => { x with runNumber := 2 }).dropPacket 0
      t.refusal (here clearPkt) = none ∧ 1 ≠ (t.cx 0).runNumber % 2 ^ 16)
    ∧ (token0.epoch ≠ (ready.fset FOL_CX_STATE.EPOCH 0 1).fget FOL_CX_STATE.EPOCH 0)
    ∧ (clearPkt.payload = .clear 3 1 1 false 0x7F (List.replicate 64 1) [1]
      ∧ (⟨0, 5, 2, 0, 3, 0x8000, 0, [0, 1]⟩ : ClearingRec).rows ≤ 3) := by
  refine ⟨?_, ?_, ⟨?_, ?_, ?_, ?_, ?_, vaultSound_of ?_, ?_⟩, ?_, ?_, ?_⟩ <;> decide +kernel
/-! ### Statements about memory, folios and images -/

/-- Zeros up to `n` bytes. -/
def padTo (n : Nat) (b : List Byte) : List Byte := b ++ List.replicate (n - b.length) 0

def w16 (l : List Nat) : List Byte := l.flatMap (leBytes 2)

def imgHeader : List Byte :=
  leBytes 8 0x4D494E41524F5645 ++ w16 [1, 0, 4, 0xA1] ++ leBytes 8 896 ++ leBytes 8 832 ++ leBytes 4 0 ++ w16 [6, 0]
    ++ leBytes 4 0x40

def imgDirectory : List Byte :=
  [(1, 1, 192, 64), (2, 1, 256, 272), (3, 1, 576, 16), (4, 1, 640, 32), (5, 1, 704, 16), (14, 0, 768, 64)].flatMap
    fun (e : Nat × Nat × Nat × Nat) => leBytes 4 e.1 ++ leBytes 4 e.2.1 ++ leBytes 4 e.2.2.1 ++ leBytes 4 e.2.2.2

def imgRecords : List (List Byte) :=
  [padTo 64 (w16 [0, 1] ++ leBytes 4 1 ++ leBytes 8 0 ++ padTo 36 [1] ++ w16 [1]),
   padTo 320 (w16 [0, 1] ++ leBytes 12 0 ++ w16 [0, 1, 1]),
   padTo 64 (w16 [1, 4095, 0, 0, 1]),
   padTo 64 (w16 [0, 0, 0, 0xFFFF, 0xFFFF, 0xFFFF, 0xFFFF, 0xFFFF]),
   padTo 64 (leBytes 4 0 ++ leBytes 4 4),
   padTo 64 (leBytes 4 (encodeInsn .wft).toNat)]

/-- The smallest image for context 0: one cluster with one scratch region, one folio of one segment, a teller program of
one word. -/
def imgBody : List Byte := padTo 192 (padTo 64 imgHeader ++ imgDirectory) ++ imgRecords.flatten

/-- Its SHA-256 digest, as another implementation of FIPS 180-4 gives it. -/
def imgDigest0 : List Byte :=
  (leBytes 32 0x983776f99a9e95bf1ec032e340c8989bff0f11a7b641e71f71d318bc08cac0e6).reverse

def imgBytes : List Byte := imgBody ++ padTo 64 (leBytes 8 0x47534E41524F5645 ++ imgDigest0 ++ leBytes 4 0xFFFFFFFF)

/-- A device whose partition 0 has 16 working channels, with the licence of an EV4-T; the host holds the image. -/
def loadable : State :=
  { ((List.range 16).foldl (fun (s : State) ch => s.fset MEM_CH_STATE.STATE ch chGood)
    (({ ready with clusters := [(0, { Cluster.init with site := some 0 })]
                   placer := { ready.placer with reserved := [] } } : State).fset LIC_STATE.VARIANT 0 1)) with
    hostMem := ((List.range 896).zip imgBytes).filterMap fun e => if e.2 = 0 then none else some (4096 + e.1, e.2) }

theorem witness_imageFetch : loadable.imageRefusal 0 896 false imgBytes = none
    ∧ loadable.packageRefusal 0 (Image.of imgBytes 0) imgBytes = none := by decide +kernel

/-- A working channel of the last partition. -/
def working (s : State) : State := s.fset MEM_CH_STATE.STATE (chKey 11 31) chGood

/-- The last block of that channel. -/
def lastBlock : Nat := 16384 * 2048 - 1

theorem witness_MemoryBlocks :
    (let s := working ready;
      s.memServes 11 = true ∧ s.working 11 31 = true ∧ s.blockPoison 11 31 lastBlock = false)
    ∧ (let s := (working ready).setMem { Memory.init with poison := [(blockKey 11 31 lastBlock, true)] };
      s.memServes 11 = true ∧ s.working 11 31 = true ∧ s.blockPoison 11 31 lastBlock = true)
    ∧ (let s := (working ready).setMem { Memory.init with used := [(chunkKey 11 31 (lastBlock / 2048), true)] };
      s.memServes 11 = true ∧ s.working 11 31 = true ∧ s.fon MEM_SCRUB.ENABLE 11 = true
      ∧ chunkUsed s.memory (chunkKey 11 31 (lastBlock / 2048)) = true ∧ s.blockPoison 11 31 lastBlock = false)
    ∧ (let s := working ready
      let r : BlockErrors := ⟨[(0, 1), (71, 255)], []⟩
      let u : BlockErrors := ⟨[(0, 1), (35, 2), (71, 255)], [(0, 1), (35, 2), (70, 3), (71, 255)]⟩
      r.ok = true ∧ u.ok = true ∧ s.fget MEM_INJECT.CHANNEL 11 ≠ 31 ∧ s.fon MEM_CH_STATE.LANE (chKey 11 31) = false
      ∧ r.first.length = 2 ∧ u.first.length = 3 ∧ u.again.length = 4)
    ∧ (let s := ((working ready).fset MEM_CH_STATE.LANE (chKey 11 31) 1).fset MEM_CH_STATE.PIN (chKey 11 31) 23
      let far := fun (l : List (Nat × Byte)) => l.countP fun e => !(s.fon MEM_CH_STATE.LANE (chKey 11 31)
        && pinOf e.1 == s.fget MEM_CH_STATE.PIN (chKey 11 31))
      s.memServes 11 = true ∧ s.working 11 31 = true ∧ far [(71, 255), (0, 1)] = 1
        ∧ far [(71, 255), (0, 1), (1, 1)] = 2) := by
  decide +kernel

theorem witness_ChannelsDegradeAndFail :
    (let s := ((working ready).fset MEM_THRESH.CE_LIMIT 11 1).setMem { Memory.init with ceTimes := [(chKey 11 31, [0])] };
      s.fget MEM_THRESH.CE_LIMIT 11 ≠ 0 ∧ s.fget MEM_THRESH.CE_LIMIT 11 ≤ s.ceCount 11 31 ∧ s.chState 11 31 = chGood)
    ∧ (let s := ((working ready).fset MEM_THRESH.UE_LIMIT 11 1).setMem { Memory.init with ueTimes := [(chKey 11 31, [0])] };
      s.fget MEM_THRESH.UE_LIMIT 11 ≠ 0 ∧ s.fget MEM_THRESH.UE_LIMIT 11 ≤ s.ueCount 11 31 ∧ s.working 11 31 = true)
    ∧ (let s := (working ready).setMem { Memory.init with laneTimes := [(chKey 11 31 * 32 + 23, List.replicate 16 0)] };
      16 ≤ s.laneCount 11 31 23 ∧ s.working 11 31 = true ∧ s.fon MEM_CH_STATE.LANE (chKey 11 31) = false)
    ∧ (let s := ((working ready).setMem { Memory.init with laneTimes := [(chKey 11 31 * 32 + 23, List.replicate 16 0)] }).fset
        MEM_CH_STATE.LANE (chKey 11 31) 1;
      16 ≤ s.laneCount 11 31 23 ∧ s.working 11 31 = true ∧ s.fon MEM_CH_STATE.LANE (chKey 11 31) = true
      ∧ s.fget MEM_CH_STATE.PIN (chKey 11 31) ≠ 23)
    ∧ ((working ready).memServes 11 = true ∧ (working ready).working 11 31 = true)
    ∧ (let s := (working ready).setDomain (domMem 11) .off;
      s.memServes 11 = false ∧ s.working 11 31 = true)
    ∧ Reached ready .MEM_INJECT 11 := by
  refine ⟨?_, ?_, ?_, ?_, ?_, ?_, reached_of ?_⟩ <;> decide +kernel

/-- Context 0 in the last segment of its folio, which goes on to folio `next`, with the image's configuration. -/
def switching (next : Nat) : State :=
  ((imaged ready).updCx 0 fun x => { x with segment := true, lastSegment := true, withheld := true }).fset FOL_CX_NEXT.VALID 0 1
    |>.fset FOL_CX_NEXT.FOLIO 0 next

theorem witness_FolioEvents :
    (let s := (imaged ready).updCl 0 fun c => { c with loading := some ⟨0, 0, none⟩ };
      (s.cl 0).loading = some ⟨0, 0, none⟩ ∧ (let a := s.readStaged 0 ⟨0, 0, none⟩; (a.2.loadConfig 0 0 0 a.1).1 = false))
    ∧ (let im := { image0 with segments := [⟨0, 4, 0⟩], folioClusters := [⟨0, 0, 0, [], [], 0xFFFF, 0, 0, 0⟩], dataOffset := 0 }
      let s := ((ready.updCx 0 fun x => { x with image := some im }).updCl 0 fun c => { c with loading := some ⟨0, 0, none⟩ }).setFrame
        0 (storePage) (List.replicate 16 (11, 31, 0));
      (s.cl 0).loading = some ⟨0, 0, none⟩ ∧ (let a := s.readStaged 0 ⟨0, 0, none⟩; (a.2.loadConfig 0 0 0 a.1).1 = true))
    ∧ (let s := (switching 1).setFol 0 folDraining;
      s.drainComplete 0 = true ∧ (s.cx 0).drainedAt = none ∧ s.folState 0 = folDraining)
    ∧ (let s := switching 1;
      s.image 0 = some image0 ∧ (s.cx 0).lastSegment = true ∧ (s.cx 0).segment = true ∧ s.targetOf 0 ≠ 4095
      ∧ image0.users (s.targetOf 0) = [])
    ∧ (let s := switching 2;
      s.image 0 = some image0 ∧ s.targetOf 0 ≠ 4095
      ∧ ∃ u, image0.users (s.targetOf 0) = [u] ∧ u.cluster < 288 ∧ (s.stageAt image0 u).isSome = true
        ∧ (s.readConfig 0 image0 u).2.1 = false)
    ∧ (let s := ready.fset LIC_STATE.VARIANT 0 1;
      Reached s .FOL_CX_NEXT 15 ∧ s.cxLicensed 15 = true) := by
  refine ⟨?_, ?_, ?_, ?_, ⟨?_, ?_, ⟨0, 0, 0xFFFF, [0xFFFF, 0xFFFF], [0xFFFF, 0xFFFF], 0xFFFF, 0, 0, 0⟩, ?_⟩,
    ⟨reached_of ?_, ?_⟩⟩ <;> decide +kernel

theorem witness_ImageCommands :
    (Reached loadable .IMG_CTRL 0 ∧ loadable.fon IMG_STATUS.BUSY 0 = false ∧ 9 ≤ loadable.bringUp.done
      ∧ loadable.loadRefusal 0 = none)
    ∧ (let s := loadable.setJob (.fetch 0 4096 896 false);
      s.imageJob = .fetch 0 4096 896 false ∧ s.hostRead 4096 896 = imgBytes
      ∧ (s.imageRefusal 0 895 false imgBytes).isSome = true)
    ∧ (let s := (imaged loadable).fset IMG_CX_STATE.STATE 0 imgLoaded;
      Reached s .IMG_CTRL 0 ∧ s.fon IMG_STATUS.BUSY 0 = false ∧ s.imageJob = .idle ∧ 9 ≤ s.bringUp.done
      ∧ s.imgState 0 = imgLoaded ∧ s.image 0 = some image0 ∧ image0.fabric = [] ∧ s.unloadAllowed 0 = true)
    ∧ (((imaged ready).setJob (.activate 0)).imageJob = .activate 0 ∧ image0.clusters = [])
    ∧ (let s := (ready.updCx 0 fun x => { x with image := some { image0 with clusters := [⟨0, []⟩] } }).setJob (.activate 0);
      s.imageJob = .activate 0 ∧ s.image 0 = some { image0 with clusters := [⟨0, []⟩] })
    ∧ (let s := loadable.setJob (.fetch 0 4096 896 false)
      Reached s .IMG_CTRL 0 ∧ 9 ≤ s.bringUp.done ∧ s.imageJob = .fetch 0 4096 896 false)
    ∧ (let s := ({ loadable with bringUp := { loadable.bringUp with done := 8 } } : State)
      Reached s .IMG_CTRL 0 ∧ s.bringUp.done < 9) := by
  refine ⟨⟨reached_of ?_, ?_⟩, ?_, ⟨reached_of ?_, ?_⟩, ?_, ?_, ⟨reached_of ?_, ?_⟩, ⟨reached_of ?_, ?_⟩⟩ <;> decide +kernel
/-! ### Statements about placement and the fabric -/

theorem witness_MovesAndRetirement :
    (let s := ready.updCl 1 fun c => { c with moving := true, copyFrom := some 5 };
      (s.cl 1).site = some 1 ∧ s.owner 1 = some 0 ∧ (s.cl 1).moving = true
      ∧ (s.finishCopy 0 1 true).folState 0 = folNone)
    ∧ (let s := ((imaged ready).setFol 0 folRunning).updCl 0 fun c => { c with moving := true };
      let t := s.finishCopy 0 0 true;
      (s.cl 0).moving = true ∧ s.owner 0 = some 0 ∧ t.folState 0 ≠ folNone
      ∧ (t.loadConfig 0 0 (t.activeFolio 0) none).1 = false)
    ∧ (let m : Migration := ⟨0, 0, [(0, 0, 0)], [(11, 31, 0)], false⟩
      let s : State := { ready with placer := { ready.placer with migrations := [m] } }
      s.placer.migrations[0]? = some m ∧ s.copyCutOff m = false ∧ (s.setDomain (domPlat 1) .reset).copyCutOff m = true)
    ∧ (((ready.fset MXC_AUDIT_POLICY.AUD_RETIRE_COUNT 11 1).updSite 335 fun x => { x with window := [0] }).retireDue 335 ready.tally.count = true)
    ∧ (let s := ready.fset PLC_ROTATE.ENABLE 0 1;
      s.fon PLC_ROTATE.ENABLE 0 = true ∧ 11 ∉ s.placer.rotateDue) := by
  refine ⟨?_, ?_, ?_, ?_, ?_⟩ <;> decide +kernel

/-- One append that waits. -/
def appending : State :=
  { ready with placer := { ready.placer with appends := [{ kind := 1, cause := 2, location := 335, tally := 0 }] } }

theorem witness_MovesAndRetirement_ledger :
    (∃ e, appending.placer.appends = e :: [] ∧ appending.placer.defects.length + 1 < 4096)
    ∧ (∀ d : Defect, 4096 ≤ ({ appending with placer := { appending.placer with
        defects := List.replicate 4095 d } } : State).placer.defects.length + 1)
    ∧ (ready.contextsOn 11 = [] ∧ (ready.rebuildEntries 11).contextsOn 11 = [])
    ∧ (let s := ready.updCx 0 fun x => { x with segment := true };
      (s.rebuildEntries 0).contextsOn 0 = [0] ∧ ((s.rebuildEntries 0).cx 0).segment = true) := by
  refine ⟨⟨{ kind := 1, cause := 2, location := 335, tally := 0 }, ?_⟩, fun d => ?_, ?_, ?_⟩
  · decide +kernel
  · show 4096 ≤ (List.replicate 4095 d).length + 1
    rw [List.length_replicate]
  · decide +kernel
  · decide +kernel

/-- Port 23 in a state, with the licence of an EV4-T. -/
def port (st : Nat) : State := (ready.fset LIC_STATE.VARIANT 0 1).fset FAB_PORT_STATUS.STATE 23 st

theorem witness_PortControl :
    (Reached (port portIdle) .FAB_PORT_CTRL 23 ∧ (port portIdle).portLicensed 23 = true)
    ∧ (Reached ready .FAB_PORT_CTRL 23 ∧ ready.portLicensed 23 = false)
    ∧ ((port portUp).fset FAB_PORT_CTRL.ENABLE 23 1).fon FAB_PORT_CTRL.ENABLE 23 = true
    ∧ (((port portUp).fp 23).inputs = [] ∧ ((port portUp).fp 23).delivered = [] ∧ ((port portUp).fp 23).outq = []
      ∧ (port portUp).portState 23 = portUp ∧ ((port portUp).fp 23).resetting = false)
    ∧ (let s := (port portUp).updFp 23 fun p => { p with resetting := true };
      Reached s .FAB_PORT_CTRL 23 ∧ (s.fp 23).resetting = true)
    ∧ (let s := (port portUp).updFp 23 fun p => { p with naks := 8 };
      8 ≤ (s.fp 23).naks ∧ s.portState 23 = portUp) := by
  refine ⟨⟨reached_of ?_, ?_⟩, ⟨reached_of ?_, ?_⟩, ?_, ?_, ⟨reached_of ?_, ?_⟩, ?_⟩ <;> decide +kernel

def link (good : Bool) (btype seq : Nat) : LinkBlock :=
  { good := good, corrected := 1, seq := seq, btype := btype, ack := 0, nak := false, ready := true, credit := [0, 0, 0, 0],
    cells := List.replicate 26 .idle, tableError := none }

theorem witness_PortTraining :
    (port portTraining).portState 23 = portTraining ∧ (port portTraining).portLicensed 23 = true
      ∧ (port portRetraining).portState 23 = portRetraining
    ∧ (port portUp).portState 23 = portUp
    ∧ (let s := (port portUp).updFp 23 fun p => { p with expect := 4095, awaiting := true };
      let t := (s.fadd FAB_PORT_FEC.CORRECTED 23 1).tableCorrected 23 none;
      s.portState 23 = portUp
      ∧ ((link true 2 0).ok = true ∧ (link true 2 0).btype = 2)
      ∧ ((link true 0 4095).ok = true ∧ (link true 0 4095).btype ≠ 2 ∧ (link true 0 4095).seq = (t.fp 23).expect)
      ∧ ((link true 1 0).ok = true ∧ (link true 1 0).btype ≠ 2 ∧ (link true 1 0).good = true
        ∧ (link true 1 0).seq ≠ (t.fp 23).expect ∧ (t.fp 23).awaiting = true)
      ∧ ((link false 0 0).ok = true ∧ (link false 0 0).btype ≠ 2 ∧ (link false 0 0).good = false))
    ∧ (let s := port portUp;
      (link true 1 9).seq ≠ (((s.fadd FAB_PORT_FEC.CORRECTED 23 1).tableCorrected 23 none).fp 23).expect
      ∧ (s.fp 23).awaiting = false)
    ∧ (let s := (port portUp).updFp 23 fun p => { p with blocks := [⟨0, 1, [0, 0, 0, 0], List.replicate 26 .idle⟩] };
      (s.fp 23).blocks[(s.fp 23).resendAt]? = some ⟨0, 1, [0, 0, 0, 0], List.replicate 26 .idle⟩
      ∧ (List.replicate 26 Cell.idle).length = 26
      ∧ (∀ c, .packet c ∈ List.replicate 26 Cell.idle → c.payload.length = 32)
      ∧ (∀ c, .circuit c ∈ List.replicate 26 Cell.idle → c.payload.length = 44)) := by
  refine ⟨?_, ?_, ?_, ?_, ?_, ?_, ?_, ?_, fun c h => ?_, fun c h => ?_⟩
  case refine_9 => cases (List.mem_replicate.1 h).2
  case refine_10 => cases (List.mem_replicate.1 h).2
  all_goals decide +kernel

/-- A cell of a kind, on its channel, whose first route field is `out`. -/
def cellTo (kind out dst : Nat) (pl : List Byte) : PacketCell :=
  { vc := (kindVc kind).getD 0, esc := false, revValid := true, ptr := 0, kind := kind, route := out :: List.replicate 13 0,
    src := 7, dst := dst, xid := 511, index := 0, payload := padTo 32 pl }

/-- Port 23's input of VC 2 holds a cell; port 0 is open with a credit. -/
def queued (c : PacketCell) : State :=
  ((((port portUp).fset FAB_PORT_STATUS.STATE 0 portUp).fset FAB_PORT_STATUS.PARTNER_READY 0 1).updFp 0 fun p =>
    { p with credit := [(2, 1)] }).updFp 23 fun p => { p with inputs := [(2, [c])] }

theorem witness_PacketCells :
    (∀ out ∈ [24, 0, 31], let c := cellTo 7 out 9 [];
      let s := queued c;
      mget (fun _ => []) (s.fp 23).inputs (inputQueue (s.fp 23) 2) = [c] ∧ s.waitsAt 23 2 = none ∧ c.ptr ≠ 1
        ∧ c.esc = false
      ∧ kindVc c.kind = some c.vc ∧ s.nextOutput c = some out ∧ (out < 24 → s.portState out = portUp))
    ∧ (let c := { cellTo 7 0 9 [] with ptr := 15 };
      let s := queued c;
      mget (fun _ => []) (s.fp 23).inputs (inputQueue (s.fp 23) 2) = [c] ∧ s.nextOutput c = none)
    ∧ (let c := { cellTo 15 0 9 [] with vc := 2 }; let s := queued c;
      mget (fun _ => []) (s.fp 23).inputs (inputQueue (s.fp 23) 2) = [c] ∧ kindVc c.kind = none)
    ∧ (let c := cellTo 7 0 9 [];
      mget (fun _ => []) ((queued c).fp 23).inputs 2 = [c])
    ∧ (let q : QueuedCell := ⟨23, 2, cellTo 7 0 0 []⟩
      let s := ((port portUp).updFp 0 fun p => { p with outq := [q] });
      let t := (s.updFp 0 fun p => { p with outq := p.outq.erase q }).finc FAB_PORT_ESCAPED.COUNT 23
      s.waitsAt 23 2 = some 0 ∧ ((s.fp 0).outq.find? fun q => q.input == 23 && q.cell.vc == 2) = some q
      ∧ (t.nextOutput { q.cell with vc := 3, esc := true }).isSome = true) := by
  refine ⟨?_, ?_, ?_, ?_, ?_⟩ <;> decide +kernel

/-- Context 0 has window 255 over its object 1, open to module 7, and the object's first page. -/
def windowed (ops : Nat) : State :=
  ((((((List.range 16).foldl (fun (s : State) ch => s.fset MEM_CH_STATE.STATE ch chGood) ready).updCx 0 fun x =>
    { x with image := some { image0 with windows := [⟨255, 1, ops, 0xFFFFFFFF, 0, 0x200000, [(7, 7)]⟩]
                                         objects := [⟨1, 0, 0, 1, 0, 0, 0, 0⟩] } }).fset IMG_CX_STATE.STATE 0 2).setFrame 0 0
    ((List.range 16).map fun ch => (0, ch, 0))).updFp 23 fun p => { p with delivered := [] })

def ask (kind key off len : Nat) : PacketCell := cellTo kind 24 9 (Request.toBytes ⟨255, 0, key, off, len⟩)

theorem witness_RemoteTarget :
    (∀ kind ∈ [0, 1], let c := ask kind 0 0 256;
      c.ok = true ∧ (∃ st, ((windowed 3).takeCell 23 c).windowCheck (Request.ofCell c) c.src (kind == 1) = .inl st))
    ∧ (let c := ask 0 0xFFFFFFFF 0x1FFF00 256;
      let t := (windowed 3).takeCell 23 c;
      let r := Request.ofCell c;
      c.ok = true ∧ (∃ a, t.windowCheck r c.src false = .inr a ∧ t.remoteOk 23 r.rcx a r.length = true
        ∧ (t.remoteBlocks r.rcx a (r.length / 64)).1.any (·.fenced) = false))
    ∧ (let c := ask 1 0xFFFFFFFF 0x1FFF00 256;
      c.ok = true ∧ ∃ a, ((windowed 3).takeCell 23 c).windowCheck (Request.ofCell c) c.src true = .inr a)
    ∧ (∀ len ∈ [32, 64], let c := cellTo 2 24 9 [];
      let s := { windowed 3 with fabric := { (windowed 3).fabric with
        writes := [{ src := 7, xid := 511, port := 23, cell := ask 1 0 0 len, cx := 0, addr := 0, len := len, bad := false, data := [], took := [] }] } };
      c.ok = true ∧ ∃ w, (s.fabric.writes.find? fun w => w.src == c.src && w.xid == c.xid) = some w
        ∧ (w.data.any fun e => e.1 == c.index) = false ∧ 32 * c.index < w.len
        ∧ (if len = 32 then w.data.length + 1 = w.len / 32 else w.data.length + 1 ≠ w.len / 32)) := by
  refine ⟨?_, ⟨?_, ⟨0x1FFF00, ?_⟩⟩, ⟨?_, ⟨0x1FFF00, ?_⟩⟩, ?_⟩
  · intro k hk
    simp only [List.mem_cons, List.not_mem_nil, or_false] at hk
    rcases hk with rfl | rfl <;> exact ⟨by decide +kernel, ⟨0x22, by decide +kernel⟩⟩
  · decide +kernel
  · decide +kernel
  · decide +kernel
  · decide +kernel
  · intro k hk
    simp only [List.mem_cons, List.not_mem_nil, or_false] at hk
    rcases hk with rfl | rfl
    · exact ⟨by decide +kernel, ⟨{ src := 7, xid := 511, port := 23, cell := ask 1 0 0 32, cx := 0, addr := 0, len := 32, bad := false, data := [], took := [] },
        by decide +kernel⟩⟩
    · exact ⟨by decide +kernel, ⟨{ src := 7, xid := 511, port := 23, cell := ask 1 0 0 64, cx := 0, addr := 0, len := 64, bad := false, data := [], took := [] },
        by decide +kernel⟩⟩

/-- A remote request of cluster 0 with tag 127 to module 0, for which there is a route, and one of its transactions. -/
def remote (op : Nat) (started : Bool) (tx : List RemoteTx) : State :=
  let s := withReq { req (op + 32) 0x200000 0x200000 64 255 0 with started := started }
  { s with fabric := { s.fabric with route := [(0, 2 ^ 70)], tx := tx } }

theorem witness_RemoteSource :
    (∀ op ∈ [9, 10], ∃ cx q route, (remote op false []).remoteNext 0 127 op = some (cx, q)
      ∧ (remote op false []).routeFor q.module = some route
      ∧ (remote op false []).askRefusal (.cluster 0 2) (.port ((remote op false []).portNear 0)) = none
      ∧ (if op = 9 then (remote op false []).writeOk 0 q.dst q.length .dma else (remote op false []).readOk 0 q.src q.length) = true)
    ∧ (∀ len ∈ [32, 64], let c := cellTo 3 24 9 [];
      let s := remote 9 true [⟨7, 511, 0, 127, true, 0, len, []⟩];
      c.ok = true ∧ ∃ t q, (s.fabric.tx.find? fun t => t.toModule == c.src && t.xid == c.xid && t.read) = some t
        ∧ t.got.contains c.index = false ∧ 32 * c.index < t.len ∧ s.dmaReq t.cluster t.tag = some q
          ∧ s.owner t.cluster = some 0 ∧ q.lvault = true
        ∧ s.lateAt (s.hostPart t.cluster) = false
        ∧ s.transit (s.unitXY (.port 23) (s.clusterXY t.cluster)) (s.clusterXY t.cluster) = none
        ∧ (t.got.length + 1 = t.len / 32 ↔ len = 32))
    ∧ (∀ st ∈ [0, 0x12], let c := cellTo 4 24 9 (leBytes 1 st);
      let s := remote 9 true [⟨7, 511, 0, 127, true, 0, 64, []⟩];
      c.ok = true ∧ (s.fabric.tx.find? fun t => t.toModule == c.src && t.xid == c.xid).isSome = true
      ∧ s.lateAt (s.hostPart 0) = false ∧ leNat (c.payload.take 1) = st)
    ∧ (let s := (remote 9 false []).setDomain (domFab 0) .off;
      (s.remoteNext 0 127 9).isSome = true ∧ (s.routeFor 0).isSome = true
      ∧ s.askRefusal (.cluster 0 2) (.port (s.portNear 0)) ≠ none)
    ∧ (remote 9 false []).remoteNext 0 127 9 ≠ none
      ∧ ({ remote 9 false [] with fabric := { (remote 9 false []).fabric with route := [] } } : State).routeFor 0 = none := by
  refine ⟨?_, fun len h => ⟨?_, ⟨⟨7, 511, 0, 127, true, 0, len, []⟩, { req 41 0x200000 0x200000 64 255 0 with started := true }, ?_⟩⟩,
    ?_, ?_, ?_⟩
  · intro op h
    simp only [List.mem_cons, List.not_mem_nil, or_false] at h
    rcases h with rfl | rfl
    · exact ⟨0, req 41 0x200000 0x200000 64 255 0, List.replicate 14 0, by decide +kernel⟩
    · exact ⟨0, req 42 0x200000 0x200000 64 255 0, List.replicate 14 0, by decide +kernel⟩
  case refine_3 =>
    simp only [List.mem_cons, List.not_mem_nil, or_false] at h
    rcases h with rfl | rfl <;> decide +kernel
  all_goals decide +kernel
/-- Port 23's last binding, of circuit 4095, outbound or inbound, as it stands. -/
def bound (dir clearing : Nat) (b : Binding) : State :=
  let k := 23 * 256 + 255;
  ((((((port portUp).fset FAB_BIND_A.VALID k 1).fset FAB_BIND_A.DIR k dir).fset FAB_BIND_A.CIRCUIT k 4095).fset
    FAB_BIND_A.CLEARING k clearing).fset FAB_PORT_STATUS.PARTNER_READY 23 1).setBinding k b

def halfOf (sseq : Nat) (sent : Bool) (t : List Token) : OutHalf := { sseq := sseq, tokens := t, sent := sent, next := 0, lastAt := 0, used := [] }

def creditTo (op : Nat) : PacketCell := cellTo 5 24 9 (leBytes 8 (op + 2 ^ 16 * 4095 + 2 ^ 28 * 23) ++ leBytes 4 0xFFFFFFFF)

theorem witness_BindingCredit :
    (creditTo 0).ok = true
    ∧ (bound 0 0 Binding.init).creditCell (creditTo 0) false = some (23 * 256 + 255, 0xFFFFFFFF)
    ∧ (((bound 0 0 Binding.init).takeCell 23 (creditTo 2)).binding (23 * 256 + 255)).started 0xFFFFFFFF = false
    ∧ (((bound 0 0 { Binding.init with sealed := [halfOf 0xFFFFFFFF true []] }).takeCell 23 (creditTo 2)).binding
        (23 * 256 + 255)).started 0xFFFFFFFF = true
    ∧ (bound 1 0 Binding.init).creditCell (creditTo 3) true = some (23 * 256 + 255, 0xFFFFFFFF)
    ∧ (let c := cellTo 7 24 9 (leBytes 8 (2 ^ 64 - 1) ++ leBytes 4 (7 * 2 ^ 16 + 9));
      c.ok = true
      ∧ ((ready.takeCell 23 c).nose.pairs.contains (7, 9) = false ∧ ready.fget SNP_FWD.PORTS 0 = 0)
      ∧ (ready.fset SNP_FWD.PORTS 0 (2 ^ 23)).fget SNP_FWD.PORTS 0 ≠ 0
      ∧ (({ ready with nose := { ready.nose with pairs := [(7, 9)] } } : State).takeCell 23 c).nose.pairs.contains
        (bitsOf (leNat c.payload) 95 80, bitsOf (leNat c.payload) 79 64) = true) := by decide +kernel

def circuit (phase : Nat) : CircuitCell := { phase := phase, circuit := 4095, part := 0, payload := List.replicate 44 0 }

/-- Port 23 with an action for circuit 4095. -/
def acting (e : Nat) : State := ready.updFp 23 fun p => { p with ccur := [(4095, e)], circuitIn := [circuit 0] }

theorem witness_CircuitCells :
    (∀ e < 8, (circuit 0).ok = true
      ∧ (let t := ((acting e).fset LIC_STATE.VARIANT 0 1).updFp 23 fun p => { p with circuitIn := p.circuitIn.erase (circuit 0) };
      t.bankFor 23 0 = some [(4095, e)] ∧ mget zeroNat [(4095, e)] 4095 = e ∧ entAction e = e
        ∧ (t.fp 23).badCircuit.contains 4095 = false ∧ t.clearingLicensed = true))
    ∧ (acting 4).bankFor 23 0 = some [(4095, 4)] ∧ 4 ≤ entAction 4 ∧ (acting 4).clearingLicensed = false
    ∧ (acting 0).bankFor 23 1 = none ∧ (acting 0).bankFor 23 2 = none ∧ (acting 0).bankFor 23 3 = some []
    ∧ (((acting 1).updFp 23 fun p => { p with badCircuit := [4095] }).fp 23).badCircuit.contains 4095 = true := by
  refine ⟨?_, ?_, ?_, ?_, ?_, ?_, ?_, ?_⟩ <;> decide +kernel

/-- A token of one lane. -/
def token1 : Token :=
  { endpoint := 0, epoch := 0, kind := .data, poison := false, cx := 0, source := 0, sourceEp := 0, mask := 1,
    scales := List.replicate 4 1, id := 0, lanes := [5] }

/-- A clearing binding whose own half is sealed, with a token in its pass buffer, and the ADD action of its circuit. -/
def adding (t : Token) : State :=
  (bound 0 1 { Binding.init with sealed := [halfOf 3 true [token1]], pass := [(3, 0, 1, t)] }).updFp 23 fun p =>
    { p with ccur := [(9, 5 + 2 ^ 20 * 254)] }

theorem witness_HalvesAndClearing :
    (let s := bound 0 0 { Binding.init with sealed := [halfOf 3 false [token1]], grants := [3] };
      (s.halfToSend 23 255).isSome = true)
    ∧ (let s := bound 0 0 { Binding.init with sealed := [{ halfOf 3 true [token1] with next := 8 }] };
      (s.halfToResend 23 255).isSome = true)
    ∧ ((bound 0 0 Binding.init).halfCell (23 * 256 + 255) 4095 { halfOf 3 true [token1] with next := 7 }).isSome = true
    ∧ (let h := { halfOf 3 true [token1] with next := 7 };
      (bound 0 1 Binding.init).fon FAB_BIND_A.CLEARING (23 * 256 + 255) = true ∧ h.next + 1 = 8 * h.tokens.length)
    ∧ (bound 0 0 Binding.init).fon FAB_BIND_A.CLEARING (23 * 256 + 255) = false
    ∧ (∀ good ∈ [true, false],
      let s := adding { token1 with scales := (if good then 1 else 2) :: List.replicate 3 1 };
      ∃ q idx total tok rest e h o, takeAt (s.binding (23 * 256 + 255)).pass 0 = some ((q, idx, total, tok), rest)
        ∧ s.addEntry 23 255 = some e ∧ ((s.binding (23 * 256 + 255)).sealed.find? fun h => h.sseq == q) = some h
        ∧ s.logsReached 23 = true ∧ h.tokens[idx]? = some o ∧ scalesAgree tok o = good
        ∧ entAction e = 5) := by
  refine ⟨?_, ?_, ?_, ?_, ?_, fun good hg => ?_⟩
  case refine_6 =>
    simp only [List.mem_cons, List.not_mem_nil, or_false] at hg
    rcases hg with rfl | rfl
    · exact ⟨3, 0, 1, token1, [], 5 + 2 ^ 20 * 254, halfOf 3 true [token1], token1, by decide +kernel⟩
    · exact ⟨3, 0, 1, { token1 with scales := 2 :: List.replicate 3 1 }, [], 5 + 2 ^ 20 * 254, halfOf 3 true [token1], token1,
        by decide +kernel⟩
  all_goals decide +kernel

/-- A cartridge record of zeros. -/
def cart : Cartridge := { identity := List.replicate 256 0, signature := [], hours := 0, insertions := 65535, lastModule := 0 }

theorem witness_FabricTables :
    Reached ready .FAB_ROUTE_HIGH 0 ∧ Reached ready .FAB_ESCAPE 0 ∧ Reached ready .FAB_ROUTE_VALID 0
      ∧ 8 ≤ ready.bringUp.done
    ∧ (ready.fset FAB_TABLE_COMMIT.COPYING 23 1).fon FAB_TABLE_COMMIT.COPYING 23 = true
    ∧ (okEntry .circuit 4095 = true ∧ 4095 ∉ (ready.fp 23).badCircuit) ∧ (okEntry .slot 415 = true
      ∧ 415 ∉ (ready.fp 23).badSlot)
    ∧ (okEntry .route 16383 = true ∧ 16383 ∉ (ready.fp 23).badRoute ∧ 16383 ∉ (ready.fp 23).badEscape)
    ∧ (let s := (port portUp).updFp 23 fun p => { p with cartridge := some cart };
      (s.fp 23).cartridge = some cart ∧ s.portState 23 = portUp) := by
  refine ⟨reached_of ?_, reached_of ?_, reached_of ?_, ?_, ?_, ?_, ?_, ?_, ?_⟩ <;> decide +kernel
/-! ### Statements about the host interface -/

/-- A data object in the mailbox: header, then a body of 8 bytes. -/
def doe (vendor type kind : Nat) (n : Nat) : List Byte :=
  leBytes 2 vendor ++ leBytes 2 type ++ leBytes 4 (n / 4) ++ padTo (n - 8) (leBytes 4 kind)

theorem witness_PcieFunction :
    (ready.host.perst = false ∧ ready.up domPcie = true ∧ ready.host.ready = true ∧ ready.host.doeRequest = none)
    ∧ (let s := ready.setHost { ready.host with ready := false, memorySpace := false };
      s.host.perst = false ∧ s.up domPcie = true ∧ s.host.ready = false)
    ∧ (ready.domain domPcie ≠ .off ∧ State.reset.domain domPcie = .off)
    ∧ (ready.setHost { ready.host with memorySpace := false }).host.memorySpace = false
    ∧ ((doe 0 0 0 8).take 11).length < 12
    ∧ (let b := doe 1 0 0 12;
      b.length = 12 ∧ 4 * (rd b 4 4 % 2 ^ 18) = b.length ∧ rd b 0 2 = 1 ∧ rd b 2 1 = 0)
    ∧ (ready.lifeCommand = false ∧ (({ ready with hostMem := [(8, 7)] } : State).setSec { ready.security with command := some (0, 132) }).lifeCommand = true)
    ∧ (∀ kind ∈ [1, 2, 3], let b := doe 0x1234 2 kind 16;
      b.length = 16 ∧ 4 * (rd b 4 4 % 2 ^ 18) = b.length ∧ ¬(rd b 0 2 = 1 ∧ rd b 2 1 = 0)
      ∧ rd (b.drop 8) 4 4 = 0 ∧ rd (b.drop 8) 0 4 = kind)
    ∧ (let b := doe 0x1234 2 1 4096;
      b.length ≤ 4096 ∧ 12 ≤ b.length ∧ 4 * (rd b 4 4 % 2 ^ 18) = b.length ∧ rd (b.drop 8) 4 4 = 0
        ∧ rd (b.drop 8) 0 4 = 1) := by
  refine ⟨?_, ?_, ?_, ?_, ?_, ?_, ?_, ?_, ?_⟩ <;> decide +kernel

/-- Window 0 of BAR2 reaches the object of context 0. -/
def apertured : State :=
  (((windowed 3).fset PCI_LINK.READY 0 1).fset PCI_WINDOW.ENABLE 0 1).fset LIC_STATE.VARIANT 0 1

theorem witness_Aperture :
    apertured.aborting = false ∧ apertured.aperture (0x200000 - 64) 64 = some (0, 0x200000 - 64)
    ∧ apertured.rangeLost 0 (0x200000 - 64) 64 = false ∧ apertured.rangeDumb 0 (0x200000 - 64) 64 = false
    ∧ (apertured.memRead 0 (0x200000 - 64) 64 true).1.poison = false
    ∧ ((apertured.setMem { apertured.memory with poison := [(blockKey 0 15 2047, true)] }).memRead 0 (0x200000 - 64) 64 true).1.poison = true
    ∧ apertured.aperture (0x200000 - 63) 64 = none
    ∧ (apertured.setDomain (domMem 0) .off).aperture 0 64 = some (0, 0)
    ∧ (apertured.setDomain (domMem 0) .off).rangeDumb 0 0 64 = true
    ∧ (apertured.setDomain (domMem 0) .off).aborting = false := by
  refine ⟨?_, ?_, ?_, ?_, ?_, ?_, ?_, ?_, ?_, ?_⟩ <;> decide +kernel

def record (op arg host dev : Nat) (started : Bool) : Command :=
  { bytes := padTo 64 (leBytes 4 (16 * op) ++ leBytes 4 arg ++ leBytes 8 host ++ leBytes 8 dev), boundary := 0,
    started := started }

/-- Context 15 has an image with one object of a page, and a command in its ring. -/
def commanded (c : Command) : State :=
  ((ready.updCx 15 fun x => { x with image := some { image0 with objects := [⟨1, 0, 0, 1, 0, 0, 0, 0⟩] } }).fset
    IMG_CX_STATE.STATE 15 2).updRing 15 fun r => { r with queue := [c] }

theorem witness_HostCommands :
    (∀ c ∈ [record 1 0 0 0 false, record 2 64 64 0x1FFFC0 false, record 3 0x200000 64 0 false],
      ((commanded c).ring 15).nextInTally = some (0, c) ∧ c.waits 0 = false ∧ (commanded c).cmdRefusal 15 c = none)
    ∧ (∀ c ∈ [record 1 1 0 0 false, record 2 64 64 0x200000 false, record 3 32 64 0 false],
      ((commanded c).ring 15).nextInTally = some (0, c) ∧ c.waits 0 = false
        ∧ ((commanded c).cmdRefusal 15 c).isSome = true)
    ∧ (let c := record 3 64 64 0x1FFFC0 true;
      (((commanded c).ring 15).queue.zipIdx.filter fun e => e.1.isCopy && e.1.started)[0]? = some (c, 0)
      ∧ ((commanded c).objectOf 15 c.dev c.arg).isSome = true)
    ∧ (∀ c ∈ [record 4 256 64 0 false, record 5 0xFFF 0 0 false, record 6 0 0 0 false, record 7 0 0 0 false],
      ((commanded c).ring 15).nextBoundary = some (0, c) ∧ c.waits 0 = false ∧ (commanded c).cmdRefusal 15 c = none)
    ∧ (let s := (ready.fset SUB_POLL.OVERLOAD 0 1).updRing 15 fun r => { r with backlogged := 1 };
      mwf regDefault s.regs = true ∧ s.fget SUB_POLL.OVERLOAD 0 ≠ 0 ∧ s.fget SUB_POLL.OVERLOAD 0 ≤ (s.ring 15).backlogged
      ∧ (s.ring 15).overloaded = false) := by
  refine ⟨?_, ?_, ?_, ?_, ?_⟩ <;> decide +kernel
/-! ### Statements about power, self-test and recovery -/

/-- What partition 11 has in hand. -/
def powered (f : PartPower → PartPower) : State := ready.updPw 11 f

theorem witness_PowerStates :
    Reached ready .PWR_STATE_CTRL 0
    ∧ (let s := (powered fun w => { w with goal := some pwSleep }).setDomain (domArr 11) .off;
      (s.pw 11).goal = some pwSleep
      ∧ ((s.updPw 11 fun w => { w with goal := none }).fset PWR_PART_STATUS.STATE 11 pwSleep).leaveHold.up (domArr 11) = false)
    ∧ (let s := (powered fun w => { w with goal := some pwHold }).setDomain (domArr 11) .off;
      (s.pw 11).goal = some pwHold
      ∧ ((s.updPw 11 fun w => { w with goal := none }).fset PWR_PART_STATUS.STATE 11 pwHold).up (domArr 11) = false)
    ∧ (let s := powered fun w => { w with goal := some pwActive };
      let t := ((s.updPw 11 fun w => { w with goal := none }).fset PWR_PART_STATUS.STATE 11 pwActive).leaveHold;
      (s.pw 11).goal = some pwActive ∧ (s.pw 11).held ≠ some pwHold ∧ t.up (domArr 11) = true ∧ t.up (domMem 11) = true)
    ∧ (∀ c ∈ [PointChange.raise 6, .trim, .lower 0 false, .lower 0 true],
      ((powered fun w => { w with change := c }).pw 11).change = c)
    ∧ ready.up (domPlat 0) = true := by
  refine ⟨reached_of ?_, ?_, ?_, ?_, ?_, ?_⟩ <;> decide +kernel

/-- The droop of detector 15. -/
def asserted (s : State) : State :=
  (((s.finc DRP_COUNT.COUNT 11).fset DRP_STATUS.ASSERTED 11 ((s.finc DRP_COUNT.COUNT 11).detectors 11 ||| 2 ^ 15)).fset
    DRP_STATUS.LAST 11 15).updPw 11 fun w => { w with stretched := true }

theorem witness_DroopsAndTrips :
    (ready.up (domArr 11) = true ∧ ((asserted ready).pw 11).change = .none ∧ (ready.pw 11).hot = false)
    ∧ (let s := powered fun w => { w with change := .raise 6 };
      s.up (domArr 11) = true ∧ ((asserted s).pw 11).change ≠ .none)
    ∧ ((powered fun w => { w with abandonDue := true }).pw 11).abandonDue = true
    ∧ (ready.power.brakeLow = false ∧ ready.started = true ∧ ready.fon PWR_STATUS.BRAKE 0 = false) := by
  refine ⟨?_, ?_, ?_, ?_⟩ <;> decide +kernel

/-- Engine 7 of partition 11 at work, in the test window, 50 ns before the edge. -/
def testing (w : Work) (again : Bool) : State :=
  (ready.setTest { ready.test with window := true }).setEngine 11 7 (some (w, again)) |>.setTally
    { ready.tally with time := 5, nextEdge := 10 }

/-- The same, 10 ns later. -/
def testingLate (w : Work) (again : Bool) : State :=
  let s := testing w again
  s.setTally { s.tally with time := 6 }

/-- A tally with a window of 128 units of 100 ns, of which `left` steps of 10 ns are left. -/
def windowed0 (left : Nat) : State :=
  let s := ready.fset BST_WINDOW.LENGTH 0 128
  s.setTally { s.tally with time := 0, nextEdge := left }

theorem witness_TestSlices :
    (∀ again ∈ [false, true], let s := testing (.march 335 29 0 0) again;
      s.engine 11 7 = some (.march 335 29 0 0, again) ∧ s.test.window = true ∧ s.sliceLate = false
      ∧ (testingLate (.march 335 29 0 0) again).sliceLate = true)
    ∧ (∀ again ∈ [false, true], let s := testing (.scan 335) again;
      s.engine 11 7 = some (.scan 335, again) ∧ s.test.window = true ∧ s.sliceLate = false ∧ s.slicePoison 11 = []
      ∧ (testingLate (.scan 335) again).sliceLate = true)
    ∧ ready.test.window = false ∧ (windowed0 1).windowDue = true ∧ (windowed0 (2 ^ 40)).windowDue = false ∧ Reached ready .BST_RESULT_POP 0 ∧ 5 ≤ ready.bringUp.done
    ∧ ready.test.invalidReported = false := by
  refine ⟨?_, ?_, ?_, ?_, ?_, reached_of ?_, ?_, ?_⟩ <;> decide +kernel

theorem witness_TestPlans :
    (let s := ready.fset LCS_STATE.STATE 0 1;
      Reached s .BST_PLAN_CTRL 0 ∧ (∀ n ∈ [1, 2, 4], s.planRefusal n (2 ^ 11) 0 = 0) ∧ s.planRefusal 5 0 0 = 0
        ∧ s.planRefusal 3 0 1 = 0 ∧ (s.cl 1).site = some 1
      ∧ s.planRefusal 6 0 0 = 0)
    ∧ (let s := ready.setTest { ready.test with plan := some ⟨1, 2 ^ 11, [335], true⟩ };
      ∃ t, s.test.plan = some t ∧ t.started = true ∧ t.plan = 1
        ∧ ([⟨335, 29, 0, 0, 0, 0⟩] : List UnitFailure).all UnitFailure.ok = true ∧ 335 ∈ t.sites)
    ∧ (∀ n ∈ [2, 4, 5], let s := ready.setTest { ready.test with plan := some ⟨n, 0, [335], true⟩ };
      ∃ t, s.test.plan = some t ∧ t.started = true ∧ t.plan = n ∧ s.planFinds t ⟨335, 30, 0, 0, 0, 0⟩ = true)
    ∧ (let s := ((ready.fset LCS_STATE.STATE 0 1).setTest { ready.test with raw := true }).updSite 335 fun x => { x with state := .SPARE };
      Reached s .SCN_RAW_CTRL 0 ∧ s.test.raw = true ∧ s.rwlOpen = true ∧ (s.site 335).state = .SPARE
      ∧ s.up (domArr (partOfSite 335)) = true ∧ unitRows 29 - 1 < unitRows 29)
    ∧ (Reached ready .SCN_RAW_CTRL 0 ∧ ready.test.raw = false) := by
  refine ⟨⟨reached_of ?_, ?_⟩, ⟨⟨1, 2 ^ 11, [335], true⟩, ?_⟩, fun n h => ⟨⟨n, 0, [335], true⟩, ?_⟩, ⟨reached_of ?_, ?_⟩, ⟨reached_of ?_, ?_⟩⟩
  case refine_4 =>
    simp only [List.mem_cons, List.not_mem_nil, or_false] at h
    rcases h with rfl | rfl | rfl <;> decide +kernel
  all_goals decide +kernel

/-- Context 0 runs the segment of its folio on cluster 0, which has not finished it. -/
def running : State :=
  (((imaged ready).updCx 0 fun x => { x with segment := true }).fset IMG_CX_STATE.STATE 0 2).setFol 0 folRunning

theorem witness_StepThreeDecisions :
    (let s := (running.fset TLY_CX_POLICY.SKIP_LIMIT 0 1).updCx 0 fun x => { x with skips := 1 };
      s.scheduled 0 = true ∧ (s.cx 0).segment = true ∧ (s.cx 0).hold = .none ∧ s.segmentFinished 0 = false
        ∧ s.rerunDue 0 = false ∧ s.hangDue 0 = false ∧ (s.cx 0).hangNow = false
      ∧ s.depends 0 = false ∧ s.fget TLY_CX_POLICY.POLICY 0 = 0 ∧ s.fget TLY_CX_POLICY.SKIP_LIMIT 0 ≠ 0
      ∧ s.fget TLY_CX_POLICY.SKIP_LIMIT 0 ≤ (s.cx 0).skips)
    ∧ (let s := (running.setFol 0 folSlipped).updCx 0 fun x => { x with faultMark := some csDrainTimeout };
      s.folState 0 = folSlipped ∧ (s.cx 0).faultMark = some csDrainTimeout)
    ∧ (let s := ((running.fset TLY_CX_POLICY.SKIP_LIMIT 0 9).setCore 0 0 { Core.init with run := .blocked, wait := some (.token 0) }).fset
        HNG_CTRL.WINDOW 0 1;
      s.hangDue 0 = true)
    ∧ (let s := { running with recovery := { running.recovery with replaying := some 0 } };
      (s.updCx 0 fun x => { x with replayBoundaries := 2 ^ 32 }).quarantineDue 0 = true)
    ∧ (let s := ((running.updCx 0 fun x => { x with rerunMark := true, faultParts := [11, 11] }).fset HNG_CTRL.RERUN_LIMIT 0 1).fset
        HNG_CX_WAIT.RERUNS 0 1;
      s.hangDue 0 = false ∧ s.rerunLimitDue 0 = true ∧ (s.cx 0).faultParts.dedup.filter (fun p => !s.fenced p) = [11]) := by
  refine ⟨?_, ?_, ?_, ?_, ?_⟩ <;> decide +kernel

theorem witness_PartitionResets :
    Reached ready .RST_PART_CTRL 0 ∧ Reached ready .RST_CX_CTRL 0
    ∧ (ready.fset FNC_PART_STATUS.DRAINING 11 1).fon FNC_PART_STATUS.DRAINING 11 = true
    ∧ (let r : PartReset := { raised := 0, replay := false, ready := false, accepted := [] };
      let s := ready.setPartReset 11 (some r)
      s.partReset 11 = some r ∧ s.dieReset (dieOfPart 11) = false ∧ s.fon FNC_PART_STATUS.DRAINING 11 = false
      ∧ (s.fset FNC_PART_STATUS.DRAINING 11 1).fon FNC_PART_STATUS.DRAINING 11 = true
      ∧ (s.fset FNC_PART_STATUS.DRAINING 11 1).outstanding 11 = false
      ∧ (s.fset FNC_PART_STATUS.DRAINING 11 1).dieReset (dieOfPart 11) = false) := by
  refine ⟨reached_of ?_, reached_of ?_, ?_, ?_⟩ <;> decide +kernel

theorem witness_DieAndPackageResets :
    (Reached ready .RST_DIE_CTRL 0 ∧ ready.dieReset 3 = false)
    ∧ (∀ d ∈ [0, 3], (ready.setRecovery { ready.recovery with dies := [(d, true)] }).dieReset d = true)
    ∧ Reached ready .RST_PKG_CTRL 0 ∧ (ready.fset NOS_STATUS.RUNNING 0 1).fon NOS_STATUS.RUNNING 0 = true := by
  refine ⟨⟨reached_of ?_, ?_⟩, ?_, reached_of ?_, ?_⟩ <;> decide +kernel
/-! ### Statements about bring-up, security, the Nose, registers and the time base -/

/-- A device with `n` steps of bring-up done. -/
def broughtTo (n : Nat) : State := { ready with bringUp := { ready.bringUp with done := n } }

theorem witness_BringUpSteps :
    (∀ n < 9, Reached (broughtTo n) .BRG_STEP 0 ∧ (broughtTo n).bringUp.running = none ∧ (broughtTo n).mayRetry = true
      ∧ (broughtTo n).bringUp.done = n)
    ∧ (∀ code ∈ [0, brgLedger, brgPower], ({ ready with bringUp := { ready.bringUp with running := some (3, code, 0, 20) } } :
      State).bringUp.running = some (3, code, 0, 20)) := by
  refine ⟨fun n h => ⟨reached_of ?_, ?_⟩, ?_⟩
  · revert n; decide +kernel
  · revert n; decide +kernel
  · decide +kernel

/-- An envelope of a kind with its challenge of zeros. -/
def envelope (kind param : Nat) (body : List Byte) : List Byte :=
  leBytes 8 0x45534E41524F5645 ++ leBytes 2 kind ++ leBytes 2 0 ++ leBytes 4 body.length ++ leBytes 4 0 ++ leBytes 4 param
    ++ zeros 72 ++ sha256 body ++ body ++ leBytes 4 0

/-- The host submits it. -/
def submitting (b : List Byte) : State :=
  { ((ready.fset SEC_CMD_ADDR.ADDR 0 1).fset SEC_CMD_LEN.LENGTH 0 b.length).setSec { ready.security with challengeValid := true } with
    hostMem := ((List.range b.length).zip b).filterMap fun e => if e.2 = 0 then none else some (64 + e.1, e.2) }

/-- SHA-256 of no bytes, as FIPS 180-4 implementations give it. -/
theorem test_sha256_empty : sha256 [] = (leBytes 32 0xe3b0c44298fc1c149afbf4c8996fb92427ae41e4649b934ca495991b7852b855).reverse := by
  decide +kernel

/-- The engine works on a command that the host submitted at address 64. -/
def commandOf (s : State) : State :=
  s.setSec { s.security with command := some (s.fget SEC_CMD_ADDR.ADDR 0 * 64, s.fget SEC_CMD_LEN.LENGTH 0) }

theorem witness_SecurityCommands :
    (∀ e ∈ [(1, 0, 0), (2, 0, 0), (3, 0, 0), (4, 0, 16), (5, 7, 0), (6, 1, 0), (7, 4, 0), (8, 86400, 0)],
      let s := submitting (envelope e.1 e.2.1 (if e.2.2 = 0 then [] else padTo 16 [1]));
      s.secServes = true ∧ s.security.command = none ∧ s.submitted.badFormat = false ∧ s.submitted.kind = e.1)
    ∧ (let s := commandOf (submitting (envelope 5 7 []));
      s.secServes = true ∧ s.security.command.isSome = true ∧ s.submitted.badFormat = false ∧ s.submitted.kind = 5
      ∧ s.carries s.submitted = true)
    ∧ (let s := submitting (envelope 9 0 []);
      s.secServes = true ∧ s.submitted.badFormat = true) := by
  refine ⟨?_, ?_, ?_⟩ <;> decide +kernel

/-- What stands before and after the DEVICE_ID in an envelope of KIND 5 without a body, of a challenge of zeros. -/
def envHead : List Byte := (envelope 5 7 []).take 32
def envTail : List Byte := (envelope 5 7 []).drop 64

theorem rd_head {d : List Byte} (k n : Nat) (h : k + n ≤ 32) : rd (envHead ++ (d ++ envTail)) k n = rd envHead k n := by
  have l : envHead.length = 32 := by decide +kernel
  simp only [rd, List.drop_append_of_le_length (l₂ := d ++ envTail) (show k ≤ envHead.length by omega)]
  rw [List.take_append_of_le_length (by rw [List.length_drop]; omega)]

theorem rdBytes_tail {d : List Byte} (k n : Nat) (hd : d.length = 32) :
    rdBytes (envHead ++ (d ++ envTail)) (64 + k) n = rdBytes envTail k n := by
  have l : envHead.length + d.length = 64 := by rw [hd]; decide +kernel
  simp only [rdBytes, ← List.append_assoc, ← List.drop_drop]
  rw [List.drop_left' (by rw [List.length_append]; exact l)]

theorem rd_tail {d : List Byte} (k n : Nat) (hd : d.length = 32) :
    rd (envHead ++ (d ++ envTail)) (64 + k) n = rd envTail k n := congrArg leNat (rdBytes_tail k n hd)

/-- An envelope for a device, read. -/
theorem env_of {d : List Byte} (hd : d.length = 32) :
    (Env.of (envHead ++ (d ++ envTail))).badFormat = false ∧ (Env.of (envHead ++ (d ++ envTail))).deviceId = d
    ∧ (Env.of (envHead ++ (d ++ envTail))).kind = 5 ∧ (Env.of (envHead ++ (d ++ envTail))).challenge = zeros 32 := by
  have n : rd (envHead ++ (d ++ envTail)) 12 4 = 0 := (rd_head 12 4 (by omega)).trans (by decide +kernel)
  have k : rd (envHead ++ (d ++ envTail)) 8 2 = 5 := (rd_head 8 2 (by omega)).trans (by decide +kernel)
  have len : (envHead ++ (d ++ envTail)).length = 132 := by
    rw [List.length_append, List.length_append, hd]; decide +kernel
  have c : rdBytes (envHead ++ (d ++ envTail)) 64 32 = zeros 32 := (rdBytes_tail 0 32 hd).trans (by decide +kernel)
  have dg : rdBytes (envHead ++ (d ++ envTail)) 96 32 = sha256 [] := (rdBytes_tail 32 32 hd).trans (by decide +kernel)
  have sl : rd (envHead ++ (d ++ envTail)) 128 4 = 0 := (rd_tail 64 4 hd).trans (by decide +kernel)
  have mg : rd (envHead ++ (d ++ envTail)) 0 8 = 0x45534E41524F5645 := (rd_head 0 8 (by omega)).trans (by decide +kernel)
  have z : rd (envHead ++ (d ++ envTail)) 24 8 = 0 := (rd_head 24 8 (by omega)).trans (by decide +kernel)
  have q : rd (envHead ++ (d ++ envTail)) 16 4 = 0 := (rd_head 16 4 (by omega)).trans (by decide +kernel)
  have p : rd (envHead ++ (d ++ envTail)) 20 4 = 7 := (rd_head 20 4 (by omega)).trans (by decide +kernel)
  refine ⟨?_, ?_, k, c⟩
  · have b : rdBytes (envHead ++ (d ++ envTail)) 128 0 = [] := List.take_zero
    simp [Env.badFormat, Env.of, n, k, len, c, dg, sl, mg, z, q, p, b]
  · have l : envHead.length = 32 := by decide +kernel
    simp only [Env.of, rdBytes]
    rw [List.drop_left' l, List.take_left' hd]

theorem hostRead_hostWrite {s : State} (h : mwf zeroByte s.hostMem = true) (a : Nat) (b : List Byte) :
    (s.hostWrite a b).hostRead a b.length = b := mslice_mrun a b h

theorem challengeBytes_hostWrite (s : State) (a : Nat) (b : List Byte) :
    (s.hostWrite a b).challengeBytes = s.challengeBytes := rfl

/-- The host submits an envelope for this device, of a challenge that is no longer the current one. -/
def stale0 : State :=
  (((ready.fset SEC_CMD_ADDR.ADDR 0 1).fset SEC_CMD_LEN.LENGTH 0 132).setSec { ready.security with challengeValid := true }).rset
    .LCS_CHALLENGE 7 1
def ownId : List Byte := sha256 ((List.range 60).map Config.identityKey)
def stale : State := stale0.hostWrite 64 (envHead ++ (ownId ++ envTail))

theorem stale_deviceId : stale.deviceId = ownId := by
  rw [State.deviceId, State.identityBytes, if_pos (by decide +kernel), ownId]

theorem witness_SecurityCommands_challenge :
    stale.secServes = true ∧ stale.submitted.badFormat = false ∧ stale.submitted.deviceId = stale.deviceId
    ∧ 5 ≤ stale.submitted.kind ∧ stale.carries stale.submitted = false := by
  have hd : ownId.length = 32 := sha256_length _
  have r : stale.submitted = Env.of (envHead ++ (ownId ++ envTail)) := by
    have len : (envHead ++ (ownId ++ envTail)).length = 132 := by
      rw [List.length_append, List.length_append, hd]; decide +kernel
    have h : stale.hostRead 64 132 = envHead ++ (ownId ++ envTail) := by
      have h := hostRead_hostWrite (s := stale0) (by decide +kernel) 64 (envHead ++ (ownId ++ envTail))
      rw [len] at h
      exact h
    have a : stale.fget SEC_CMD_ADDR.ADDR 0 * 64 = 64 ∧ stale.fget SEC_CMD_LEN.LENGTH 0 = 132 := by decide +kernel
    have g : stale.submitted = Env.of (stale.hostRead (stale.fget SEC_CMD_ADDR.ADDR 0 * 64) (stale.fget SEC_CMD_LEN.LENGTH 0)) := rfl
    rw [g, a.1, a.2, h]
  obtain ⟨h1, h2, h3, h4⟩ := env_of hd
  refine ⟨rfl, r ▸ h1, by rw [r, h2, stale_deviceId], by rw [r, h3], ?_⟩
  rw [State.carries, r, h4]
  have : stale.challengeBytes ≠ zeros 32 := by
    rw [stale, challengeBytes_hostWrite]
    decide +kernel
  simp [Ne.symm this]

/-- The Nose runs, the port's link is up, and address 0x0A000001 is a collector's. -/
def managed : State :=
  (((((ready.fset NOS_STATUS.RUNNING 0 1).fset MGT_CTRL.ENABLE 0 1).fset MGT_CTRL.LINK 0 1).fset MGT_IPV4.ADDR 0 0x0A000002).fset
    MGT_COLLECTOR.VALID 1 1).fset MGT_COLLECTOR_ADDR.ADDR 4 0x0A000001

theorem witness_Attestation :
    (∀ src ∈ [Requester.aihar 0x0A000001, .mctp, .doe], src.ok = true ∧ admits managed src = true
      ∧ (counted managed src).lifeCommand = false)
    ∧ (let s := commandOf (submitting (envelope 7 4 []));
      admits s .doe = true ∧ (counted s .doe).lifeCommand = true)
    ∧ (∀ k ∈ [0, 1], let t := counted (managed.fset SEC_STATUS.KEY_READY 0 k) .mctp;
      t.fon SEC_STATUS.KEY_EXHAUSTED 0 = false ∧ t.fon SEC_STATUS.KEY_STATE_FAIL 0 = false
      ∧ t.fon SEC_STATUS.KEY_READY 0 = (k == 1) ∧ t.security.keyMade = true)
    ∧ (ready.setSec { ready.security with keyMade := false }).security.keyMade = false
    ∧ (ready.fon SEC_STATUS.KEY_READY 0 = false ∧ ready.fon SEC_STATUS.KEY_EXHAUSTED 0 = false
      ∧ ready.fon SEC_STATUS.KEY_STATE_FAIL 0 = false ∧ ready.unhealthy = false ∧ ready.security.keyMade = true
      ∧ (nextLeaf ready.security.keyCopies (ready.fget ATT_EPOCH.EPOCHS 0)).isSome = true)
    ∧ (∀ due ∈ [false, true], let s := (ready.fset SEC_STATUS.ENTROPY_FAIL 0 1).setSec { ready.security with
        challengeDue := due, waiting := [⟨1, [], .mctp, 9⟩], unlockEnd := some 0 };
      s.unhealthy = true ∧ s.security.challengeDue = due ∧ s.security.waiting = [⟨1, [], .mctp, 9⟩]
      ∧ s.security.unlockEnd.isSome = true ∧ s.unlocked = false
      ∧ (s.setSec { s.security with unlockEnd := some 1 }).unlocked = true) := by
  refine ⟨?_, ?_, ?_, ?_, ?_, ?_⟩ <;> decide +kernel

/-- An informational record. -/
def told : ErrorRecord := { severity := 3, block := 255, code := 65535, inst := 65535, cx := some 15, detail := [], injected := false }

theorem witness_SensorsAndRecords :
    (managed.fon NOS_STATUS.RUNNING 0 = true ∧ ready.fon NOS_STATUS.RUNNING 0 = false)
    ∧ (managed.sampleOf 0 (some 5) = some 5 ∧ managed.sampleOf 683 none = none)
    ∧ ((managed.monitor 11 2).fon NOS_STATUS.RUNNING 0 = true
      ∧ (managed.monitor 11 2).sampleOf 119 (some 2047) = some 2047)
    ∧ (managed.sensorOn 0 = true ∧ managed.sensorOn 299 = true ∧ (managed.setDomain (domArr 0) .off).sensorOn 7 = false
      ∧ (managed.fset MEM_CH_STATE.STATE 383 chGood).sensorOn 683 = true)
    ∧ (ready.up (domPlat (dieOfPart 11)) = true ∧ mget zeroNat ready.nose.droops 11 ≤ ready.fget DRP_COUNT.COUNT 11)
    ∧ (let s := managed.fset PWR_REQUEST.REASON 0 1;
      s.up (domPlat 0) = true ∧ (s.nose.conditions.any fun e => e.2) = false
      ∧ s.nose.lastCondition = none ∧ s.fget PWR_REQUEST.REASON 0 ≠ 0)
    ∧ (told.ok = true ∧ managed.fon NOS_STATUS.MINIMAL 0 = false ∧ managed.nose.log.length < 4096)
    ∧ (let s := managed.accept told 1;
      (s.nose.log.find? fun r => r.seq == 0).isSome = true ∧ s.collectors.contains 1 = true ∧ s.aiharOn = true
      ∧ s.ackedBy 1 0 = false ∧ s.fon NOS_STATUS.RUNNING 0 = true) := by
  refine ⟨?_, ?_, ?_, ?_, ?_, ?_, ?_, ?_⟩ <;> decide +kernel

/-- A frame of the longest length that asks `a`. -/
def frame (ipv6 : Bool) (a : Nat) : MgtFrame :=
  { ipv6 := ipv6, source := 0x0A000001, target := a, length := 1522, tagged := true, fragment := false }

theorem witness_ManagementOperations :
    (∀ src ∈ [Requester.aihar 0x0A000001, .mctp], src.ok = true ∧ src ≠ .doe ∧ admits managed src = true)
    ∧ managed.fon NOS_STATUS.MINIMAL 0 = false
    ∧ (let t := counted managed (.aihar 0x0A000001);
      (t.collectors.filter fun k => t.collectorAddr k == 0x0A000001) = [1] ∧ t.up (domPlat 0) = true)
    ∧ (let s := managed.setDomain (domPlat 0) .reset;
      admits s .mctp = true ∧ s.fon NOS_STATUS.MINIMAL 0 = false ∧ (counted s .mctp).up (domPlat 0) = false)
    ∧ (managed.frameTaken (frame false 0x0A000002) = true ∧ (frame false 0x0A000002).ok = true
      ∧ (frame false 0x0A000002).target = managed.fget MGT_IPV4.ADDR 0 ∧ managed.ownAddress false 0x0A000002 = true
      ∧ managed.ownAddress false 0x0A000003 = false ∧ managed.frameTaken { frame false 0x0A000002 with tagged := false } = false)
    ∧ (let s := managed.fset MGT_IPV6.ADDR 3 0xFD000000;
      s.frameTaken (frame true s.ipv6) = true ∧ (frame true s.ipv6).ok = true ∧ s.ipv6 = 0xFD000000 * 2 ^ 96)
    ∧ (Reached ready .SNP_CTRL 0 ∧ Reached ready .SNP_RELEASE 0) := by
  refine ⟨?_, ?_, ?_, ?_, ?_, ?_, ⟨reached_of ?_, reached_of ?_⟩⟩ <;> decide +kernel

theorem witness_RegisterAccess :
    (aligned 0x2602004 4 = true ∧ ready.movingAt 0x2602004 = false ∧ inMsix 0x2602004 = false ∧ inPba 0x2602004 = false
      ∧ bar0Reg 0x2602004 = some (.MEM_THRESH, 11, false) ∧ sizeFits .MEM_THRESH false 4 = true
        ∧ Reached ready .MEM_THRESH 11)
    ∧ (ready.barsOn = true ∧ ready.up (domPlat 0) = true)
    ∧ (aligned 0x03FFFFF8 8 = true ∧ ready.movingAt 0x03FFFFF8 = false ∧ inMsix 0x03FFFFF8 = false
      ∧ inPba 0x03FFFFF8 = false ∧ bar0Reg 0x03FFFFF8 = none)
    ∧ (aligned msixTable 4 = true ∧ ready.movingAt msixTable = false ∧ inMsix msixTable = true)
    ∧ (let a := clusterAddr 1 0xC1C;
      aligned a 4 = true ∧ inMsix a = false ∧ inPba a = false ∧ bar0Reg a = some (.VLT_PARITY_INJECT, 1, false)
      ∧ sizeFits .VLT_PARITY_INJECT false 4 = true ∧ Reached ready .VLT_PARITY_INJECT 1)
    ∧ (aligned 0xC1C 4 = true ∧ ready.unplacedReg .VLT_PARITY_INJECT 1 = false
      ∧ ready.served .VLT_PARITY_INJECT 1 false = true
      ∧ (ready.cl 1).moving = false)
    ∧ (let s := ready.updCl 287 fun c => { c with moving := true };
      s.barsOn = true ∧ s.up (domPlat 0) = true ∧ aligned (clusterAddr 287 0x3FFC) 4 = true ∧ (s.cl 287).moving = true)
    ∧ mgtReg 0x104 = some (.MGT_IPV4, 0, false) ∧ mgtReg 0xFFC = none := by
  refine ⟨⟨?_, ?_, ?_, ?_, ?_, ?_, reached_of ?_⟩, ?_, ?_, ?_, ⟨?_, ?_, ?_, ?_, ?_, reached_of ?_⟩, ?_, ?_, ?_⟩ <;> decide +kernel

/-- A follower of a role. -/
def follower (role : Nat) : State := ready.fset TLY_SYNC.ROLE 0 role

theorem witness_TimeBase :
    ((follower 2).up (domPlat 0) = true ∧ (follower 2).up (domFab 0) = true ∧ (follower 2).role = 2)
    ∧ (let s := (follower 3).fset TLY_SYNC.SOURCE_PORT 0 23;
      let c := cellTo 6 24 9 (leBytes 8 (2 ^ 64 - 1));
      let t := s.takeCell 23 c;
      c.ok = true ∧ t.up (domPlat 0) = true ∧ t.role = 3 ∧ t.fget TLY_SYNC.SOURCE_PORT 0 = 23 ∧ c.kind = 6)
    ∧ (let s := ((follower 2).fset TLY_HOLDOVER.LIMIT 0 1).setTally { (follower 2).tally with missed := 1 };
      s.up (domPlat 0) = true ∧ 2 ≤ s.role ∧ s.fget TLY_HOLDOVER.LIMIT 0 ≤ s.tally.missed ∧ 1 ≤ s.tally.missed
      ∧ s.fon TLY_STATUS.LOST 0 = false)
    ∧ Reached ready .TLY_STATUS 0 := by
  refine ⟨?_, ?_, ?_, reached_of ?_⟩ <;> decide +kernel

/-- What the first two steps of a boundary leave. -/
def closed (s : State) : State :=
  let opened := s.ending.gains.summaries.openTally
  ((opened.latch s.tally.count).holdover).closeRecords

/-- The platform of die 0 alone is up, `n` steps of bring-up are done, every partition is idle and no cluster has been
used. -/
def quiet (n : Nat) : State :=
  { nat12.foldl (fun (s : State) p => s.fset PWR_PART_STATUS.STATE p pwIdle) (broughtTo n) with
    domains := [(domPlat 0, Domain.on)]
    clusters := [] }

theorem witness_TimeBase_boundary :
    ((quiet 9).up (domPlat 0) = true ∧ (quiet 9).ending.gains.summaries.role ≠ 3
      ∧ ((quiet 9).ending.gains.summaries.takeRwt .TLY_COUNT_LOAD 0).1 = none)
    ∧ (let c := closed (quiet 9);
      c.ready = true ∧ 4 ≤ c.step3.step4.step5.sendTally.bringUp.done
        ∧ c.step3.step4.step5.sendTally.powerStep.ready = true)
    ∧ (let c := closed (quiet 3);
      c.ready = false ∧ c.step5.sendTally.bringUp.done < 4 ∧ c.step5.sendTally.ready = false) := by
  refine ⟨?_, ?_, ?_⟩ <;> decide +kernel
/-! ### Well-formedness refuses -/

def coreRow (i : Issue) : Instr := .sysNop i
def badCell (c : PacketCell) : Instr := .rreq 0 c
def goodCell : PacketCell := cellTo 0 24 9 []
abbrev badRecord (r : ErrorRecord) : Instr := .errorRecord r

theorem test_wf_units :
    ([coreRow { cluster := 288, core := 0, upset := .none }, coreRow { cluster := 0, core := 3, upset := .none },
      .overload 16, .fenceTimeout 12, .refresh 0 32 0, .refresh 0 0 32, .portRetrain 24, .auditRetire 336,
      .dieResetComplete 4, .regulatorFault 32, .sliceAbort 0 8, .droopAssert 0 16, .halfTransmit 0 256, .dmaRead 0 128,
      .accumulatorSetFree 0 ⟨2, none⟩, .accumulatorSetFree 0 ⟨1, some (64, 0)⟩, .escapeTimeout 0 4, .ringClose 0 4096, .criticalTrip 684, .laneMark 0 0 24,
      .recordResend 2 0, .folCxNextWrite 0 true 4096, .blockRead 0 0 (16384 * 2048) 0 .none,
      .reg 0 0x4000 4 ⟨none, none⟩, .vecResidueInject 0 0].all fun c => !c.wf) = true := by decide

theorem test_wf_fields :
    (([.residue 64, .lut 4096, .parity 12582912] : List Upset).all fun u => !(coreRow { cluster := 0, core := 0, upset := u }).wf)
    ∧ (([.cells [(65, 0, 1)], .cells [(64, 64, 1), (0, 65, 1)], .writeback 0 64] : List CellUpset).all fun u => !(Instr.auditResult 0 u).wf)
    ∧ (([⟨[(72, 1)], []⟩, ⟨[(71, 0)], []⟩, ⟨[(5, 1), (5, 2)], []⟩, ⟨[], [(72, 1)]⟩] : List BlockErrors).all fun r => !(Instr.blockRead 0 0 0 0 r).wf)
    ∧ (([(.route, 16384), (.escape, 16384), (.circuit, 4096), (.slot, 4096)] : List (FabTable × Nat)).all fun e =>
      !(Instr.tableEntryUncorrectable 0 e.1 e.2).wf) := by decide

theorem test_wf_cells :
    (badCell goodCell).wf = true
    ∧ ([badCell { goodCell with vc := 4 }, badCell { goodCell with ptr := 16 }, badCell { goodCell with kind := 16 },
      badCell { goodCell with route := [] }, badCell { goodCell with route := List.replicate 14 32 },
      badCell { goodCell with src := 65536 }, badCell { goodCell with dst := 65536 }, badCell { goodCell with xid := 512 },
      badCell { goodCell with index := 8 }, badCell { goodCell with payload := [] },
      .circuitCell 0 { circuit 0 with phase := 4 }, .circuitCell 0 { circuit 0 with circuit := 4096 },
      .circuitCell 0 { circuit 0 with part := 8 }, .circuitCell 0 { circuit 0 with payload := [] },
      .linkBlock 0 { link true 0 0 with cells := .circuit { circuit 0 with part := 8 } :: List.replicate 25 .idle },
      .linkBlock 0 { link true 0 0 with cells := .packet { goodCell with vc := 4 } :: List.replicate 25 .idle },
      .linkBlock 0 { link true 0 0 with cells := List.replicate 25 .idle }, .linkBlock 0 (link true 3 0),
      .linkBlock 0 (link true 0 4096), .linkBlock 0 { link true 0 0 with credit := [0, 0, 0, 256] }].all fun c => !c.wf) = true := by decide

theorem test_wf_packets_and_records :
    (([{ mail with x := 42 }, { mail with y := 8 }, { mail with cx := 16 }, { mail with src := .cluster 288 0 },
      { mail with dst := .cluster 0 16 }, { mail with dst := .channel 12 0 }, { mail with dst := .channel 0 32 },
      { mail with dst := .port 24 },
      { mail with payload := .bytes (List.replicate 481 0) }, { mail with len := 9 }] : List Packet).all fun p => !p.ok)
    ∧ (([⟨mail, List.replicate 16 (.pcie, 0), 0⟩, ⟨mail, [(.cluster 288 0, 0)], 0⟩, ⟨mail, [], 11⟩] : List ReadService).all fun r => !r.ok)
    ∧ ([badRecord { told with severity := 4 }, badRecord { told with block := 256 }, badRecord { told with code := 65536 },
      badRecord { told with inst := 65536 }, badRecord { told with cx := some 16 },
      badRecord { told with detail := List.replicate 7 0 }, .status (.aihar (2 ^ 128)) 0, .status (.udp 0 65536 true) 0,
      .arpRequest (frame false (2 ^ 128)), .icmpEcho { frame false 0 with source := 2 ^ 128 } []].all fun c => !c.wf) = true := by decide +kernel

/-! ### Results worked out in the spec -/

/-- The block of the worked conversions of 03_number_formats.md. -/
def workedBlock : List QLane :=
  ([41203, -96531, 7777, 0, 12288, -64, 300, 95999, 1536, 2560, -3584, 65024, -1000, 50000, -20480, 88888] : List Int).zipIdx.map
    fun e => { v := e.1, ein := some 117, lane := e.2 }

/-- Example 1 of 03_number_formats.md. -/
theorem test_convert_se8 :
    let q := requantChoose .I8 .SE8 false workedBlock (Vector.replicate 64 1)
    q.elems = [40, -94, 8, 0, 12, 0, 0, 94, 2, 2, -4, 64, -1, 49, -20, 87]
      ∧ q.scale = .normal 127 128 := by decide +kernel

/-- Example 2. -/
theorem test_convert_sm16 :
    let q := requantChoose .I8 .SM16 false workedBlock (Vector.replicate 64 1)
    q.scale = .normal 126 191 ∧ q.elems[1]? = some (-126) ∧ q.elems[7]? = some 126
      ∧ q.elems[0]? = some 54 := by decide +kernel

/-- Example 3: two elements under one draw. -/
theorem test_convert_stochastic : shiftStoch 1536 10 5913601 = 1 ∧ shiftStoch (-3584) 10 5913601 = -4 := by decide

/-- The accumulators of the worked example of 04_matrix_core.md: two K-blocks of the cells (0, 0) and (1, 0). -/
theorem test_accumulators :
    (let c := (accumulate false .SE8 .SE8 (.normal 120 128) (.normal 122 128) 2400 1 (accDefault 0)).1;
      (accumulate false .SE8 .SE8 (.normal 121 128) (.normal 122 128) 6385 1 c).1 = ⟨15170, some 115, false⟩)
    ∧ (let c := (accumulate false .SE8 .SE8 (.normal 120 128) (.normal 122 128) 684 1 (accDefault 0)).1;
      (accumulate false .SE8 .SE8 (.normal 121 128) (.normal 122 128) (-12165) 1 c).1 = ⟨-23646, some 115, false⟩) := by
  decide

/-- R83: the smallest shift that makes the sum fit, though the shifted term alone would not. -/
theorem test_smallest_shift : accShift (-2 ^ 47) (2 ^ 49) 8 0 = 2 := by decide

/-- The clearing sum of 07_mesh_and_clearing.md wraps, in either order. -/
theorem test_clearing_wraps :
    ((BitVec.ofInt 32 2000000000 + BitVec.ofInt 32 1500000000) + BitVec.ofInt 32 (-1000000000) : Word).toInt = -1794967296
    ∧ (addTokens { token1 with lanes := [BitVec.ofInt 32 2000000000] } { token1 with lanes := [BitVec.ofInt 32 1500000000] }).lanes[0]?
      = some (BitVec.ofInt 32 (-794967296)) := by decide

/-- The ring of 11_messages_and_dma.md: its positions and what is free. -/
theorem test_ring_positions :
    linear 8128 (2 ^ 24 + 256) = 8384 ∧ position 8128 16064 = 2 ^ 24 + 7936
      ∧ position 8128 8384 = 2 ^ 24 + 256 := by decide

/-- The addresses of 21_address_map.md. -/
theorem test_addresses :
    bar0Reg 0x030A0D0C = some (.VLT_REGION, 40 * 16 + 3, false)
      ∧ bar0Reg 0x01E02178 = some (.MEM_CH_STATE, 7 * 32 + 30, false)
    ∧ bar0Reg 0x009A0158 = some (.FAB_BIND_B, 13 * 256 + 5, false) ∧ bar0Reg 0x00017128 = some (.PCI_WINDOW, 5, false)
    ∧ bar0Reg 0x03F00100 = some (.MGT_CTRL, 0, false) := by decide +kernel

/-- The first byte of the transfer of 12_memory_subsystem.md: slot 14 of page 83, at byte 0x1B540 of its chunk. -/
theorem test_page_map :
    (ready.setFrame 1 83 ((List.range 16).map fun k => (4, 16 + k, 5))).place 1 0x0A7B5E40
      = some (4, 30, 5 * 2048 + 0x1B540 / 64, 0) := by decide +kernel

/-- The guarantees of the block code in 12_memory_subsystem.md: two wrong symbols are corrected, three and four are detected; beside
a marked lane, one. -/
theorem test_block_code :
    let marked := (ready.fset MEM_CH_STATE.LANE 0 1).fset MEM_CH_STATE.PIN 0 1;
    (ready.decodeBlock 0 0 0 [(0, 1), (71, 2)]).map (·.2) = some [0, 23]
    ∧ ready.decodeBlock 0 0 0 [(0, 1), (1, 1), (71, 2)] = none
      ∧ ready.decodeBlock 0 0 0 [(0, 1), (1, 1), (2, 4), (71, 2)] = none
    ∧ (marked.decodeBlock 0 0 0 [(3, 1), (4, 1), (5, 1), (71, 2)]).map (·.2) = some [1, 1, 1, 23] := by decide +kernel

/-- The cap of 15_power_and_thermal.md. -/
theorem test_cap : capShares [240, 240, 300] [demandOf 2476 10, demandOf 3238 10, 0] [0, 1] 1800 = [260, 340, 1200] := by decide

/-- The four power-ups of 19_security.md. -/
theorem test_leaves :
    nextLeaf [some 3070, some 3070] 3 = some (3070, 3) ∧ nextLeaf [some 3071, some 3071] 3 = some (3071, 3)
    ∧ nextLeaf [some 3072, some 3072] 3 = some (3072, 4) ∧ nextLeaf [none, none] 4 = some (4096, 5)
    ∧ nextLeaf [some 3072, some 3072] 4 = some (3072, 4) := by decide

/-! ### One step of an instruction -/

/-- The general register that an instruction of core `n` leaves. -/
def result (n : Nat) (i : Insn) (c : Issue → Instr) (g : List (Nat × Word)) (d : Nat) : Word :=
  ((next (c (who n)) (about n i g)).core 0 n).g.toArray.getD d 0

theorem test_addi_wraps : result 0 (.addi 5 4 1) .addi [(4, 0xFFFFFFFF)] 5 = 0 := by decide +kernel
theorem test_g0_reads_zero : result 0 (.addi 0 4 1) .addi [(4, 7)] 0 = 0 := by decide +kernel
theorem test_sub_in_place : result 0 (.alu .SUB 3 3 2 0) .alu [(3, 5), (2, 9)] 3 = 0xFFFFFFFC := by decide +kernel
theorem test_shift_right_arithmetic : result 0 (.srai 3 1 4) .srai [(1, 0x80000000)] 3 = 0xF8000000 := by decide +kernel
theorem test_branch_taken :
    ((next (.beqz (who 0)) (about 0 (.beqz 9 5) [])).core 0 0).pc = 5 := by decide +kernel

/-- Well-formed rows alone answer a next state. -/
theorem test_illformed_stops : runs (.overload 16) ready = false ∧ runs (.overload 15) ready = true := by decide +kernel
end Sys2Proof.Tests
end

section
/-! PROOFS. Power-on reset. -/
namespace Sys2Proof.Machine

open Sys2Proof

/-! ### What power-on reset leaves -/

theorem all_num (r : Reg) : Reg.all[r.num]? = some r := by cases r <;> rfl

/-- A key of the register file names its register. -/
theorem regOfKey_regKey (r : Reg) {i : Nat} (hi : i < 2 ^ 20) : regOfKey (regKey r i) = some r := by
  have hq : regKey r i / 2 ^ 20 = r.num := by unfold regKey; omega
  rw [regOfKey, hq, all_num]

theorem regDefault_of_regOfKey {k : Nat} {r : Reg} (h : regOfKey k = some r) :
    regDefault k = BitVec.ofNat 64 r.info.reset := by
  simp only [regDefault, h]

@[simp] theorem reset_regs : State.reset.regs = [] := rfl
@[simp] theorem reset_domains : State.reset.domains = [] := rfl
@[simp] theorem reset_cl (L : Nat) : State.reset.cl L = Cluster.init := rfl

theorem reset_rget (r : Reg) {i : Nat} (hi : i < 2 ^ 20) : State.reset.rget r i = BitVec.ofNat 64 r.info.reset := by
  rw [State.rget, reset_regs, mget_nil, regDefault_of_regOfKey (regOfKey_regKey r hi)]

/-- PD_AON alone is on (R450). -/
theorem reset_up (k : Nat) : State.reset.up k = true ↔ k = domAon := by
  rw [State.up, State.domain, reset_domains, mget_nil, beq_iff_eq, domDefault, domAon]
  split <;> simp [*]

/-- Every core of a cluster at power-on stands as `Core.init` says. -/
theorem init_core (n : Nat) : Cluster.init.cores.toArray.getD n Core.init = Core.init := by
  rw [Cluster.init, Array.getD]
  split
  · simp
  · rfl

theorem reset_core (L n : Nat) : State.reset.core L n = Core.init := by rw [State.core, reset_cl, init_core]

/-- Settles O2: nothing is listed in the reset state, so each register and each unit reads as its default. -/
theorem resetState : Obligations.ResetState := by
  unfold Obligations.ResetState
  refine ⟨fun r i hi => reset_rget r hi, reset_up, fun L => ⟨rfl, rfl, ?_⟩, fun L n => ?_, rfl, rfl⟩
  · simp [State.reachable, Cluster.init]
  · rw [reset_core]; rfl

end Sys2Proof.Machine
end

section
/-! PROOFS. Commands on units that exist, and register writes that arrive. -/
namespace Sys2Proof.Machine

open Sys2Proof

/-! ### Commands on units that exist, and register writes that arrive -/

theorem onUnit_ok {ok : Bool} {s : State} (h : ok = true) : onUnit ok s = .next s := if_pos h

theorem okCluster_of {L : Nat} (h : L < 288) : okCluster L = true := decide_eq_true h
theorem okCore_of {n : Nat} (h : n < 3) : okCore n = true := decide_eq_true h
theorem okPort_of {n : Nat} (h : n < 24) : okPort n = true := decide_eq_true h
theorem okSite_of {n : Nat} (h : n < 336) : okSite n = true := decide_eq_true h

/-- A write that reaches its register has its effect. -/
theorem writeTo_reached {s : State} {r : Reg} {i : Nat} (h : Reached s r i) (act : State → State) :
    s.writeTo r i act = act s := by
  simp [State.writeTo, h.bars, h.up, h.placed, h.served]

theorem writeCl_reached {s : State} {r : Reg} {i : Nat} (h : Reached s r i) (hm : (s.cl (regionOf r i)).moving = false)
    (v : Nat) (act : State → State) : s.writeCl r i v act = act s := by
  simp [State.writeCl, hm, writeTo_reached h]

/-- A write to a register of a cluster that is being moved waits for the move (R12). -/
theorem writeCl_moving {s : State} {r : Reg} {i : Nat} (hb : s.barsOn = true) (hu : s.up (domPlat 0) = true)
    (hm : (s.cl (regionOf r i)).moving = true) (v : Nat) (act : State → State) :
    s.writeCl r i v act = s.holdAccess (regionOf r i) (r.offset i) 4 (some v) := by
  simp [State.writeCl, hb, hu, hm]

end Sys2Proof.Machine
end

section
/-! PROOFS. Cores that go on, sites that turn, injections, clusters that finish. -/
namespace Sys2Proof.Machine

open Sys2Proof

/-! ### Cores that go on, sites that turn, injections -/

theorem unblock_available {s : State} {L n : Nat} {w : Wait} (hr : (s.core L n).run = .blocked)
    (hw : (s.core L n).wait = some w) (ha : s.available L w = true) :
    s.unblock L n = s.setCore L n { s.core L n with run := .running, wait := none } := by
  simp [State.unblock, hr, hw, ha, State.updCore]

theorem doubledSwitch_yields {s : State} {x M : Nat} (hM : (s.site x).holds[(s.site x).turn]? = some M)
    (h2 : (s.site x).holds.length = 2) (hy : (s.cl M).yields = true) :
    s.doubledSwitch x = s.setSite x { s.site x with turn := 1 - (s.site x).turn } := by
  simp [State.doubledSwitch, hM, h2, hy]

theorem regionOf_vecResidueInject {L n : Nat} (hn : n = 1 ∨ n = 2) : regionOf .VEC_RESIDUE_INJECT (2 * L + n - 1) = L := by
  show (2 * L + n - 1) / 2 = L
  omega

theorem regionOf_vltParityInject (L : Nat) : regionOf .VLT_PARITY_INJECT L = L := Nat.div_one L

/-- VEC0 and VEC1 have the injection registers `2 L` and `2 L + 1` (R127). -/
theorem exec_vecResidueInject {s : State} {L n : Nat} (hL : L < 288) (hn : n = 1 ∨ n = 2) :
    exec (.vecResidueInject L n) s = .next (s.writeCl .VEC_RESIDUE_INJECT (2 * L + n - 1) 1
      fun s => s.fset VEC_RESIDUE_INJECT.ARM (2 * L + n - 1) 1) := by
  have hi : L * 2 + (n - 1) = 2 * L + n - 1 := by omega
  have hok : (okCluster L && okCore n && n != 0) = true := by
    rw [okCluster_of hL, okCore_of (by omega)]
    rcases hn with rfl | rfl <;> rfl
  rw [← hi]
  exact onUnit_ok hok

/-! ### A cluster that finishes -/

/-- A cluster one of whose cores is not idle reads back after a write of it. -/
theorem cl_setCl_busy (s : State) (L : Nat) {k : Cluster} {n : Nat} (h : (k.cores.toArray.getD n Core.init).run ≠ .idle) :
    (s.setCl L k).cl L = k :=
  cl_setCl_ne s L fun e => h (by rw [e, init_core]; rfl)

/-- A core that is not idle is written into its cluster and leaves the rest of it. -/
theorem cl_setCore_busy (s : State) (L : Nat) {n : Nat} {c : Core} (hn : n < 3) (hc : c.run ≠ .idle) :
    (s.setCore L n c).cl L = { s.cl L with cores := (s.cl L).cores.setIfInBounds n c } := by
  refine cl_setCl_busy s L (n := n) ?_
  rw [getD_setIfInBounds, if_pos ⟨rfl, hn⟩]
  exact hc

/-- What the end of a cluster's part of a segment writes of the cluster: its cycle count, a free value (log entry 7), and
the run state of its teller (R106). -/
def State.showFinished (s : State) (L : Nat) : State :=
  (s.take.2.updCl L fun c => { c with finishCycles := (Config.cycles s.fresh).toNat }).updCore L 0
    fun c => { c with run := .finished }

theorem showFinished_other (s : State) {L M : Nat} (h : M ≠ L) : (s.showFinished L).cl M = s.cl M := by
  unfold State.showFinished State.updCore State.setCore State.updCl
  rw [cl_setCl_other _ _ h, cl_setCl_other _ _ h]
  rfl

theorem showFinished_same {s : State} {L : Nat} (h : (s.core L 0).run = .wft) :
    (s.showFinished L).cl L = { s.cl L with
      finishCycles := (Config.cycles s.fresh).toNat
      cores := (s.cl L).cores.setIfInBounds 0 { s.core L 0 with run := .finished } } := by
  have hk : (s.take.2.updCl L fun c => { c with finishCycles := (Config.cycles s.fresh).toNat }).cl L
      = { s.cl L with finishCycles := (Config.cycles s.fresh).toNat } :=
    cl_setCl_busy _ L (n := 0) (fun e => by cases h.symm.trans e)
  unfold State.showFinished State.updCore
  rw [cl_setCore_busy _ L (by decide) (by simp)]
  unfold State.core
  rw [hk]

theorem drainFinished_of_not_draining {s : State} {c : Nat} (h : s.draining c = false) : s.drainFinished c = s := by
  simp [State.drainFinished, h]

/-- A cluster of a context that does not drain finishes: beside what the cluster shows, only the moment at which the
context's last cluster finished may change (R106, R361). -/
theorem clusterFinished_eq {s : State} {L : Nat} (hr : (s.core L 0).run = .wft) (hd : s.allDone L = true)
    (hc : ∀ cx, s.owner L = some cx → s.draining cx = false) :
    ∃ f : Tally, s.clusterFinished L = { s.showFinished L with tally := f } := by
  have hcond : ((s.core L 0).run == .wft && s.allDone L) = true := by simp [hr, hd]
  unfold State.clusterFinished
  rw [if_pos hcond]
  change ∃ f : Tally, (match s.owner L with
    | some c => (if (s.showFinished L).segmentFinished c
        then { s.showFinished L with tally := { (s.showFinished L).tally with lastFinish := some (s.showFinished L).tally.time } }
        else s.showFinished L).drainFinished c
    | none => s.showFinished L) = _
  split
  case h_1 c ho =>
    split
    · exact ⟨_, drainFinished_of_not_draining (hc c ho)⟩
    · exact ⟨_, drainFinished_of_not_draining (hc c ho)⟩
  case h_2 => exact ⟨_, rfl⟩

/-- Settles O22: each event is due by its premises, so its row has its effect. -/
theorem coreAndSiteEvents : Obligations.CoreAndSiteEvents := by
  unfold Obligations.CoreAndSiteEvents
  refine ⟨fun s L n x => ⟨?_, ?_, ?_, ?_⟩, ?_⟩
  case refine_1 =>
    intro hL hn hr w hw ha
    rw [← unblock_available hr hw ha]
    exact onUnit_ok (by rw [okCluster_of hL, okCore_of hn]; rfl)
  case refine_2 =>
    intro hx M hM h2 hy
    rw [← doubledSwitch_yields hM h2 hy]
    exact onUnit_ok (okSite_of hx)
  case refine_3 =>
    intro hL hn hb hu
    rw [exec_vecResidueInject hL hn]
    have hreg := regionOf_vecResidueInject (L := L) hn
    refine ⟨fun hm hp hs => ?_, fun hm => ?_⟩
    · rw [writeCl_reached ⟨hb, hu, hp, hs⟩ (by rwa [hreg])]
    · rw [writeCl_moving hb hu (by rwa [hreg]), hreg]; rfl
  case refine_4 =>
    intro hL hb hu
    have hreg := regionOf_vltParityInject L
    have he : exec (.vltParityInject L) s
        = .next (s.writeCl .VLT_PARITY_INJECT L 1 fun s => s.fset VLT_PARITY_INJECT.ARM L 1) := onUnit_ok (okCluster_of hL)
    rw [he]
    refine ⟨fun hm hp hs => ?_, fun hm => ?_⟩
    · rw [writeCl_reached ⟨hb, hu, hp, hs⟩ (by rwa [hreg])]
    · rw [writeCl_moving hb hu (by rwa [hreg]), hreg]; rfl
  case refine_5 =>
    intro s L hL hr hd hc
    obtain ⟨f, hf⟩ := clusterFinished_eq hr hd hc
    have hsame : (s.clusterFinished L).cl L = (s.showFinished L).cl L := by rw [hf]; rfl
    rw [showFinished_same hr] at hsame
    refine ⟨_, onUnit_ok (okCluster_of hL), ?_, ?_, ?_, fun M hM => ?_, ?_, ?_⟩
    · unfold State.core
      rw [hsame, getD_setIfInBounds, if_pos ⟨rfl, by decide⟩]
    · rw [hsame]
    · rw [hsame]
    · rw [hf]; exact showFinished_other s hM
    · rw [hf]; rfl
    · rw [hf]; rfl

end Sys2Proof.Machine
end

section
/-! PROOFS. Register accesses and access codes. -/
namespace Sys2Proof.Machine

open Sys2Proof

/-! ### Accesses to register space over BAR0 -/

/-- A write of a legal size at an aligned address of nothing that is being moved, outside the MSI-X table and the
pending-bit array, has its effect on the register found there (R331). -/
theorem regWrite_reached {s : State} {addr size : Nat} {r : Reg} {i : Nat} {upper : Bool} (v : Nat) (h : Reached s r i)
    (ha : aligned addr size = true) (hm : s.movingAt addr = false) (hx : inMsix addr = false) (hp : inPba addr = false)
    (hr : bar0Reg addr = some (r, i, upper)) (hf : sizeFits r upper size = true) :
    s.regWrite addr size v = s.putWord r i upper size v := by
  simp [State.regWrite, State.aborting, h.bars, h.up, ha, hm, hx, hp, hr, hf, writeTo_reached h]

/-- One at no register is an Unsupported Request, and counted (R331). -/
theorem regWrite_unassigned {s : State} {addr size : Nat} (v : Nat) (hb : s.barsOn = true) (hu : s.up (domPlat 0) = true)
    (ha : aligned addr size = true) (hm : s.movingAt addr = false) (hx : inMsix addr = false) (hp : inPba addr = false)
    (hr : bar0Reg addr = none) : s.regWrite addr size v = s.finc PCI_ACCESS_ERR.UR 0 := by
  simp [State.regWrite, State.aborting, hb, hu, ha, hm, hx, hp, hr]

theorem regWrite_msix {s : State} {addr size : Nat} (v : Nat) (hb : s.barsOn = true) (hu : s.up (domPlat 0) = true)
    (ha : aligned addr size = true) (hm : s.movingAt addr = false) (hx : inMsix addr = true) :
    s.regWrite addr size v = s.msixWrite (addr - msixTable) size v := by
  simp [State.regWrite, State.aborting, hb, hu, ha, hm, hx]

/-! ### Register packets to a cluster -/

/-- The window of a cluster lies in the clusters' region of BAR0 (R441). -/
theorem bar0Region_clusterAddr {L off : Nat} (hL : L < 288) (ho : off < 0x4000) :
    bar0Region (clusterAddr L off) = some (.C, L, off) := by
  unfold bar0Region clusterAddr
  rw [if_neg (by omega), if_neg (by omega), if_neg (by omega), if_pos (by omega)]
  rw [show (0x03000000 + L * 0x4000 + off - 0x03000000) / 0x4000 = L by omega,
    show (0x03000000 + L * 0x4000 + off - 0x03000000) % 0x4000 = off by omega]

theorem movingAt_clusterAddr (s : State) {L off : Nat} (hL : L < 288) (ho : off < 0x4000) :
    s.movingAt (clusterAddr L off) = (s.cl L).moving := by
  simp only [State.movingAt, bar0Region_clusterAddr hL ho]

theorem holdAt_clusterAddr (s : State) {L off : Nat} (size : Nat) (w : Option Nat) (hL : L < 288) (ho : off < 0x4000) :
    s.holdAt (clusterAddr L off) size w = s.holdAccess L off size w := by
  simp only [State.holdAt, bar0Region_clusterAddr hL ho]

theorem inMsix_clusterAddr (L off : Nat) : inMsix (clusterAddr L off) = false := by
  refine Bool.eq_false_iff.2 fun h => ?_
  simp only [inMsix, Bool.and_eq_true, decide_eq_true_eq] at h
  unfold msixTable clusterAddr at h
  omega

theorem inPba_clusterAddr (L off : Nat) : inPba (clusterAddr L off) = false := by
  refine Bool.eq_false_iff.2 fun h => ?_
  simp only [inPba, Bool.and_eq_true, decide_eq_true_eq] at h
  unfold clusterAddr at h
  omega

theorem inSnapshot_clusterAddr {L off : Nat} (hL : L < 288) (ho : off < 0x4000) : inSnapshot (clusterAddr L off) = false := by
  refine Bool.eq_false_iff.2 fun h => ?_
  simp only [inSnapshot, Bool.and_eq_true, decide_eq_true_eq] at h
  unfold clusterAddr at h
  omega

/-- The windows begin at multiples of 8, so that an offset is aligned where its address is. -/
theorem aligned_clusterAddr {L off size : Nat} (h : aligned off size = true) : aligned (clusterAddr L off) size = true := by
  simp only [aligned, Bool.and_eq_true, Bool.or_eq_true, beq_iff_eq, decide_eq_true_eq] at h ⊢
  unfold clusterAddr
  obtain ⟨rfl | rfl, ha⟩ := h
  · exact ⟨.inl rfl, by omega⟩
  · exact ⟨.inr rfl, by omega⟩

/-- A register packet without a ledger error is an access to the cluster's window. -/
theorem exec_reg (s : State) {L off : Nat} (size : Nat) (w : Option Nat) (hL : L < 288) (ho : off < 0x4000) :
    exec (.reg L off size ⟨w, none⟩) s = .next (s.clusterAccess L off size w) :=
  onUnit_ok (by rw [okCluster_of hL, decide_eq_true ho]; rfl)

/-- An access to a cluster that is being moved waits, be it a write or a read (R12). -/
theorem clusterAccess_moving {s : State} {L off size : Nat} (w : Option Nat) (hL : L < 288) (ho : off < 0x4000)
    (hb : s.barsOn = true) (hu : s.up (domPlat 0) = true) (ha : aligned (clusterAddr L off) size = true)
    (hm : (s.cl L).moving = true) : s.clusterAccess L off size w = s.holdAccess L off size w := by
  rw [← holdAt_clusterAddr s size w hL ho]
  cases w <;>
    simp [State.clusterAccess, State.regWrite, State.regRead, State.aborting, hb, hu, ha, hm, movingAt_clusterAddr s hL ho]

theorem readAt_served {s : State} {r : Reg} {i : Nat} (upper : Bool) (size : Nat) (hp : s.unplacedReg r i = false)
    (hs : s.served r i false = true) (hr : r ≠ .MXC_AUDIT_TALLY) :
    s.readAt r i upper size = s.emit (.readData (s.readWord r i upper size) rdOk) := by
  simp [State.readAt, hp, hs, hr]

/-- A read in a cluster's window that finds a register reads it. -/
theorem clusterAccess_read {s : State} {L off size : Nat} {r : Reg} {i : Nat} {upper : Bool} (hL : L < 288)
    (ho : off < 0x4000) (hb : s.barsOn = true) (hu : s.up (domPlat 0) = true) (ha : aligned off size = true)
    (hr : bar0Reg (clusterAddr L off) = some (r, i, upper)) (hf : sizeFits r upper size = true)
    (hm : (s.cl L).moving = false) : s.clusterAccess L off size none = s.readAt r i upper size := by
  simp [State.clusterAccess, State.regRead, State.aborting, hb, hu, aligned_clusterAddr ha, movingAt_clusterAddr s hL ho, hm,
    inSnapshot_clusterAddr hL ho, inMsix_clusterAddr, inPba_clusterAddr, hr, hf]

/-! ### SET_CONFIG and the access codes -/

theorem managed_mctp {s : State} (hr : s.fon NOS_STATUS.RUNNING 0 = true) (hm : s.fon NOS_STATUS.MINIMAL 0 = false)
    (always : Bool) (act : State → State) : s.managed .mctp always act = act s := by
  simp [State.managed, State.admitTo, hr, hm]

/-- A write of a 32-bit register that no life-cycle state locks (R6, R9). -/
theorem putWord_narrow {r : Reg} (hl : r.locked = false) (hw : r.info.wide = false) (s : State) (i size v : Nat) (upper : Bool) :
    s.putWord r i upper size v = s.putReg r i ((BitVec.ofNat 32 v).setWidth 64) := by
  simp [State.putWord, hl, hw]

theorem plainWrite_now {r : Reg} (h : r.mask .RWT = 0) (s : State) (i : Nat) (v : DWord) :
    s.plainWrite r i v = s.rset r i (r.merge (s.rget r i) v) := by
  simp [State.plainWrite, h]

/-- A register of RW fields alone takes those of the value written (R7). -/
theorem merge_rw {r : Reg} (h1 : r.mask .W1C = 0#64) (h2 : r.mask .W1S = 0#64) (h3 : r.mask .RWL = 0#64) (old v : DWord) :
    r.merge old v = (old &&& ~~~(r.mask .RW)) ||| (v &&& r.mask .RW) := by
  simp only [Reg.merge, h1, h2, h3, BitVec.and_zero, BitVec.or_zero, BitVec.not_zero, BitVec.and_allOnes]

/-- A register of W1C fields alone loses the bits written as 1 (R7). -/
theorem merge_w1c {r : Reg} (h1 : r.mask .RW = 0#64) (h2 : r.mask .W1S = 0#64) (h3 : r.mask .RWL = 0#64) (old v : DWord) :
    r.merge old v = old &&& ~~~(v &&& r.mask .W1C) := by
  simp only [Reg.merge, h1, h2, h3, BitVec.and_zero, BitVec.or_zero, BitVec.not_zero, BitVec.and_allOnes]

theorem putWord_memThresh (s : State) (i v : Nat) : s.putWord .MEM_THRESH i false 4 v = s.rset .MEM_THRESH i
    ((s.rget .MEM_THRESH i &&& ~~~(Reg.mask .MEM_THRESH .RW))
      ||| ((BitVec.ofNat 32 v).setWidth 64 &&& Reg.mask .MEM_THRESH .RW)) := by
  have hp : ∀ x, s.putReg .MEM_THRESH i x = s.plainWrite .MEM_THRESH i x := fun _ => rfl
  rw [putWord_narrow (by decide) rfl, hp, plainWrite_now (by decide), merge_rw (by decide) (by decide) (by decide)]

theorem putWord_drpCount (s : State) (i v : Nat) : s.putWord .DRP_COUNT i false 4 v = s.rset .DRP_COUNT i
    (s.rget .DRP_COUNT i &&& ~~~((BitVec.ofNat 32 v).setWidth 64 &&& Reg.mask .DRP_COUNT .W1C)) := by
  have hp : ∀ x, s.putReg .DRP_COUNT i x = s.plainWrite .DRP_COUNT i x := fun _ => rfl
  rw [putWord_narrow (by decide) rfl, hp, plainWrite_now (by decide), merge_w1c (by decide) (by decide) (by decide)]

/-- Settles O59: each access passes the checks on its way to the register that its address names. -/
theorem registerAccess : Obligations.RegisterAccess := by
  unfold Obligations.RegisterAccess
  refine ⟨fun s addr size v => ⟨?_, ?_, ?_, ?_, ?_, ?_, ?_⟩,
    fun s v => ⟨fun i => putWord_memThresh s i v, fun i => putWord_drpCount s i v⟩⟩
  case refine_1 =>
    intro r i upper ha hm hx hp hr hf h
    rw [← regWrite_reached v h ha hm hx hp hr hf]
    exact onUnit_ok rfl
  case refine_2 =>
    intro hb hu ha hm hx hp hr
    rw [← regWrite_unassigned v hb hu ha hm hx hp hr]
    exact onUnit_ok rfl
  case refine_3 =>
    intro hb hu ha hm hx
    rw [← regWrite_msix v hb hu ha hm hx]
    exact onUnit_ok rfl
  case refine_4 =>
    intro L off r i upper hL ho ha hx hp hr hf h hm
    rw [exec_reg s size _ hL ho,
      ← regWrite_reached v h ha (by rwa [movingAt_clusterAddr s hL ho]) hx hp hr hf]
    rfl
  case refine_5 =>
    intro L off w hL ho hb hu ha hm
    rw [exec_reg s size w hL ho, clusterAccess_moving w hL ho hb hu ha hm]
    rfl
  case refine_6 =>
    intro L off r i upper hL ho hb hu ha hr hf hp hs hm hne
    rw [exec_reg s size none hL ho, clusterAccess_read hL ho hb hu ha hr hf hm, readAt_served upper size hp hs hne]
  case refine_7 =>
    intro xid hr hm
    have he : exec (.setConfig ⟨xid, addr⟩ v) s = .next (s.setConfig xid addr v) := onUnit_ok rfl
    rw [he, State.setConfig, managed_mctp hr hm]
    refine ⟨fun r i upper hreg => ?_, fun hreg => ?_⟩
    · rw [hreg]
    · rw [hreg]

end Sys2Proof.Machine
end

section
/-! PROOFS. The control of a fabric port. -/
namespace Sys2Proof.Machine

open Sys2Proof

/-! ### What a port's control does, case by case -/

section
variable {s : State} {n : Nat} (hn : n < 24) (h : Reached s .FAB_PORT_CTRL n)
include hn h

theorem exec_portEnable (on : Bool) : exec (.portEnable n on) s = .next (s.portEnable n on) := by
  have he : exec (.portEnable n on) s = .next (s.writeTo .FAB_PORT_CTRL n fun s => s.portEnable n on) := onUnit_ok (okPort_of hn)
  rw [he, writeTo_reached h]

theorem exec_portReset : exec (.portReset n) s = .next (s.portReset n) := by
  have he : exec (.portReset n) s = .next (s.writeTo .FAB_PORT_CTRL n fun s => s.portReset n) := onUnit_ok (okPort_of hn)
  rw [he, writeTo_reached h]

theorem exec_portRetrain : exec (.portRetrain n) s = .next (s.retrain n) := by
  have he : exec (.portRetrain n) s = .next (s.writeTo .FAB_PORT_CTRL n fun s => s.retrain n) := onUnit_ok (okPort_of hn)
  rw [he, writeTo_reached h]

end

theorem portEnable_licensed {s : State} {n : Nat} (h : s.portLicensed n = true) :
    s.portEnable n true = (s.fset FAB_PORT_CTRL.ENABLE n 1).tryTrain n := by
  simp [State.portEnable, h]

theorem portEnable_unlicensed {s : State} {n : Nat} (h : s.portLicensed n = false) :
    s.portEnable n true = s.fset FAB_PORT_STATUS.CODE n 1 := by
  simp [State.portEnable, h]

theorem portEnable_off {s : State} {n : Nat} (h : s.fon FAB_PORT_CTRL.ENABLE n = true) : s.portEnable n false
    = (((s.fset FAB_PORT_CTRL.ENABLE n 0).portLeaves n portIdle 0).countHours n 0).writeUsage n := by
  simp [State.portEnable, h]

theorem portReset_idle {s : State} {n : Nat} (h : (s.fp n).resetting = false) : s.portReset n = s.resetPort n := by
  simp [State.portReset, h]

theorem portReset_lasting {s : State} {n : Nat} (hu : s.up (domPlat 0) = true) (h : (s.fp n).resetting = true) :
    s.portReset n = s.finc RST_STATUS.IGNORED 0 := by
  simp [State.portReset, h, hu]

/-- A retrain starts, is counted, and forgets the NAKs (R292). -/
theorem retrain_up {s : State} {n : Nat} (h : s.portState n = portUp) : s.retrain n
    = ((s.setPort n portRetraining (s.fget FAB_PORT_STATUS.CODE n)).finc FAB_PORT_LINK_ERR.RETRAINS n).updFp n fun p =>
        { p with naks := 0, nakAck := none } := if_pos h

theorem exec_nakRetrain {s : State} {n : Nat} (hn : n < 24) (h : 8 ≤ (s.fp n).naks) :
    exec (.nakRetrain n) s = .next (s.retrain n) := by
  have he : exec (.nakRetrain n) s = .next (if 8 ≤ (s.fp n).naks then s.retrain n else s) := onUnit_ok (okPort_of hn)
  rw [he, if_pos h]

/-! ### The reset of a fabric port -/

/-- The map of the ports is in canonical form: keys strictly rising, no entry equal to what an unlisted port reads as. -/
def State.portsCanonical (s : State) : Prop := mwf (fun _ => FabPort.init) s.fabric.ports = true

theorem fp_setFp {s : State} (n : Nat) (p : FabPort) (w : s.portsCanonical) : (s.setFp n p).fp n = p := mget_mput_same n p w

theorem fp_setFp_other (s : State) {n k : Nat} (p : FabPort) (h : k ≠ n) : (s.setFp n p).fp k = s.fp k :=
  mget_mput_other _ p h

theorem portsCanonical_setFp {s : State} (n : Nat) (p : FabPort) (w : s.portsCanonical) : (s.setFp n p).portsCanonical :=
  mwf_mput n p w

/-- From `p` to `q` a port keeps what has arrived at it, and only answers (RSP) to requests are delivered to it. -/
structure FabPort.GainsAnswers (p q : FabPort) : Prop where
  inputs : q.inputs = p.inputs
  circuitIn : q.circuitIn = p.circuitIn
  parts : q.parts = p.parts
  delivered : ∃ l, q.delivered = p.delivered ++ l ∧ ∀ c ∈ l, c.kind = 4

theorem FabPort.GainsAnswers.refl (p : FabPort) : p.GainsAnswers p := ⟨rfl, rfl, rfl, [], by simp, by simp⟩

theorem FabPort.GainsAnswers.trans {p q r : FabPort} (h : p.GainsAnswers q) (k : q.GainsAnswers r) : p.GainsAnswers r := by
  obtain ⟨l, hl, hk⟩ := h.delivered
  obtain ⟨m, hm, hk'⟩ := k.delivered
  refine ⟨k.inputs.trans h.inputs, k.circuitIn.trans h.circuitIn, k.parts.trans h.parts, l ++ m, ?_, fun c hc => ?_⟩
  · rw [hm, hl, List.append_assoc]
  · exact (List.mem_append.1 hc).elim (hk c) (hk' c)

/-- From `s` to `t` the fabric ports only gain answers, and their map keeps its canonical form. -/
def OnlyAnswers (s t : State) : Prop := s.portsCanonical → t.portsCanonical ∧ ∀ k, (s.fp k).GainsAnswers (t.fp k)

theorem OnlyAnswers.refl (s : State) : OnlyAnswers s s := fun w => ⟨w, fun _ => .refl _⟩

theorem OnlyAnswers.trans {s t u : State} (h : OnlyAnswers s t) (k : OnlyAnswers t u) : OnlyAnswers s u := fun w =>
  ⟨(k (h w).1).1, fun n => ((h w).2 n).trans ((k (h w).1).2 n)⟩

theorem OnlyAnswers.ite {P : Prop} [Decidable P] {s a b : State} (ha : OnlyAnswers s a) (hb : OnlyAnswers s b) :
    OnlyAnswers s (if P then a else b) := by
  split
  · exact ha
  · exact hb

section
variable {s t : State} (h : OnlyAnswers s t)
include h

theorem OnlyAnswers.fset (f : Fld) (i x : Nat) : OnlyAnswers s (t.fset f i x) := h
theorem OnlyAnswers.fadd (f : Fld) (i x : Nat) : OnlyAnswers s (t.fadd f i x) := h
theorem OnlyAnswers.finc (f : Fld) (i : Nat) : OnlyAnswers s (t.finc f i) := h
theorem OnlyAnswers.emit (o : Output) : OnlyAnswers s (t.emit o) := h

theorem OnlyAnswers.forEach {α : Type} {f : α → State → State} (l : List α) (hf : ∀ a u, OnlyAnswers u (f a u)) :
    OnlyAnswers s (t.forEach l f) := by
  unfold State.forEach
  induction l generalizing t with
  | nil => exact h
  | cons a l ih => exact ih (h.trans (hf a t))

theorem OnlyAnswers.updFp {n : Nat} {f : FabPort → FabPort} (hf : (t.fp n).GainsAnswers (f (t.fp n))) :
    OnlyAnswers s (t.updFp n f) :=
  h.trans fun w => ⟨portsCanonical_setFp n _ w, fun k => by
    by_cases e : k = n
    · subst e; rw [State.updFp, fp_setFp _ _ w]; exact hf
    · rw [State.updFp, fp_setFp_other t _ e]; exact .refl _⟩

theorem OnlyAnswers.freeInput (m buf : Nat) : OnlyAnswers s (t.freeInput m buf) :=
  .ite (h.updFp ⟨rfl, rfl, rfl, [], by simp, by simp⟩) h

theorem OnlyAnswers.ownRsp (via : Nat) (c : PacketCell) : OnlyAnswers s (t.ownRsp via c) :=
  .ite (h.updFp ⟨rfl, rfl, rfl, _, rfl, by simp⟩) h

/-- An answer that starts here is delivered here, waits at an output or is discarded. -/
theorem OnlyAnswers.sendCell (via : Nat) {c : PacketCell} (hc : c.kind = 4) : OnlyAnswers s (t.sendCell via c) := by
  have hk : ∀ c : PacketCell, ∀ n, (consumeField c n).kind = c.kind := fun c n => by unfold consumeField; split <;> rfl
  unfold State.sendCell
  split
  · exact h
  · refine .ite ?delivered (.ite ?queued ((h.finc _ _).ownRsp _ _))
    · exact h.updFp ⟨rfl, rfl, rfl, _, rfl, by simp [hk, hc]⟩
    · exact h.updFp ⟨rfl, rfl, rfl, [], by simp, by simp⟩

theorem OnlyAnswers.answerRsp (via : Nat) (c : PacketCell) (status : Nat) : OnlyAnswers s (t.answerRsp via c status) := by
  unfold State.answerRsp State.answerCell
  refine .ite (h.sendCell via rfl) ?_
  split
  · exact .ite (h.finc _ _) (h.sendCell via rfl)
  · exact h

theorem OnlyAnswers.discardCell (n : Nat) (f : Fld) (c : PacketCell) : OnlyAnswers s (t.discardCell n f c) :=
  .ite ((h.finc f n).answerRsp _ _ _) (h.finc f n)

theorem OnlyAnswers.answerQueued (n : Nat) (q : QueuedCell) : OnlyAnswers s (t.answerQueued n q) :=
  .ite h (.ite (h.answerRsp _ _ _) (h.ownRsp _ _))

theorem OnlyAnswers.dropHeld (n : Nat) : OnlyAnswers s (t.dropHeld n) := by
  unfold State.dropHeld
  refine h.forEach _ fun m u => ?_
  exact OnlyAnswers.forEach ((OnlyAnswers.refl u).updFp ⟨rfl, rfl, rfl, [], by simp, by simp⟩) _ fun q v =>
    (((OnlyAnswers.refl v).finc _ _).freeInput _ _).answerQueued _ _

theorem OnlyAnswers.light (n st : Nat) : OnlyAnswers s (t.light n st) := by
  unfold State.light
  split
  · exact h.updFp ⟨rfl, rfl, rfl, [], by simp, by simp⟩
  · exact h.updFp ⟨rfl, rfl, rfl, [], by simp, by simp⟩
  · exact h

theorem OnlyAnswers.setPort (n st code : Nat) : OnlyAnswers s (t.setPort n st code) := by
  unfold State.setPort
  exact (((OnlyAnswers.ite (h.updFp ⟨rfl, rfl, rfl, [], by simp, by simp⟩) h).light n st).fset _ _ _).fset _ _ _

theorem OnlyAnswers.retrain (n : Nat) : OnlyAnswers s (t.retrain n) := by
  unfold State.retrain
  exact .ite (((h.setPort _ _ _).finc _ _).updFp ⟨rfl, rfl, rfl, [], by simp, by simp⟩) h

theorem OnlyAnswers.tryTrain (n : Nat) : OnlyAnswers s (t.tryTrain n) := by
  unfold State.tryTrain State.startTraining
  exact .ite h (.ite h (.ite (h.setPort _ _ _) (.ite (h.setPort _ _ _) (.ite (h.setPort _ _ _)
    (.ite (h.setPort _ _ _) ((h.setPort _ _ _).emit _))))))

end

/-- The cells of port `p` are discarded as LINK at port `n`, their buffers freed and requests among them answered (R324). -/
def State.discardPort (s : State) (n : Nat) (p : FabPort) : State :=
  let s := s.fadd FAB_PORT_DISCARD.LINK n (p.circuitIn.length + p.circOut.length + (p.parts.map fun e => e.2.length).sum)
  let s := s.forEach p.inputs fun e s => s.forEach e.2 fun c s =>
    (s.freeInput n (queueVc e.1)).discardCell n FAB_PORT_DISCARD.LINK c
  let s := s.forEach p.delivered fun c s => (s.finc FAB_PORT_DISCARD.LINK n).answerQueued n ⟨n, c.vc, c⟩
  s.forEach p.outq fun q s => ((s.finc FAB_PORT_DISCARD.LINK n).freeInput q.input q.buf).answerQueued n q

theorem onlyAnswers_discardPort (s : State) (n : Nat) (p : FabPort) : OnlyAnswers s (s.discardPort n p) := by
  unfold State.discardPort
  refine OnlyAnswers.forEach (.forEach (.forEach (.fadd (.refl s) _ _ _) _ fun e u => ?_) _ fun c u => ?_) _ fun q u => ?_
  · exact (OnlyAnswers.refl u).forEach _ fun c v => ((OnlyAnswers.refl v).freeInput _ _).discardCell _ _ _
  · exact ((OnlyAnswers.refl u).finc _ _).answerQueued _ _
  · exact (((OnlyAnswers.refl u).finc _ _).freeInput _ _).answerQueued _ _

theorem discardPort_nothing (s : State) (n : Nat) {p : FabPort} (hi : p.inputs = []) (hd : p.delivered = []) (ho : p.outq = []) :
    s.discardPort n p = s.fadd FAB_PORT_DISCARD.LINK n
      (p.circuitIn.length + p.circOut.length + (p.parts.map fun e => e.2.length).sum) := by
  simp [State.discardPort, State.forEach, hi, hd, ho]

/-- A port trains anew, and notes whether its reset lasts until then (R376). -/
def State.trainAnew (s : State) (n : Nat) : State :=
  let s := if s.portState n = portUp then s.retrain n else s.tryTrain n
  s.updFp n fun p => { p with resetting := s.portState n == portTraining || s.portState n == portRetraining }

theorem onlyAnswers_trainAnew (s : State) (n : Nat) : OnlyAnswers s (s.trainAnew n) := by
  have h := OnlyAnswers.refl s
  unfold State.trainAnew
  exact .updFp (.ite (h.retrain n) (h.tryTrain n)) ⟨rfl, rfl, rfl, [], by simp, by simp⟩

/-- A port with nothing buffered. -/
def FabPort.emptied (p : FabPort) : FabPort :=
  { p with inputs := [], delivered := [], circuitIn := [], parts := [], outq := [], circOut := [] }

theorem resetPort_eq (s : State) (n : Nat) :
    s.resetPort n = (((s.setFp n (s.fp n).emptied).discardPort n (s.fp n)).dropHeld n).trainAnew n := rfl

/-- Once a reset port is emptied, the rest of its reset discards and answers cells, and trains it (R324). -/
theorem onlyAnswers_resetPort (s : State) (n : Nat) : OnlyAnswers (s.setFp n (s.fp n).emptied) (s.resetPort n) := by
  rw [resetPort_eq]
  exact ((onlyAnswers_discardPort _ n _).dropHeld n).trans (onlyAnswers_trainAnew _ n)

/-- After its reset a port holds no cell that has arrived, and every port has gained answers alone (R324). -/
theorem resetPort_discards {s : State} {n : Nat} (w : s.portsCanonical) : let t := s.resetPort n
    (t.fp n).inputs = [] ∧ (∀ c ∈ (t.fp n).delivered, c.kind = 4) ∧ (t.fp n).circuitIn = [] ∧ (t.fp n).parts = []
      ∧ ∀ k, k ≠ n → (t.fp k).inputs = (s.fp k).inputs
        ∧ ∃ l, (t.fp k).delivered = (s.fp k).delivered ++ l ∧ ∀ c ∈ l, c.kind = 4 := by
  obtain ⟨-, gains⟩ := onlyAnswers_resetPort s n (portsCanonical_setFp n _ w)
  have here := gains n
  rw [fp_setFp n _ w] at here
  obtain ⟨l, hl, hk⟩ := here.delivered
  refine ⟨here.inputs, fun c hc => hk c (by simpa [hl, FabPort.emptied] using hc), here.circuitIn, here.parts, fun k hne => ?_⟩
  have there := gains k
  rw [fp_setFp_other s _ hne] at there
  exact ⟨there.inputs, there.delivered⟩

/-- What O35 says, with the premise that its clause on the reset of a port needs: the map of the ports is in canonical form
(R2, R289, R292, R324, R328, R376). -/
theorem portControl_of_portsCanonical (s : State) (n : Nat) (hn : n < 24) (w : s.portsCanonical) :
    (Reached s .FAB_PORT_CTRL n →
      (s.portLicensed n = true → exec (.portEnable n true) s = .next ((s.fset FAB_PORT_CTRL.ENABLE n 1).tryTrain n))
      ∧ (s.portLicensed n = false → exec (.portEnable n true) s = .next (s.fset FAB_PORT_STATUS.CODE n 1))
      ∧ (s.fon FAB_PORT_CTRL.ENABLE n = true → exec (.portEnable n false) s
        = .next ((((s.fset FAB_PORT_CTRL.ENABLE n 0).portLeaves n portIdle 0).countHours n 0).writeUsage n))
      ∧ ((s.fp n).resetting = false → ∃ t, exec (.portReset n) s = .next t
        ∧ (t.fp n).inputs = [] ∧ (∀ c ∈ (t.fp n).delivered, c.kind = 4) ∧ (t.fp n).circuitIn = [] ∧ (t.fp n).parts = []
        ∧ ∀ k, k ≠ n → (t.fp k).inputs = (s.fp k).inputs
          ∧ ∃ l, (t.fp k).delivered = (s.fp k).delivered ++ l ∧ ∀ c ∈ l, c.kind = 4)
      ∧ ((s.fp n).resetting = true → exec (.portReset n) s = .next (s.finc RST_STATUS.IGNORED 0))
      ∧ ((s.fp n).resetting = false → (s.fp n).inputs = [] → (s.fp n).delivered = [] → (s.fp n).outq = [] →
        exec (.portReset n) s = .next ((((s.setFp n (s.fp n).emptied).fadd FAB_PORT_DISCARD.LINK n
          ((s.fp n).circuitIn.length + (s.fp n).circOut.length + ((s.fp n).parts.map fun e => e.2.length).sum)).dropHeld
            n).trainAnew n))
      ∧ exec (.portRetrain n) s = .next (s.retrain n))
    ∧ (8 ≤ (s.fp n).naks → exec (.nakRetrain n) s = .next (s.retrain n))
    ∧ (s.portState n = portUp → s.retrain n
      = ((s.setPort n portRetraining (s.fget FAB_PORT_STATUS.CODE n)).finc FAB_PORT_LINK_ERR.RETRAINS n).updFp n fun p =>
          { p with naks := 0, nakAck := none }) := by
  refine ⟨fun h => ⟨fun hl => ?_, fun hl => ?_, fun he => ?_, fun hr => ?_, fun hr => ?_, fun hr hi hd ho => ?_,
    exec_portRetrain hn h⟩, exec_nakRetrain hn, retrain_up⟩
  · rw [exec_portEnable hn h, portEnable_licensed hl]
  · rw [exec_portEnable hn h, portEnable_unlicensed hl]
  · rw [exec_portEnable hn h, portEnable_off he]
  · exact ⟨_, by rw [exec_portReset hn h, portReset_idle hr], resetPort_discards w⟩
  · rw [exec_portReset hn h, portReset_lasting h.up hr]
  · rw [exec_portReset hn h, portReset_idle hr, resetPort_eq, discardPort_nothing _ n hi hd ho]

/-- Port 0 with a cell at its input of VC2. -/
def portWithCell : FabPort :=
  { FabPort.init with inputs := [(2, [⟨2, false, true, 1, 7, List.replicate 14 0, 0, 0, 0, 0, List.replicate 32 0, false⟩])] }

/-- A device in service with a map of ports that is not in canonical form: its keys fall, and port 1 is listed with the value
that an unlisted port reads as. Port 0 cannot be emptied in it, since a write of the initial value lists nothing before
port 1 and does not come to the entry of port 0 behind it. -/
def fallingPorts : State :=
  { State.reset with
    domains := [(domPcie, .on), (domPlat 0, .on), (domFab 0, .on)]
    bringUp := { BringUp.init with done := 9 }
    host := { HostIf.init with ready := true, perst := false, memorySpace := true }
    fabric := { Fabric.init with ports := [(1, FabPort.init), (0, portWithCell)] } }

theorem fallingPorts_reached : Reached fallingPorts .FAB_PORT_CTRL 0 where
  bars := by decide +kernel
  up := by decide +kernel
  placed := by decide +kernel
  served := by decide +kernel

/-- The cell at the reset port's input is still there. -/
theorem fallingPorts_resetPort_inputs : ((fallingPorts.resetPort 0).fp 0).inputs ≠ [] := by decide +kernel

/-- Refutes O35: its clause on the reset of a port asks that the port's inputs hold none in every state, also in one whose map
of ports is not in canonical form; in `fallingPorts` the port keeps its cell. On the states whose map has that form, which a
write of a port keeps (`portsCanonical_setFp`), every clause holds (`portControl_of_portsCanonical`). -/
theorem not_portControl : ¬ Obligations.PortControl := by
  unfold Obligations.PortControl
  intro h
  obtain ⟨-, -, -, reset, -⟩ := h fallingPorts 0 (by decide)
  have idle : (fallingPorts.fp 0).resetting = false := by decide +kernel
  obtain ⟨t, ht, hin, -⟩ := reset fallingPorts_reached idle
  rw [exec_portReset (by decide) fallingPorts_reached, portReset_idle idle] at ht
  cases ht
  exact fallingPorts_resetPort_inputs hin

end Sys2Proof.Machine
end

section
/-! PROOFS. Commands complete exactly where their units exist, and requests at vaults and channels. -/
namespace Sys2Proof.Machine

open Sys2Proof

/-! ### Commands on units that exist -/

theorem onUnit_fault {ok : Bool} {s : State} (h : ok = false) : onUnit ok s = .fault .noSuchUnit := if_neg (by simp [h])

/-- The meaning of every row, one case a constructor, checks that the units the row names exist and no more, and then has its
effect (log entry 5). -/
theorem exec_onUnit (c : Instr) (s : State) : ∃ t, exec c s = onUnit c.wf t := by
  cases c <;> exact ⟨_, rfl⟩

theorem completes_of_wf {c : Instr} (s : State) (h : c.wf = true) : Completes c s := by
  obtain ⟨t, ht⟩ := exec_onUnit c s
  exact ⟨t, ht.trans (onUnit_ok h)⟩

theorem exec_of_not_wf {c : Instr} (s : State) (h : c.wf = false) : exec c s = .fault .noSuchUnit := by
  obtain ⟨t, ht⟩ := exec_onUnit c s
  exact ht.trans (onUnit_fault h)

/-- Settles O3: a row's meaning is its effect behind a check of the units it names, which is what `Instr.wf` says. -/
theorem completesIffWellFormed : Obligations.CompletesIffWellFormed := by
  unfold Obligations.CompletesIffWellFormed
  exact fun c s => ⟨completes_of_wf s, exec_of_not_wf s⟩

/-! ### Requests at their unit -/

/-- A read that is due leaves the mesh, and with it the reads that wait with it (R138, R276). -/
def State.gathered (s : State) (v : ReadService) : State :=
  (s.takePacket v.pkt).forEach (s.mergedWith v) fun q s => s.takePacket q

theorem exec_readReq {v : ReadService} (s : State) (h : v.ok = true) : exec (.readReq v) s = .next (s.readReq v) :=
  onUnit_ok h

theorem exec_writeReq {p : Packet} (s : State) (h : p.ok = true) : exec (.writeReq p) s = .next (s.writeReq p) :=
  onUnit_ok h

theorem pkt_ok_of_ok {v : ReadService} (h : v.ok = true) : v.pkt.ok = true := by
  simp only [ReadService.ok, Bool.and_eq_true] at h
  obtain ⟨⟨⟨hp, -⟩, -⟩, -⟩ := h
  exact hp

section
variable {s : State} {v : ReadService}

/-- A read that is on its way, or waits behind a write of the same place, does nothing yet (log entry 1). -/
theorem readReq_waits (h : ¬ (s.flying v.pkt = false ∧ s.behind v.pkt = false)) : s.readReq v = s := by
  refine if_pos ?_
  rwa [← Bool.not_eq_false, Bool.or_eq_false_iff]

variable (ready : s.flying v.pkt = false ∧ s.behind v.pkt = false)
include ready

theorem readReq_refused {st : Nat} (h : (s.takePacket v.pkt).refusal v.pkt = some st) :
    s.readReq v = (s.takePacket v.pkt).refuseRequest v.pkt .READ_RSP st := by
  simp [State.readReq, ready, h]

/-- A vault reads the word once for all (R134, R138). -/
theorem readReq_vault {L u : Nat} (hd : v.pkt.dst = .cluster L u) (h : (s.takePacket v.pkt).refusal v.pkt = none) :
    s.readReq v =
      let r := (s.gathered v).vload L (v.pkt.addr / 32 * 32) 32 .mesh
      (r.2.2.fadd VLT_MERGE.COUNT L ((s.mergedWith v).length + v.ports)).answerReads v.pkt (s.mergedWith v) r.2.1 r.1 := by
  simp [State.readReq, State.gathered, ready, hd, h]

/-- A channel reads the block once for all, and answers every one FENCED where it may not (R276, R380). -/
theorem readReq_channel {P ch : Nat} (hd : v.pkt.dst = .channel P ch) (h : (s.takePacket v.pkt).refusal v.pkt = none) :
    let r := (s.gathered v).asAccepted ((s.takePacket v.pkt).drains v.pkt) fun s => s.requestRead v.pkt P ch
    (r.1.fenced = false → s.readReq v
      = (r.2.fadd MEM_MERGE.COUNT P (s.mergedWith v).length).answerReads v.pkt (s.mergedWith v) r.1.poison r.1.bytes)
    ∧ (r.1.fenced = true → s.readReq v
      = r.2.forEach (v.pkt :: s.mergedWith v) fun q s => s.refuseRequest q .READ_RSP 1) := by
  unfold State.gathered
  refine ⟨fun served => ?_, fun fenced => ?_⟩
  · simp [State.readReq, ready, hd, h, served]
  · simp [State.readReq, ready, hd, h, fenced]

end

section
variable {s : State} {p : Packet}

/-- A write that is on its way, or waits behind a request of the same place, does nothing yet (log entry 1). -/
theorem writeReq_waits (h : ¬ (s.flying p = false ∧ s.behind p = false)) : s.writeReq p = s := by
  refine if_pos ?_
  rwa [← Bool.not_eq_false, Bool.or_eq_false_iff]

variable (ready : s.flying p = false ∧ s.behind p = false)
include ready

theorem writeReq_refused {st : Nat} (h : (s.takePacket p).refusal p = some st) :
    s.writeReq p = (s.takePacket p).refuseRequest p .WRITE_ACK st := by
  simp [State.writeReq, ready, h]

/-- A write without a halo's data stores its bytes in the vault, zeros where they are poisoned (R134, R263). -/
theorem writeReq_vault {L u : Nat} (hd : p.dst = .cluster L u) (h : (s.takePacket p).refusal p = none)
    (hh : (s.takePacket p).carriesHalo p = false) :
    s.writeReq p = ((s.takePacket p).vstore L p.addr
      (if p.poison then List.replicate (packetBytes p).length 0 else packetBytes p) .mesh).respond p .WRITE_ACK 0 false [] := by
  simp [State.writeReq, ready, hd, h, hh]

theorem writeReq_channel {P ch : Nat} (hd : p.dst = .channel P ch) (h : (s.takePacket p).refusal p = none) :
    s.writeReq p =
      let r := (s.takePacket p).asAccepted ((s.takePacket p).drains p) fun s => s.requestWrite p P ch (packetBytes p)
      if r.1 then r.2.refuseRequest p .WRITE_ACK 1 else r.2.respond p .WRITE_ACK 0 false [] := by
  simp only [State.writeReq, ready, hd, h, Bool.or_self, Bool.false_eq_true, if_false]
  split
  case h_1 hr => simp [hr]
  case h_2 hr => simp [hr]

end

/-- Settles O26: a request that is due is taken up at its unit, by the case of its destination and of its refusal. -/
theorem meshRequests : Obligations.MeshRequests := by
  unfold Obligations.MeshRequests
  intro s v hv p t others taken ready
  have hp : p.ok = true := pkt_ok_of_ok hv
  rw [exec_readReq s hv, exec_writeReq s hp]
  refine ⟨fun L u due hd hn => congrArg _ (readReq_vault due hd hn),
    fun P ch due hd hn => ⟨fun served => congrArg _ ((readReq_channel due hd hn).1 served),
      fun fenced => congrArg _ ((readReq_channel due hd hn).2 fenced)⟩,
    fun L u due hd hn clean hh => ?_, fun L u due hd hn poison hh => ?_,
    fun P ch due hd hn => congrArg _ (writeReq_channel due hd hn),
    fun late => ⟨congrArg _ (readReq_waits late), congrArg _ (writeReq_waits late)⟩,
    fun st due hs => ⟨congrArg _ (readReq_refused due hs), congrArg _ (writeReq_refused due hs)⟩⟩
  · simp [t, writeReq_vault due hd hn hh, clean]
  · simp [t, writeReq_vault due hd hn hh, poison]

end Sys2Proof.Machine
end

section
/-! PROOFS. The decisions that head step 3 of a boundary. -/
namespace Sys2Proof.Machine

open Sys2Proof

/-! ### Rows of the decisions, for a context that exists -/

theorem okCx_of {c : Nat} (h : c < 16) : okCx c = true := decide_eq_true h

section
variable {c : Nat} (s : State) (hc : c < 16)
include hc

theorem exec_skipLimit : exec (.skipLimit c) s = .next (s.skipLimit c) := onUnit_ok (okCx_of hc)

theorem exec_folDrainTimeout : exec (.folDrainTimeout c) s = .next (s.drainTimeout c) := onUnit_ok (okCx_of hc)

theorem exec_hangDeclared : exec (.hangDeclared c) s = .next (s.hangDeclared c) := onUnit_ok (okCx_of hc)

theorem exec_quarantined : exec (.quarantined c) s = .next (s.quarantined c) := onUnit_ok (okCx_of hc)

theorem exec_rerunLimit : exec (.rerunLimit c) s = .next (if s.hangDue c then s else s.rerunLimit c) :=
  onUnit_ok (okCx_of hc)

end

/-! ### What each decision does once it is due -/

/-- The segment of the context is under way: not held, not finished, not marked for a rerun, no dependant's. -/
structure UnfinishedSegment (s : State) (c : Nat) : Prop where
  scheduled : s.scheduled c = true
  segment : (s.cx c).segment = true
  free : (s.cx c).hold = .none
  unfinished : s.segmentFinished c = false
  unmarked : s.rerunDue c = false
  independent : s.depends c = false

section
variable {s : State} {c : Nat}

/-- An unfinished segment that no hang concerns is stopped once the policy Skip has run out of skips (R38). -/
theorem skipLimit_of_limit (h : UnfinishedSegment s c) (hd : s.hangDue c = false) (hn : (s.cx c).hangNow = false)
    (hp : s.fget TLY_CX_POLICY.POLICY c = 0) (h0 : s.fget TLY_CX_POLICY.SKIP_LIMIT c ≠ 0)
    (hl : s.fget TLY_CX_POLICY.SKIP_LIMIT c ≤ (s.cx c).skips) : s.skipLimit c = s.stopFault c csOverrun .fault :=
  if_pos (by simp [h.scheduled, h.segment, h.free, h.unfinished, h.unmarked, h.independent, hd, hn, hp, h0, hl])

theorem drainTimeout_of_slipped (hs : s.folState c = folSlipped) (hm : (s.cx c).faultMark = some csDrainTimeout) :
    s.drainTimeout c = s.stopFault c csDrainTimeout .fault :=
  if_pos (by simp [hs, hm])

theorem hangDeclared_of_due (h : s.hangDue c = true) : s.hangDeclared c = s.declareHang c := if_pos h

theorem quarantined_of_due (h : s.quarantineDue c = true) : s.quarantined c = s.quarantine c := if_pos h

/-- Each partition that the reruns name and that is not fenced yet is counted and fenced, in turn (R379). -/
theorem rerunLimit_of_due (h : s.rerunLimitDue c = true) :
    s.rerunLimit c = s.forEach ((s.cx c).faultParts.dedup.filter fun p => !s.fenced p) fun p s =>
      (s.finc HNG_COUNT.RERUN 0).raiseFence causeRerun true p :=
  if_pos h

theorem forEach_singleton {α : Type} (a : α) (f : α → State → State) : s.forEach [a] f = f a s := rfl

end

/-- Settles O51: each row acts where its decision is due, which its premises say. -/
theorem stepThreeDecisions : Obligations.StepThreeDecisions := by
  unfold Obligations.StepThreeDecisions
  intro s c hc
  rw [exec_skipLimit s hc, exec_folDrainTimeout s hc, exec_hangDeclared s hc, exec_quarantined s hc, exec_rerunLimit s hc]
  refine ⟨fun hsch hseg hhold hfin hmark hdep hang hnow policy limit skips => congrArg _ ?_,
    fun slipped marked => congrArg _ (drainTimeout_of_slipped slipped marked),
    fun due => congrArg _ (hangDeclared_of_due due), fun due => congrArg _ (quarantined_of_due due),
    fun p calm due parts => congrArg _ ?_⟩
  · exact skipLimit_of_limit ⟨hsch, hseg, hhold, hfin, hmark, hdep⟩ hang hnow policy limit skips
  · rw [if_neg (by simp [calm]), rerunLimit_of_due due, parts, forEach_singleton]

end Sys2Proof.Machine
end

section
/-! PROOFS. The source of a Follower, the opening of a tally, and the order of its boundary. -/
namespace Sys2Proof.Machine

open Sys2Proof

/-! ### The source of a Follower (R39 to R42) -/

section
variable {s : State}

theorem exec_tallyInPulse (a : Nat) : exec (.tallyInPulse a) s = .next (s.pulse a) := onUnit_ok rfl

theorem pulse_of_pinFollower (a : Nat) (hp : s.up (domPlat 0) = true) (hf : s.up (domFab 0) = true) (hr : s.role = 2) :
    s.pulse a = s.takeSource ((a : Int) - (s.fget TLY_IN_DELAY.DELAY 0 : Int)) s.period :=
  if_pos (by simp [hp, hf, hr])

theorem exec_tallyCell {n : Nat} {c : PacketCell} (a : Nat) (hn : n < 24) (hc : c.ok = true) :
    exec (.tallyCell n c a) s = .next (s.tallyCell n c a) :=
  onUnit_ok (by rw [okPort_of hn, hc]; rfl)

/-- A tally cell at the port of the source: a source edge, and the number and the period of the next boundary (R40). -/
theorem tallyCell_of_source {n : Nat} {c : PacketCell} (a : Nat) (hp : (s.takeCell n c).up (domPlat 0) = true)
    (hr : (s.takeCell n c).role = 3) (hs : (s.takeCell n c).fget TLY_SYNC.SOURCE_PORT 0 = n) (hk : c.kind = 6) :
    s.tallyCell n c a =
      let t := s.takeCell n c
      let src := (a : Int) - (t.fget FAB_PORT_DELAY.DELAY n : Int)
      let u := t.takeSource src (periodOfCell c)
      let number := if t.tally.acquired = false ∨ t.tally.nearest src = t.tally.edge then tallyOfCell c + 1 else tallyOfCell c
      u.setTally { u.tally with cellTally := some (number % 2 ^ 64, periodOfCell c) } := by
  refine (if_pos (by simp [hp, hr, hs, hk])).trans ?_
  simp only [Bool.or_eq_true, Bool.not_eq_true', beq_iff_eq]

theorem exec_lost : exec .lost s = .next s.lost := onUnit_ok rfl

theorem lost_of_missed (hp : s.up (domPlat 0) = true) (hr : 2 ≤ s.role) (hl : s.fget TLY_HOLDOVER.LIMIT 0 ≤ s.tally.missed)
    (hm : 1 ≤ s.tally.missed) (hn : s.fon TLY_STATUS.LOST 0 = false) :
    s.lost = ((s.fset TLY_STATUS.LOST 0 1).dropCircuits).report sevError blkTLY Uncoded.lost.code 0xFFFF none [] := by
  have due : s.lostDue = true := by simp [State.lostDue, hp, hr, hl, hm, hn]
  exact if_pos due

theorem exec_lostClear (h : Reached s .TLY_STATUS 0) : exec .lostClear s = .next (s.fset TLY_STATUS.LOST 0 0) :=
  (onUnit_ok rfl).trans (congrArg _ (writeTo_reached h _))

/-! ### Step 1 (R29, R39) -/

theorem nextCount_one_more (h : s.role ≠ 3) : s.nextCount none = (s.tally.count + 1) % 2 ^ 64 := by
  simp [State.nextCount, h]

/-- Step 1 takes a pending TLY_COUNT_LOAD into its register; a fabric Follower drops it. -/
def State.countLoaded (s : State) : State :=
  match (s.takeRwt .TLY_COUNT_LOAD 0).1 with
  | some v => if s.role = 3 then (s.takeRwt .TLY_COUNT_LOAD 0).2 else (s.takeRwt .TLY_COUNT_LOAD 0).2.rset .TLY_COUNT_LOAD 0 v
  | none => (s.takeRwt .TLY_COUNT_LOAD 0).2

@[simp] theorem countLoaded_tally : s.countLoaded.tally = s.tally := by
  unfold State.countLoaded
  split
  · split <;> rfl
  · rfl

theorem countLoaded_of_none (h : (s.takeRwt .TLY_COUNT_LOAD 0).1 = none) :
    s.countLoaded = (s.takeRwt .TLY_COUNT_LOAD 0).2 := by
  unfold State.countLoaded
  rw [h]

/-- The tally that opens has the number of step 1, and the edge that was the next one. -/
def State.numbered (s : State) : State :=
  s.countLoaded.setTally { s.countLoaded.tally with
    count := s.countLoaded.nextCount (s.takeRwt .TLY_COUNT_LOAD 0).1
    passed := s.countLoaded.tally.passed + 1
    edge := s.countLoaded.tally.nextEdge
    time := s.countLoaded.tally.nextEdge }

/-- The pulse at TALLY_OUT is all that step 1 does beside. -/
theorem openTally_eq : s.openTally =
    if s.numbered.fon TLY_SYNC.OUT_ENABLE 0 && s.numbered.up (domFab 0) then
      s.numbered.emit (.tallyOut s.countLoaded.tally.nextEdge)
    else s.numbered := rfl

theorem openTally_tally : s.openTally.tally = s.numbered.tally := by
  rw [openTally_eq]
  split
  · exact emit_tally _ _
  · rfl

theorem openTally_edge : s.openTally.tally.edge = s.tally.nextEdge := by
  rw [openTally_tally, State.numbered, setTally_tally, countLoaded_tally]

theorem openTally_time : s.openTally.tally.time = s.tally.nextEdge := by
  rw [openTally_tally, State.numbered, setTally_tally, countLoaded_tally]

theorem openTally_count (hr : s.role ≠ 3) (hl : (s.takeRwt .TLY_COUNT_LOAD 0).1 = none) :
    s.openTally.tally.count = (s.tally.count + 1) % 2 ^ 64 := by
  rw [openTally_tally, State.numbered, setTally_tally, hl, countLoaded_of_none hl]
  exact nextCount_one_more hr

/-! ### The order of a boundary (R33, R393) -/

theorem exec_tallyEdge (h : s.up (domPlat 0) = true) : exec .tallyEdge s = .next s.boundary :=
  (onUnit_ok rfl).trans (congrArg _ (if_pos h))

section
-- What the first two steps leave: the tally has opened, its triggers are latched, the ended one's records are closed.
variable {v : State} (latched : ((s.ending.gains.summaries.openTally.latch s.tally.count).holdover).closeRecords = v)
include latched

/-- Once bring-up is ready the steps act one after the other. -/
theorem boundary_of_ready (hr : v.ready = true) (hd : 4 ≤ v.step3.step4.step5.sendTally.bringUp.done)
    (hp : v.step3.step4.step5.sendTally.powerStep.ready = true) :
    s.boundary = v.step3.step4.step5.sendTally.powerStep.step7.step8.step9.testStep.step11.step12.step13.opened := by
  simp only [State.boundary, latched, hr, hd, hp, if_true]

/-- Before power control is brought up only steps 1, 2 and 5 act (R393). -/
theorem boundary_before_power (hr : v.ready = false) (hd : v.step5.sendTally.bringUp.done < 4)
    (hp : v.step5.sendTally.ready = false) : s.boundary = v.step5.sendTally.opened := by
  simp only [State.boundary, latched, hr, Nat.not_le.2 hd, hp, Bool.false_eq_true, if_false]

end

end

/-- Settles O60: a Follower's source and its loss, the tally that opens, and the two orders of a boundary. -/
theorem timeBase : Obligations.TimeBase := by
  unfold Obligations.TimeBase
  refine ⟨fun s => ⟨fun a plat fab role => ?_, fun n c a hn ok plat role port kind => ?_,
    fun plat role limit missed known => ?_, exec_lostClear⟩, fun s plat =>
    ⟨⟨openTally_edge, openTally_time, openTally_count⟩, fun ready power still => ?_, fun early unpowered still => ?_⟩⟩
  · rw [exec_tallyInPulse, pulse_of_pinFollower a plat fab role]
  · rw [exec_tallyCell a hn ok, tallyCell_of_source a plat role port kind]
  · rw [exec_lost, lost_of_missed plat role limit missed known]
  · rw [exec_tallyEdge plat, boundary_of_ready rfl ready power still]
  · rw [exec_tallyEdge plat, boundary_before_power rfl early unpowered still]

end Sys2Proof.Machine
end

section
/-! PROOFS. Loads from a vault. -/
namespace Sys2Proof.Machine

open Sys2Proof

/-! ### An issuing core, and what its instructions check first -/

/-- The core that issues is one of the three of its cluster (R102). -/
theorem core_lt_of_fetches {s : State} {who : Issue} {i : Insn} (h : Fetches s who i) : who.core < 3 := by
  have hok := h.ok
  simp only [Issue.ok, Bool.and_eq_true] at hok
  exact of_decide_eq_true hok.1.2

theorem running_of_fetches {s : State} {who : Issue} {i : Insn} (h : Fetches s who i) :
    (s.core who.cluster who.core).run = .running := by
  have hi := h.issues
  simp only [State.issues, Bool.and_eq_true, beq_iff_eq] at hi
  exact hi.1.2

/-- The row of a fetched instruction answers the state that the instruction's effect gives. -/
theorem coreRow_next {s t : State} {who : Issue} {i : Insn} {run : Insn → Option (State → State)} {f : State → State}
    (h : Fetches s who i) (hr : run i = some f) (ht : f s = t) : coreRow who s run = .next t :=
  (coreRow_fetches h hr).trans (congrArg _ ht)

theorem scalar_on {s : State} {L n kp : Nat} (h : lane ((s.core L n).kr kp) 0 = true) (f : State → State) :
    s.scalar L n kp f = f s := if_pos h

theorem scalar_off {s : State} {L n kp : Nat} (h : lane ((s.core L n).kr kp) 0 = false) (f : State → State) :
    s.scalar L n kp f = s.retire L n id := if_neg (by simp [Core.on, h])

/-- An aligned access that ends inside the vault passes both checks of R112. -/
theorem accessFault_none {x align bytes : Nat} (ha : x % align = 0) (he : x + bytes ≤ Config.vaultBytes) :
    accessFault x align bytes = none := by
  rw [accessFault, if_neg (not_not.2 ha), if_neg (Nat.not_lt.2 he)]

/-! ### Loads that break no rule, of a vault without upsets -/

theorem loadRow_sound {s : State} {R x : Nat} {f : Fmt} {k : DWord} (p : VPort) (hv : VaultSound s R)
    (hr : ∀ o ∈ touched f.width k, (s.regionAt R (x + o)).isSome = true) :
    s.loadRow R x f k p = (unpackRow f (s.vbytes R x (rowBytes f.width 64)) 64, s) := by
  have hall : ((touched f.width k).map (x + ·)).all (fun b => (s.regionAt R b).isSome) = true := by
    simpa [List.all_eq_true] using hr
  rw [State.loadRow, if_pos hall, checkGroups_sound hv]

/-- Where no group was delivered poisoned, no scale lies in a poisoned one (R141). -/
theorem any_contains_nil (gs : List Nat) : gs.any (([] : List Nat).contains ·) = false := by simp

/-- Settles O16: the checks of an access pass, and the vault delivers its bytes and leaves the state as it is. That a VLD
without a performed lane checks no address is the model's choice (log entry 79). -/
theorem vaultLoads : Obligations.VaultLoads := by
  unfold Obligations.VaultLoads
  intro s who d a kp off
  dsimp only
  intro hv
  refine ⟨fun h on aligned inside ok => coreRow_next h rfl ?ldw,
    fun fmt f h hf hk aligned inside ok => coreRow_next h rfl ?vld,
    fun sm16 blk h hb on inside ok => coreRow_next h rfl ?sld,
    fun h hoff => coreRow_next h rfl (scalar_off hoff _),
    fun fmt f h hf hk => coreRow_next h rfl ?noLane⟩
  case ldw =>
    rw [scalar_on on]
    simp only [accessFault_none aligned inside, vload_sound hv _ _ _ ok]
    rfl
  case vld =>
    simp only [hf, if_neg hk, accessFault_none aligned inside, loadRow_sound _ hv ok]
    rfl
  case sld =>
    rw [if_neg hb.ne, scalar_on on]
    simp only [accessFault_none (Nat.mod_one _) inside, ok, if_true, checkGroups_sound hv, any_contains_nil,
      Bool.false_eq_true, if_false]
    rfl
  case noLane =>
    simp only [hf, if_pos hk]
    rfl

end Sys2Proof.Machine
end

section
/-! PROOFS. The instructions on scales. -/
namespace Sys2Proof.Machine

open Sys2Proof

/-! ### What noting the outcomes of an instruction leaves of its core -/

theorem core_count_if (s : State) (b : Bool) (f : Fld) (i L n : Nat) :
    (if b then s.finc f i else s).core L n = s.core L n := by cases b <;> rfl

/-- Where its core runs, an instruction's outcomes change of it the sticky flags alone (R67). -/
theorem core_outcomes {s : State} {L n : Nat} (o : Outcomes) (hn : n < 3) (hr : (s.core L n).run = .running) :
    (s.outcomes L n o).core L n = { s.core L n with sticky := (s.core L n).sticky ||| o.bits } := by
  unfold State.outcomes
  simp only [core_count_if]
  unfold State.core State.updCore
  rw [cl_setCore_busy _ L hn (by simp [hr])]
  exact (getD_setIfInBounds ..).trans (if_pos ⟨rfl, hn⟩)

/-- The operands of a running core's instruction, which `f` takes from its first core, may be read before or after the
outcomes are noted: `f` does not see the sticky flags. -/
theorem retire_outcomes_operands {s : State} {L n : Nat} {o : Outcomes} {f : Core → Core → Core} (hn : n < 3)
    (hr : (s.core L n).run = .running) (hf : ∀ c b, f { c with sticky := b } = f c) :
    (s.outcomes L n o).retire L n (fun c => f c c) = (s.outcomes L n o).retire L n (f (s.core L n)) := by
  simp only [State.retire, State.updCore, core_outcomes o hn hr, hf]

/-! ### Computed and shifted scales (R123) -/

theorem writesS_of_running {s : State} {L n d : Nat} {f : Core → Nat → Scale} (hn : n < 3)
    (hr : (s.core L n).run = .running) (hf : ∀ c b, f { c with sticky := b } = f c) :
    s.writesS L n d f = (s.outcomes L n
      { scaleInvalid := (List.range 4).any fun e => (f (s.core L n) e).held == .invalid }).retire L n
        (·.setS d (scaleReg (f (s.core L n)))) :=
  retire_outcomes_operands (f := fun c c' => c'.setS d (scaleReg (f c))) hn hr fun c b => by rw [hf c b]

/-- What SSHIFT makes of entry `i` of sA: none where it copies the entry (R123). -/
def Core.shifted (c : Core) (a b i : Nat) : Option Scale :=
  match c.entry a i with
  | .normal e m => some (.normal (e + (c.gr b).toInt) m)
  | _ => none

/-- SSHIFT moves the exponent of an entry out of its range (R119). -/
def Core.shiftsOut (c : Core) (a b : Nat) : Bool :=
  (List.range 4).any fun i => (c.shifted a b i).map Scale.held == some .invalid

/-- The scale register that SSHIFT writes (R123). -/
def Core.shiftedReg (c : Core) (a b : Nat) : Vector Word 4 :=
  Vector.ofFn fun i : Fin 4 => ((c.shifted a b i).map Scale.entry).getD ((c.sr a).toArray.getD i 0)

theorem shiftedReg_eq_match (c : Core) (a b : Nat) : c.shiftedReg a b = Vector.ofFn fun i : Fin 4 =>
    match c.shifted a b i with
    | some x => x.entry
    | none => (c.sr a).toArray.getD i 0 := by
  unfold Core.shiftedReg
  congr 1
  funext i
  cases c.shifted a b i <;> rfl

theorem exec_sshift {s : State} {who : Issue} {d a b kp : Nat} (h : Fetches s who (.sshift d a b kp))
    (on : lane ((s.core who.cluster who.core).kr kp) 0 = true) :
    exec (.sshift who) s = .next (goesOn
      (s.outcomes who.cluster who.core { scaleInvalid := (s.core who.cluster who.core).shiftsOut a b }) who
      (·.setS d ((s.core who.cluster who.core).shiftedReg a b))) := by
  refine coreRow_next h rfl ((scalar_on on _).trans (Eq.trans ?_ (retire_outcomes_operands
    (f := fun c c' => c'.setS d (c.shiftedReg a b)) (core_lt_of_fetches h) (running_of_fetches h) fun _ _ => rfl)))
  simp only [shiftedReg_eq_match]
  rfl

/-! ### The residue check -/

/-- A residue-checked instruction that neither an upset nor an armed injection strikes has its effect (R125, R127). -/
theorem checked_quiet {s : State} {L n : Nat} (k : DWord) (f : State → State)
    (h : s.fon VEC_RESIDUE_INJECT.ARM (L * 2 + (n - 1)) = false) : s.checked L n k .none f = f s := by
  simp [State.checked, State.residueHit, h]

/-- Settles O19: the scalar predicate and the residue check let each instruction act, and noting its outcomes leaves its
operands as they were. Which invalid entries count and SMAXE's tie are the model's choices (log entry 79), and so are the
corners of RESCALE (log entry 62). -/
theorem scaleInstructions : Obligations.ScaleInstructions := by
  unfold Obligations.ScaleInstructions
  intro s who d a b kp
  dsimp only
  refine ⟨fun h on => coreRow_next h rfl ?smul, fun h on => coreRow_next h rfl ?smaxe,
    fun h on => coreRow_next h rfl (scalar_on on _), fun e h on => coreRow_next h rfl (scalar_on on _),
    fun mask h on => coreRow_next h rfl (scalar_on on _), exec_sshift,
    fun va sd fmt f blk sm16 h hf hb => coreRow_next h rfl ?bmax,
    fun vd va sd fmt f conv cv blk sm16 h hf hb hc quiet => coreRow_next h rfl ?rescale⟩
  case smul | smaxe =>
    exact (scalar_on on _).trans (writesS_of_running (core_lt_of_fetches h) (running_of_fetches h) fun _ _ => rfl)
  case bmax =>
    simp only [hf, if_neg hb.ne]
    rfl
  case rescale =>
    simp only [hf, if_neg hb.ne, hc, h.upset, checked_quiet _ _ quiet]
    rfl

end Sys2Proof.Machine
end

section
/-! PROOFS. The instructions that give messages, requests and descriptors to the units of a cluster. -/
namespace Sys2Proof.Machine

open Sys2Proof

/-! ### A blocking form and its try form -/

section
variable {s : State} {who : Issue} {try_ : Bool} {d a b kp : Nat}

theorem exec_msend (h : Fetches s who (.msend try_ d a b kp)) (on : lane ((s.core who.cluster who.core).kr kp) 0 = true) :
    exec (if try_ then .msendt who else .msend who) s = .next (s.send who.cluster who.core d a b try_) := by
  cases try_ <;> exact coreRow_next h rfl (scalar_on on _)

theorem exec_dmaq (h : Fetches s who (.dmaq try_ d a b kp)) (on : lane ((s.core who.cluster who.core).kr kp) 0 = true) :
    exec (if try_ then .dmaqt who else .dmaq who) s = .next (s.dmaq who.cluster who.core try_ d a b) := by
  cases try_ <;> exact coreRow_next h rfl (scalar_on on _)

theorem exec_mxi (h : Fetches s who (.mxi try_ d a kp)) (on : lane ((s.core who.cluster who.core).kr kp) 0 = true) :
    exec (if try_ then .mxit who else .mxi who) s = .next (s.mxi who.cluster who.core try_ d a) := by
  cases try_ <;> exact coreRow_next h rfl (scalar_on on _)

theorem exec_dmapop (h : Fetches s who (.dmapop try_ d b kp)) (on : lane ((s.core who.cluster who.core).kr kp) 0 = true) :
    exec (if try_ then .dmapopt who else .dmapop who) s = .next (s.dmapop who.cluster who.core try_ d b) := by
  cases try_ <;> exact coreRow_next h rfl (scalar_on on _)

theorem exec_mxpop (h : Fetches s who (.mxpop try_ d b kp)) (on : lane ((s.core who.cluster who.core).kr kp) 0 = true) :
    exec (if try_ then .mxpopt who else .mxpop who) s = .next (s.mxpop who.cluster who.core try_ d b) := by
  cases try_ <;> exact coreRow_next h rfl (scalar_on on _)

end

/-! ### Where the resource is there, both forms take it -/

section
variable {s : State} {L n d a b : Nat} (try_ : Bool)

/-- A message that its sender's unit accepts leaves for the unit that receives it, and the core waits (R117, R250). -/
theorem send_accepted {x cx : Nat} (hx : ((s.core L n).gr a).toNat = x) (hv : VaultSound s L) (owned : s.owner L = some cx)
    (aligned : x % 32 = 0) (inside : x + 32 ≤ Config.vaultBytes) (head : s.readOk L x 32 = true)
    (accepted : s.msgRefusal cx x (s.vbytes L x 32) = none) (whole : s.readOk L x (msgBytes (s.vbytes L x 32)) = true) :
    s.send L n d a b try_ = ((s.setSend L n (some { d := d, b := b, try_ := try_
                                                    msg := s.vbytes L x (msgBytes (s.vbytes L x 32))
                                                    held := false, heldAt := 0, answer := none })).injectMsg L n cx
      (s.vbytes L x (msgBytes (s.vbytes L x 32)))).block L n .answer := by
  have good : ¬ (x % 32 ≠ 0 ∨ x + 32 > Config.vaultBytes) := by omega
  simp only [State.send, owned, hx, if_neg good, vload_sound hv _ _ _ head, accepted, vload_sound hv _ _ _ whole]

theorem dmaq_room (aligned : ((s.core L n).gr a).toNat % 64 = 0)
    (inside : ((s.core L n).gr a).toNat + 64 ≤ Config.vaultBytes) (room : (s.cl L).dma.room = true) :
    s.dmaq L n try_ d a b = (s.acceptDma L ((s.core L n).gr a).toNat).2.2.retire L n fun c =>
      (c.setG d (BitVec.ofNat 32 (s.acceptDma L ((s.core L n).gr a).toNat).1)).setG b
        (s.acceptDma L ((s.core L n).gr a).toNat).2.1 := by
  simp [State.dmaq, aligned, Nat.not_lt.2 inside, room]

theorem mxi_room (aligned : ((s.core L n).gr a).toNat % 64 = 0)
    (inside : ((s.core L n).gr a).toNat + 64 ≤ Config.vaultBytes) (room : (s.cl L).matrix.room = true) :
    s.mxi L n try_ d a = (s.acceptDesc L ((s.core L n).gr a).toNat).retire L n (·.setG d 0) := by
  simp [State.mxi, aligned, Nat.not_lt.2 inside, room]

theorem dmapop_cons {w : Word} {rest : List Word} (h : (s.cl L).dma.done = w :: rest) :
    s.dmapop L n try_ d b
      = ((s.updDma L fun x => { x with done := rest }).progress L).retire L n fun c => (c.setG d 0).setG b w := by
  simp only [State.dmapop, h]

theorem mxpop_cons {w : Word} {rest : List Word} (h : (s.cl L).matrix.done = w :: rest) :
    s.mxpop L n try_ d b = (s.popCompletion L).retire L n fun c => (c.setG d 0).setG b w := by
  simp only [State.mxpop, h]

end

/-- Settles O21: a form that finds its resource does not look whether it is a try form, except that MSENDT notes it with
its message. Where D and B name one register it keeps the value written to gB, the model's choice (log entry 79). -/
theorem unitQueueInstructions : Obligations.UnitQueueInstructions := by
  unfold Obligations.UnitQueueInstructions
  intro s who try_ d a b kp
  dsimp only
  intro on
  refine ⟨fun h hv cx owned aligned inside head accepted whole => ?msend, fun h aligned inside room => ?dmaq,
    fun h aligned inside room => ?mxi, fun h w rest hd => ?dmapop, fun h w rest hd => ?mxpop⟩
  case msend => rw [exec_msend h on, send_accepted try_ rfl hv owned aligned inside head accepted whole]
  case dmaq => rw [exec_dmaq h on, dmaq_room try_ aligned inside room]; rfl
  case mxi => rw [exec_mxi h on, mxi_room try_ aligned inside room]; rfl
  case dmapop => rw [exec_dmapop h on, dmapop_cons try_ hd]; rfl
  case mxpop => rw [exec_mxpop h on, mxpop_cons try_ hd]; rfl

end Sys2Proof.Machine
end

section
/-! PROOFS. Moves that end, sites that retire, and the ledgers. -/
namespace Sys2Proof.Machine

open Sys2Proof

theorem okPart_of {p : Nat} (h : p < 12) : okPart p = true := decide_eq_true h

/-! ### The end of a move -/

section
variable {s : State} {L n c : Nat} {readable : Bool}

theorem exec_moveCopyComplete (hL : L < 288) :
    exec (.moveCopyComplete L readable) s = .next ((s.moveComplete L readable).settleAccesses L) := onUnit_ok (okCluster_of hL)

/-- A move of a context without a folio ends with no configuration to load (R238). -/
theorem moveComplete_noFolio (hn : (s.cl L).site = some n) (owned : s.owner L = some c) (hm : (s.cl L).moving = true)
    (none : (s.finishCopy c L readable).folState c = folNone) :
    s.moveComplete L readable
      = ((s.finishCopy c L readable).updCl L fun k => { k with moving := false, copyFrom := .none }).startIfReady c L := by
  simp only [State.moveComplete, hn, owned, hm, none, if_true, Bool.false_eq_true, if_false]

/-- A move of a context with a folio ends once the configuration is loaded at the new site (R238). -/
theorem moveComplete_loaded (hn : (s.cl L).site = some n) (owned : s.owner L = some c) (hm : (s.cl L).moving = true)
    (active : (s.finishCopy c L readable).folState c ≠ folNone)
    (clean : ((s.finishCopy c L readable).loadConfig c L ((s.finishCopy c L readable).activeFolio c) none).1 = false) :
    s.moveComplete L readable
      = (((s.finishCopy c L readable).loadConfig c L ((s.finishCopy c L readable).activeFolio c) none).2.updCl L
          fun k => { k with moving := false, copyFrom := none }).startIfReady c L := by
  simp only [State.moveComplete, hn, owned, hm, if_neg active, clean, if_true, Bool.false_eq_true, if_false]

end

/-! ### Migrations, retirement and visits -/

section
variable {s : State}

theorem migrationCopied_cutOff {i : Nat} {m : Migration} (hi : s.placer.migrations[i]? = some m) (cut : s.copyCutOff m = true) :
    s.migrationCopied i = s := by
  simp [State.migrationCopied, hi, cut]

theorem migrationCopied_whole {i : Nat} {m : Migration} (hi : s.placer.migrations[i]? = some m) (whole : s.copyCutOff m = false) :
    s.migrationCopied i
      = { s with placer := { s.placer with migrations := s.placer.migrations.set i { m with copied := true } } } := by
  simp [State.migrationCopied, hi, whole]

/-- Only a site that is not DEFECTIVE becomes due (R98). -/
theorem not_defective_of_retireDue {n last : Nat} (due : s.retireDue n last = true) : (s.site n).state ≠ .DEFECTIVE := by
  simp only [State.retireDue, Bool.and_eq_true, bne_iff_ne] at due
  exact due.2

theorem retireSite_of_not_defective {n : Nat} (cause : Nat) (h : (s.site n).state ≠ .DEFECTIVE) :
    s.retireSite n cause = s.updSite n fun x => { x with retire := some (x.retire.getD cause) } := by
  simp only [State.retireSite, State.updSite, if_neg h]

theorem rotationVisit_new {p : Nat} (on : s.fon PLC_ROTATE.ENABLE 0 = true) (new : p ∉ s.placer.rotateDue) :
    s.rotationVisit p = { s with placer := { s.placer with rotateDue := s.placer.rotateDue ++ [p] } } := by
  simp [State.rotationVisit, on, new]

/-! ### The ledgers -/

/-- PLC_LEDGER shows the ledger with the append that reached flash as its last entry (R228). -/
theorem appendDone_cons {e : Defect} {rest : List Defect} (h : s.placer.appends = e :: rest) :
    s.appendDone = ((({ s with placer := { s.placer with
          appends := rest, defects := s.placer.defects ++ [e] } } : State).fset PLC_LEDGER.ENTRIES 0
        (s.placer.defects.length + 1)).fbit PLC_LEDGER.FULL 0 (decide (4096 ≤ s.placer.defects.length + 1))).fbit
      PLC_LEDGER.PENDING 0 (!rest.isEmpty) := by
  simp only [State.appendDone, h, State.syncLedger, List.length_append, List.length_singleton]

theorem exec_ledgerAppendRetry_failed (h : s.placer.appends ≠ []) :
    exec (.ledgerAppendRetry false) s = .next (s.fbit PLC_LEDGER.WRITE_FAILED 0 true) :=
  (onUnit_ok rfl).trans (by simp [h])

theorem ledgerUncorrectable_empty {p : Nat} (h : (s.rebuildEntries p).contextsOn p = []) :
    s.ledgerUncorrectable p = s.rebuildEntries p := by
  simp only [State.ledgerUncorrectable, h, State.forEach, List.foldl_nil]

theorem ledgerUncorrectable_running {p c : Nat} (h : (s.rebuildEntries p).contextsOn p = [c])
    (hs : ((s.rebuildEntries p).cx c).segment = true) :
    s.ledgerUncorrectable p = (s.rebuildEntries p).updCx c fun x => { x with rerunMark := true } := by
  simp only [State.ledgerUncorrectable, h, State.forEach, List.foldl_cons, List.foldl_nil, hs, if_true]

end

/-- Settles O34: each event is due by its premises. That the copy of a path that is cut does nothing is the model's choice
(log entry 1), and so is the rerun after a ledger that cannot be read (log entry 32). -/
theorem movesAndRetirement : Obligations.MovesAndRetirement := by
  unfold Obligations.MovesAndRetirement
  refine ⟨fun s L n p i => ?events, fun s => ?ledgers⟩
  case events =>
    refine ⟨fun c readable hL hn owned hm => ?noFolio, fun c readable hL hn owned hm => ?loaded, fun m hi cut => ?cutOff,
      fun m hi whole => ?copied, fun hn due => ?retire, fun hp on new => ?visit⟩
    case noFolio =>
      dsimp only
      intro none
      rw [exec_moveCopyComplete hL, moveComplete_noFolio hn owned hm none]
    case loaded =>
      dsimp only
      intro active clean
      rw [exec_moveCopyComplete hL, moveComplete_loaded hn owned hm active clean]
    case cutOff => exact (onUnit_ok rfl).trans (congrArg _ (migrationCopied_cutOff hi cut))
    case copied => exact (onUnit_ok rfl).trans (congrArg _ (migrationCopied_whole hi whole))
    case retire =>
      exact (onUnit_ok (okSite_of hn)).trans (congrArg _ ((if_pos due).trans
        (retireSite_of_not_defective 2 (not_defective_of_retireDue due))))
    case visit => exact (onUnit_ok (okPart_of hp)).trans (congrArg _ (rotationVisit_new on new))
  case ledgers =>
    refine ⟨fun e rest h => ?append, exec_ledgerAppendRetry_failed, fun p hp _ h => ?unused, fun p c hp h hs => ?rerun⟩
    case append =>
      dsimp only
      rw [← appendDone_cons h]
      rintro c (rfl | rfl)
      case inl => exact onUnit_ok rfl
      case inr => exact onUnit_ok rfl
    case unused => exact (onUnit_ok (okPart_of hp)).trans (congrArg _ (ledgerUncorrectable_empty h))
    case rerun => exact (onUnit_ok (okPart_of hp)).trans (congrArg _ (ledgerUncorrectable_running h hs))

end Sys2Proof.Machine
end

section
/-! PROOFS. The matrix array and its registers. -/
namespace Sys2Proof.Machine

open Sys2Proof

/-! ### A descriptor starts -/

theorem descriptorStart_due {s : State} {L serial n : Nat} {d : List Word} {rest : List (Nat × List Word)}
    (hq : (s.cl L).matrix.queue = (serial, d) :: rest) (hr : s.reachable L = true) (hs : (s.cl L).matrix.startable = true)
    (free : s.arrayFree L = true) (hn : (s.cl L).site = some n) :
    s.descriptorStart L = (s.updSite n fun x => { x with arrayLast := some L }).updMatrix L fun m => { m with
      queue := rest
      jobs := m.jobs ++ [{ serial := serial, desc := d, tile := 0, kblock := 0, pass := 0, written := 0, waiting := none
                           arrayDone := false, flags := 0, mismatch := false, invalid := [] }] } := by
  simp only [State.descriptorStart, hq, hr, hs, free, hn, Bool.and_self, if_true]

/-! ### One K-block and pass of the array -/

/-- The slices of A and of B in the pass that a job has come to (R82). -/
def Job.slices (j : Job) : Slice × Slice := (passesOf j.desc).getD j.pass (.whole, .whole)

/-- What the place of a job reads of A: the poisoned groups, and the state after. -/
def State.readA (s : State) (L : Nat) (j : Job) : List Nat × State :=
  s.readRanges L .matrixA (rangesA j.desc (tileRow j.desc j.tile) (j.kblock * kBlockLen j.desc) (kBlockLen j.desc))

/-- What it reads of B after that. -/
def State.readB (s : State) (L : Nat) (j : Job) : List Nat × State :=
  (s.readA L j).2.readRanges L .matrixB
    (rangesB j.desc (j.kblock * kBlockLen j.desc) (tileCol j.desc j.tile) (kBlockLen j.desc))

/-- The partials of a job's place, from operands that have been read (R81). -/
def State.placePartials (s : State) (L : Nat) (j : Job) (u : CellUpset) : Grid :=
  partials (kBlockLen j.desc) (s.gridA L j.desc j.tile j.kblock j.slices.1) (s.gridB L j.desc j.tile j.kblock j.slices.2) u

/-- What the audit of these partials finds (R95). -/
def State.placeAudit (s : State) (L : Nat) (j : Job) (u : CellUpset) : Option (Nat × Nat × Nat) :=
  auditOf (kBlockLen j.desc) (s.gridA L j.desc j.tile j.kblock j.slices.1) (s.gridB L j.desc j.tile j.kblock j.slices.2)
    (s.placePartials L j u) u

/-- The operands of a job's place are read and its partials enter set `i`. -/
def State.placeEnters (s : State) (L : Nat) (j : Job) (u : CellUpset) (i : Nat) (acc : AccSet) : State :=
  (s.readB L j).2.enterSet L j ((s.readA L j).1 ++ (s.readB L j).1)
    (poisonRows j.desc j.tile (j.kblock * kBlockLen j.desc) (kBlockLen j.desc) (s.readA L j).1 (s.readB L j).1)
    j.slices ((s.readB L j).2.placePartials L j u).at_ i acc

/-- A finding of the audit is recorded (R97). -/
def State.noteAudit (s : State) (L : Nat) (j : Job) : Option (Nat × Nat × Nat) → State
  | some (kind, row, col) => s.auditMismatch L j kind row col false
  | none => s

/-- No partial waits in the block registers, so that none enters first. -/
theorem enterWaiting_none {s : State} {L : Nat} {j : Job} (hj : (s.cl L).matrix.running = some j) (hw : j.waiting = none) :
    s.enterWaiting L = s := by
  simp only [State.enterWaiting, hj, hw]

/-- Where a set takes the partials and neither an upset of the write-back nor an armed injection strikes, the array does
no more than enter them and record what their audit finds. -/
theorem auditResult_claimed {s : State} {L i : Nat} {j : Job} {u : CellUpset} {acc : AccSet}
    (hj : (s.cl L).matrix.running = some j) (hw : j.waiting = none) (hr : s.reachable L = true)
    (quiet : (s.readB L j).2.fon MXC_AUDIT_INJECT.ARM L = false) (hu : ∀ r c, u ≠ .writeback r c)
    (claimed : (s.readB L j).2.claim L j.serial j.tile = some (i, acc)) {f : Option (Nat × Nat × Nat)}
    (found : (s.readB L j).2.placeAudit L j u = f) : s.auditResult L u = (s.placeEnters L j u i acc).noteAudit L j f := by
  rw [← found]
  unfold State.readB State.readA at quiet claimed
  simp only [State.auditResult, hr, if_true, enterWaiting_none hj hw, hj, hw, Option.isSome_none, Bool.not_true, Bool.or_self,
    Bool.false_eq_true, if_false, quiet, claimed]
  cases u
  case writeback r c => exact absurd rfl (hu r c)
  case none => rfl
  case cells l => rfl

/-! ### A full set leaves -/

/-- The C term that a tile reads, where CIN asks for it: the poisoned groups, and the state after (R85). -/
def State.readC (s : State) (L : Nat) (d : List Word) (tile : Nat) : List Nat × State :=
  if descCin d then s.readRanges L .writeBack ((opC d).ranges (tileRow d tile) 64 (tileCol d tile) 64) else ([], s)

/-- The cells of a set with the C term added, and the flags this raises. -/
def State.withC (s : State) (L : Nat) (d : List Word) (acc : AccSet) : NMap Acc × Nat :=
  if descCin d then (s.readC L d acc.tile).2.addC L d (s.readC L d acc.tile).1 acc.tile acc.cells else (acc.cells, 0)

/-- The tile of a set converted: elements, scales, outcomes, generators (R84, R86). -/
def State.convertedTile (s : State) (L : Nat) (j : Job) (acc : AccSet) : NMap Int × List (Nat × Scale) × Outcomes × Gens :=
  convertTile j.desc (s.withC L j.desc acc).1 j.invalid (tileBlocks j.desc acc.tile)
    ((s.readC L j.desc acc.tile).2.cl L).matrix.gen

/-- The blocks of the tile that are found invalid (R84). -/
def State.deadBlocks (s : State) (L : Nat) (j : Job) (acc : AccSet) : List Nat :=
  ((s.convertedTile L j acc).2.1.filter fun x => x.2 == .invalid).map (·.1)

/-- The state once a set is converted: the generators have moved, the job holds the flags and the invalid blocks, and a
residue error of the C addition or of an aligning shift is recorded (R88, R97). -/
def State.afterConversion (s : State) (L : Nat) (j : Job) (acc : AccSet) (residue : Option (Nat × Nat)) : State :=
  let t := (s.readC L j.desc acc.tile).2.updMatrix L fun m => ({ m with gen := (s.convertedTile L j acc).2.2.2 }).setJob
    { j with flags := j.flags ||| (s.withC L j.desc acc).2 ||| (s.convertedTile L j acc).2.2.1.bits
             invalid := j.invalid ++ s.deadBlocks L j acc }
  match residue with
  | some (row, col) => if descCin j.desc || (descConv j.desc).testBit 1 then
      t.auditMismatch L { j with pass := 0, kblock := 0 } 3 row col false else t
  | none => t

/-- Row `x` of the tile is poisoned: by the operands of its cells, or by its C term. -/
def State.poisonedRow (s : State) (L : Nat) (d : List Word) (acc : AccSet) (x : Nat) : Bool :=
  acc.poison.contains x || ((opC d).ranges (tileRow d acc.tile + x) 1 (tileCol d acc.tile) 64).any
    fun e => (groupsOf e.1 e.2).any ((s.readC L d acc.tile).1.contains ·)

/-- The rows of the tile as a stream sends them (R179). -/
def State.streamRows (s : State) (L : Nat) (j : Job) (acc : AccSet) : List (Nat × List Word × List Word × Bool) :=
  (List.range 64).map fun x => (x, rowLanes (s.convertedTile L j acc).1 x,
    rowScales j.desc acc.tile x (s.convertedTile L j acc).2.1, s.poisonedRow L j.desc acc x)

/-- A converted tile leaves set `i` for a destination: the vault, a stream, or else a clearing group (R87). -/
def State.leavesTo (s : State) (L i : Nat) (j : Job) (acc : AccSet) (residue : Option (Nat × Nat)) : Nat → State
  | 0 => (((s.afterConversion L j acc residue).zeroEarlier L j.desc acc.tile
      ((s.deadBlocks L j acc).filter fun k => !j.invalid.contains k)).writeTile L j.desc acc.tile
        (s.convertedTile L j acc).1 (s.convertedTile L j acc).2.1).freeSet L i acc
  | 1 =>
    let r := (s.afterConversion L j acc residue).sendRows L (dfield j.desc 13 31 16) (s.streamRows L j acc)
    if r.1.isEmpty then r.2.freeSet L i acc else r.2.setOutbox L i acc r.1
  | _ => ((s.afterConversion L j acc residue).forEach (List.range 64) fun x t =>
      t.sendClear L (dfield j.desc 13 31 16) (64 * acc.tile + x) 6 (clearScale j.desc (s.convertedTile L j acc).2.1).1
        (clearScale j.desc (s.convertedTile L j acc).2.1).2 (rowLanes (s.convertedTile L j acc).1 x)
        (s.poisonedRow L j.desc acc x)).freeSet L i acc

theorem leavesTo_stream {s : State} {L i : Nat} {j : Job} {acc : AccSet} {residue : Option (Nat × Nat)}
    {rows : List (Nat × List Word × List Word × Bool)} {u : State}
    (sent : (s.afterConversion L j acc residue).sendRows L (dfield j.desc 13 31 16) (s.streamRows L j acc) = (rows, u)) :
    s.leavesTo L i j acc residue 1 = if rows.isEmpty then u.freeSet L i acc else u.setOutbox L i acc rows := by
  unfold State.leavesTo
  rw [sent]
  rfl

/-- A full set that has not begun to leave, and that no earlier tile of its lane holds back (R90), leaves for the
destination of its descriptor. -/
theorem writeBack_due {s : State} {L i dest : Nat} {acc : AccSet} {j : Job} (residue : Option (Nat × Nat))
    (hset : (s.cl L).matrix.sets.getD i none = some acc)
    (hj : ((s.cl L).matrix.jobs.find? fun j => j.serial == acc.job) = some j) (full : acc.full = true)
    (first : acc.outbox = none) (hr : s.reachable L = true) (lane : s.behindInLane L acc (descDest j.desc) = false)
    (hd : descDest j.desc = dest) : s.writeBack L i residue = s.leavesTo L i j acc residue dest := by
  rw [← hd]
  simp only [State.writeBack, hset, hj, full, first, hr, lane, Bool.not_true, Bool.or_self, Bool.false_eq_true, if_false]
  rfl

/-! ### A descriptor completes -/

/-- The last row of a descriptor is out: its completion is written and its outcomes are counted (R100). -/
def State.completes (s : State) (L i : Nat) (j : Job) : State :=
  (s.updMatrix L fun m => { m with
    jobs := m.jobs.eraseIdx i
    reserved := dropTag (descTag j.desc) m.reserved
    done := m.done ++ [completion (descTag j.desc) j.status j.flags] }).countOutcomes L j.flags

/-- An invalid block is reported (R101). -/
def State.reportsInvalid (s : State) (L : Nat) (j : Job) : State :=
  if j.flags.testBit 21 then s.report sevWarning blkMXC 0x10 L (s.owner L) [BitVec.ofNat 32 (descTag j.desc)] else s

/-- The cycles that the descriptor lost are a free value (log entry 7). -/
theorem descriptorComplete_due {s : State} {L i : Nat} {j : Job} (hj : (s.cl L).matrix.jobs[i]? = some j)
    (ended : j.arrayDone = true) (out : j.written = descTiles j.desc) :
    s.descriptorComplete L i = (((s.completes L i j).reportsInvalid L j).take.2.fadd MXC_STALL.CYCLES L
      (Config.cycles ((s.completes L i j).reportsInvalid L j).take.1).toNat).progress L := by
  simp only [State.descriptorComplete, hj, ended, out, decide_true, Bool.and_self, if_true]
  rfl

/-! ### The registers of the array -/

theorem regionOf_mxcCompletionPop (L : Nat) : regionOf .MXC_COMPLETION_POP L = L := Nat.div_one L
theorem regionOf_mxcAuditInject (L : Nat) : regionOf .MXC_AUDIT_INJECT L = L := Nat.div_one L

section
variable {s : State} {L : Nat} (hL : L < 288)
include hL

theorem exec_mxcCompletionPop :
    exec (.mxcCompletionPop L) s = .next (s.writeCl .MXC_COMPLETION_POP L 1 fun s => s.popCompletion L) :=
  onUnit_ok (okCluster_of hL)

theorem exec_mxcAuditInject :
    exec (.mxcAuditInject L) s = .next (s.writeCl .MXC_AUDIT_INJECT L 1 fun s => s.fset MXC_AUDIT_INJECT.ARM L 1) :=
  onUnit_ok (okCluster_of hL)

end

theorem popCompletion_cons {s : State} {L : Nat} {w : Word} {rest : List Word} (h : (s.cl L).matrix.done = w :: rest) :
    s.popCompletion L = (s.updMatrix L fun m => { m with done := rest }).progress L := by
  simp only [State.popCompletion, State.updMatrix, State.updCl, h, List.isEmpty_cons, Bool.false_eq_true, if_false,
    List.drop_succ_cons, List.drop_zero]

theorem endHold_pending {s : State} {L : Nat} {w t : DWord} (h : (s.cl L).auditPending = some (w, t)) :
    s.endHold L = ((s.updCl L fun c => { c with auditHold := false, auditPending := none }).rset .MXC_AUDIT_LAST L w).rset
      .MXC_AUDIT_TALLY L t := by
  simp only [State.endHold, h]

/-! ### The statement -/

/-- Settles O23: each event of the array is due by its premises, and each access reaches its register or waits for the
move. The pass and K-block of a residue error and the order of a lane are the model's choices (log entries 13 and 64), and the
stall count is a free value (log entry 7). -/
theorem matrixWork : Obligations.MatrixWork := by
  unfold Obligations.MatrixWork
  refine ⟨fun s L hL => ?array, fun s L hL => ?registers⟩
  case array =>
    have ok := okCluster_of hL
    refine ⟨fun serial d rest n hq hr hs free hn => ?start, fun j hj hw hr => ?audit,
      fun i acc j residue hf hset hj full first hr lane => ?leave, fun i j hj ended out => ?complete⟩
    case start => exact (onUnit_ok ok).trans (congrArg _ (descriptorStart_due hq hr hs free hn))
    case audit =>
      refine fun quiet i acc u hok hu claimed => ?_
      have due : exec (.auditResult L u) s = .next (s.auditResult L u) := onUnit_ok (by rw [ok, hok]; rfl)
      refine ⟨fun found => ?agrees, fun kind row col found => ?mismatch⟩
      case agrees => rw [due, auditResult_claimed hj hw hr quiet hu claimed found]; rfl
      case mismatch => rw [due, auditResult_claimed hj hw hr quiet hu claimed found]; rfl
    case leave =>
      have due : exec (.accumulatorSetFree L ⟨i, residue⟩) s = .next (s.writeBack L i residue) :=
        onUnit_ok (by rw [ok, hf]; rfl)
      refine ⟨fun dest => ?vault, fun dest rows u sent => ?stream, fun dest => ?clearing⟩
      case vault => rw [due, writeBack_due residue hset hj full first hr lane dest]; rfl
      case stream =>
        rw [due, writeBack_due residue hset hj full first hr lane dest]
        exact congrArg _ (leavesTo_stream sent)
      case clearing => rw [due, writeBack_due residue hset hj full first hr lane dest]; rfl
    case complete => exact (onUnit_ok ok).trans (congrArg _ (descriptorComplete_due hj ended out))
  case registers =>
    have hpop := regionOf_mxcCompletionPop L
    have harm := regionOf_mxcAuditInject L
    refine ⟨fun h hm w rest hd => ?pop, fun h hm => ?arm, fun hb hu hm => ⟨?popWaits, ?armWaits⟩,
      onUnit_ok (okCluster_of hL), ?hold⟩
    case pop => rw [exec_mxcCompletionPop hL, writeCl_reached h (by rwa [hpop]), popCompletion_cons hd]
    case arm => rw [exec_mxcAuditInject hL, writeCl_reached h (by rwa [harm])]
    case popWaits => rw [exec_mxcCompletionPop hL, writeCl_moving hb hu (by rwa [hpop]), hpop]; rfl
    case armWaits => rw [exec_mxcAuditInject hL, writeCl_moving hb hu (by rwa [harm]), harm]; rfl
    case hold =>
      intro c hc w t pending
      rw [← endHold_pending pending]
      rcases hc with rfl | rfl
      case inl => exact onUnit_ok (okCluster_of hL)
      case inr => exact onUnit_ok (okCluster_of hL)

end Sys2Proof.Machine
end

section
/-! PROOFS. Cores and vaults at power-on reset. -/
namespace Sys2Proof.Machine

open Sys2Proof

theorem init_kr {i : Nat} (hi : i ≠ 0) : Core.init.kr i = 0 := by
  have listed : ∀ j < 8, j ≠ 0 → Core.init.kr j = 0 := by decide
  by_cases h : i < 8
  · exact listed i h hi
  · rw [Core.kr, if_neg hi, Array.getD, dif_neg (by simpa using h)]

/-- Settles O4: the reset state lists no cluster, so each reads as `Cluster.init`. -/
theorem resetSound : Obligations.ResetSound := by
  unfold Obligations.ResetSound
  refine ⟨rfl, fun L => rfl, fun L i hi => ?_⟩
  rw [reset_core, init_kr hi]
  rfl

end Sys2Proof.Machine
end

section
/-! PROOFS. Scalar arithmetic, branches and system instructions. -/
namespace Sys2Proof.Machine

open Sys2Proof

/-- Settles O13: ALU alone has a scalar predicate; every other instruction of the family acts as it stands (R110). -/
theorem scalarArithmetic : Obligations.ScalarArithmetic := by
  unfold Obligations.ScalarArithmetic
  intro s who d a b kp imm
  refine ⟨fun fn h => coreRow_next h rfl ?alu, fun h => coreRow_next h rfl rfl, fun h => coreRow_next h rfl rfl,
    fun h => coreRow_next h rfl rfl, fun h => coreRow_next h rfl rfl, fun h => coreRow_next h rfl rfl,
    fun h => coreRow_next h rfl rfl, fun h => coreRow_next h rfl rfl, fun h => coreRow_next h rfl rfl,
    fun fn h => coreRow_next h rfl rfl, fun fn h => coreRow_next h rfl rfl⟩
  cases on : lane ((s.core who.cluster who.core).kr kp) 0
  · simp only [scalar_off on, goesOn, on, Bool.false_eq_true, if_false]; rfl
  · simp only [scalar_on on, goesOn, on, if_true]; rfl

/-- Settles O14: each instruction's effect is its meaning. That FENCE waits for nothing is the model's choice (log entry 10), and
the cycle count is a free value (log entry 7). -/
theorem controlFlow : Obligations.ControlFlow := by
  unfold Obligations.ControlFlow
  refine ⟨fun s who a d off => ?jumps, fun s who v a d m code => ?system⟩
  case jumps =>
    refine ⟨fun h => coreRow_next h rfl rfl, fun h => coreRow_next h rfl ?bnez, fun h => coreRow_next h rfl rfl,
      fun h => coreRow_next h rfl rfl, fun h => coreRow_next h rfl rfl, fun h => coreRow_next h rfl rfl,
      fun h => coreRow_next h rfl rfl, fun h => coreRow_next h rfl rfl⟩
    case bnez => simp only [State.jump, State.updCore, ite_not]; rfl
  case system =>
    refine ⟨fun h idle => coreRow_next h rfl (if_pos idle), fun h busy => coreRow_next h rfl (if_neg busy),
      fun h halted => coreRow_next h rfl (if_pos halted), fun h => coreRow_next h rfl rfl,
      fun h => coreRow_next h rfl rfl, fun h => coreRow_next h rfl rfl, fun h => coreRow_next h rfl rfl⟩

end Sys2Proof.Machine
end

section
/-! PROOFS. Vector cores start, halt and are waited for. -/
namespace Sys2Proof.Machine

open Sys2Proof

/-! ### The cluster of a core that issues -/

theorem placed_of_fetches {s : State} {who : Issue} {i : Insn} (h : Fetches s who i) : (s.cl who.cluster).site.isSome = true := by
  have hi := h.issues
  simp only [State.issues, State.reachable, Bool.and_eq_true] at hi
  exact hi.1.1.1.1.1

theorem cluster_lt_of_fetches {s : State} {who : Issue} {i : Insn} (h : Fetches s who i) : who.cluster < 288 := by
  have hok := h.ok
  simp only [Issue.ok, Bool.and_eq_true] at hok
  exact of_decide_eq_true hok.1.1

/-- A cluster that a site holds reads back after a write of it, in any map of clusters. -/
theorem cl_setCl_placed (s : State) (L : Nat) {k : Cluster} (h : k.site.isSome = true) : (s.setCl L k).cl L = k :=
  cl_setCl_ne s L fun e => by rw [e] at h; cases h

section
variable {s : State} {L : Nat} (h : (s.cl L).site.isSome = true)
include h

theorem cl_setCore_placed (n : Nat) (c : Core) :
    (s.setCore L n c).cl L = { s.cl L with cores := (s.cl L).cores.setIfInBounds n c } := cl_setCl_placed s L h

theorem core_setCore_placed {n : Nat} (c : Core) (hn : n < 3) : (s.setCore L n c).core L n = c := by
  unfold State.core
  rw [cl_setCore_placed h]
  exact (getD_setIfInBounds ..).trans (if_pos ⟨rfl, hn⟩)

theorem core_setCore_placed_other {m n : Nat} (c : Core) (hm : m ≠ n) : (s.setCore L n c).core L m = s.core L m := by
  unfold State.core
  rw [cl_setCore_placed h]
  exact (getD_setIfInBounds ..).trans (if_neg fun e => hm e.1.symm)

theorem placed_setCore (n : Nat) (c : Core) : ((s.setCore L n c).cl L).site.isSome = true := by
  rw [cl_setCore_placed h]; exact h

end

/-! ### VRUN -/

theorem start_gr_shared (c t : Core) (pc : Nat) {i : Nat} (h8 : 8 ≤ i) (h16 : i < 16) : (c.start t pc).gr i = t.gr i := by
  rw [Core.gr, if_neg (by omega)]
  simp [Core.start, Array.getD, h8, h16, show i < 32 by omega]

theorem start_gr_own (c t : Core) (pc : Nat) {i : Nat} (h : i < 8 ∨ 16 ≤ i) : (c.start t pc).gr i = c.gr i := by
  by_cases h0 : i = 0
  · simp [Core.gr, h0]
  rw [Core.gr, if_neg h0]
  by_cases h32 : i < 32
  · have : ¬ (8 ≤ i ∧ i < 16) := by omega
    simp [Core.start, Array.getD, h32, this]
  · simp [Core.gr, h0, Array.getD, h32]

@[simp] theorem start_kr (c t : Core) (pc i : Nat) : (c.start t pc).kr i = c.kr i := by simp [Core.kr, Core.start]
@[simp] theorem start_vr (c t : Core) (pc i : Nat) : (c.start t pc).vr i = c.vr i := by simp [Core.vr, Core.start]
@[simp] theorem start_sr (c t : Core) (pc i : Nat) : (c.start t pc).sr i = c.sr i := by simp [Core.sr, Core.start]

theorem core_eq_zero_of_vrun {s : State} {who : Issue} {v a : Nat} (h : Fetches s who (.vrun v a)) : who.core = 0 := by
  have hk := h.known
  simpa [Insn.wrongCore, Insn.cls, CoreClass.lacks] using hk

theorem unblock_busy {s : State} {L n : Nat} {w : Wait} (hw : (s.core L n).wait = some w) (ha : s.available L w = false) :
    s.unblock L n = s := by
  unfold State.unblock
  split
  next w' _ hw' =>
    obtain rfl : w = w' := Option.some.inj (hw.symm.trans hw')
    rw [ha]; rfl
  next => rfl

/-- The wait of a VRUN for core `v + 1` ends where that core has halted (R105). -/
theorem available_vrun {s : State} {L v : Nat} (hv : v < 2) :
    s.available L (.cores (2 ^ v)) = ((s.core L (v + 1)).run == .idle) := by
  have h1 : Nat.testBit 1 1 = false := rfl
  have h3 : Nat.testBit 2 1 = true := rfl
  obtain rfl | rfl : v = 0 ∨ v = 1 := by omega
  · simp [State.available, Cluster.halted, State.core, h1]
  · simp [State.available, Cluster.halted, State.core, h3]

theorem exec_coreUnblock {s : State} {L n : Nat} (hL : L < 288) (hn : n < 3) :
    exec (.coreUnblock L n) s = .next (s.unblock L n) := onUnit_ok (by rw [okCluster_of hL, okCore_of hn]; rfl)

/-- Settles O10: the started core and the teller are two cores of a cluster that a site holds, so each reads back. -/
theorem vectorCoresStart : Obligations.VectorCoresStart := by
  unfold Obligations.VectorCoresStart
  intro s who v a
  dsimp only
  refine ⟨fun h hv idle => ⟨_, coreRow_next h rfl (if_pos idle), ?started⟩, fun h => ⟨_, coreRow_next h rfl rfl, ?halted⟩,
    fun h hv busy => ⟨_, coreRow_next h rfl (if_neg busy), ?waits⟩⟩
  case started =>
    have placed := placed_of_fetches h
    have teller := core_eq_zero_of_vrun h
    have reads : ∀ c e : Core, ((s.setCore who.cluster (v + 1) c).setCore who.cluster who.core e).core who.cluster (v + 1) = c :=
      fun c e => by
        rw [core_setCore_placed_other (placed_setCore placed _ _) _ (by omega), core_setCore_placed placed _ (by omega)]
    unfold State.retire State.updCore
    rw [reads]
    exact ⟨rfl, rfl, fun i => start_gr_shared _ _ _, fun i => start_gr_own _ _ _, start_kr _ _ _, start_vr _ _ _, start_sr _ _ _⟩
  case halted =>
    unfold State.updCore
    rw [core_setCore_placed (placed_of_fetches h) _ (core_lt_of_fetches h)]
  case waits =>
    have placed := placed_of_fetches h
    have hn := core_lt_of_fetches h
    have hL := cluster_lt_of_fetches h
    have teller := core_eq_zero_of_vrun h
    unfold State.block State.updCore
    have other := core_setCore_placed_other placed
      { s.core who.cluster who.core with run := .blocked, wait := some (.cores (2 ^ v)) } (m := v + 1) (n := who.core) (by omega)
    have own := core_setCore_placed placed
      { s.core who.cluster who.core with run := .blocked, wait := some (.cores (2 ^ v)) } hn
    rw [own, other]
    refine ⟨rfl, rfl, rfl, fun still => ?_, fun u hr hw hi => ?_⟩
    · rw [exec_coreUnblock hL hn, unblock_busy (congrArg Core.wait own)]
      rw [available_vrun hv, other]
      simpa using still
    · have ready : u.available who.cluster (.cores (2 ^ v)) = true := by rw [available_vrun hv, hi]; rfl
      refine ⟨_, (exec_coreUnblock hL hn).trans (congrArg _ (unblock_available hr hw ready)), ?_⟩
      unfold State.core
      rw [cl_setCore_busy _ _ hn (by simp)]
      exact congrArg Core.run ((getD_setIfInBounds ..).trans (if_pos ⟨rfl, hn⟩))

end Sys2Proof.Machine
end

section
/-! PROOFS. Vector arithmetic and reductions. -/
namespace Sys2Proof.Machine

open Sys2Proof

/-- A residue-checked instruction that neither an upset nor an armed injection strikes has the effect of one that is not
checked (R125, R127). -/
theorem residueCheck_quiet {s : State} {who : Issue} (b : Bool) (k : DWord) (f : State → State) (hu : who.upset = .none)
    (quiet : s.fon VEC_RESIDUE_INJECT.ARM (who.cluster * 2 + (who.core - 1)) = false) :
    (if b then s.checked who.cluster who.core k who.upset f else f s) = f s := by
  rw [hu, checked_quiet _ _ quiet, ite_self]

theorem vectorAlu_quiet {s : State} {who : Issue} (fn : AluFn) (d a : Nat) (b : Core → Nat → Word) (kp : Nat)
    (hu : who.upset = .none) (quiet : s.fon VEC_RESIDUE_INJECT.ARM (who.cluster * 2 + (who.core - 1)) = false) :
    s.vectorAlu who fn d a b kp = s.retire who.cluster who.core fun c => c.vectorAlu fn d a (b c) kp :=
  residueCheck_quiet fn.residueChecked _ (fun s => s.retire who.cluster who.core fun c => c.vectorAlu fn d a (b c) kp) hu quiet

theorem exec_red {s : State} {who : Issue} {fn : RedFn} {d a kp : Nat} (h : Fetches s who (.red fn d a kp))
    (quiet : s.fon VEC_RESIDUE_INJECT.ARM (who.cluster * 2 + (who.core - 1)) = false) :
    exec (.red who) s = .next (goesOn s who
      (·.setG d (reduce fn ((s.core who.cluster who.core).selected a kp)))) :=
  coreRow_next h rfl (residueCheck_quiet fn.residueChecked _ (fun s => s.writesG who.cluster who.core d fun c =>
    reduce fn (c.selected a kp)) h.upset quiet)

theorem exec_lut {s : State} {who : Issue} {d a kp bits shift base : Nat} (h : Fetches s who (.lut d a kp bits shift base))
    (fits : 64 * base + 2 ^ bits ≤ 4096) :
    exec (.lut who) s = .next (s.retire who.cluster who.core fun c => c.setLanes d fun l => if lane (c.kr kp) l then
      some (mget (fun _ => 0) c.lut (lutIndex bits shift base (c.vl a l))) else none) := by
  refine coreRow_next h rfl ?_
  rw [if_neg (Nat.not_lt.2 fits), h.upset]
  rfl

/-- Settles O15: without an upset or an armed injection the residue check lets each instruction act (R125, R127). -/
theorem vectorArithmetic : Obligations.VectorArithmetic := by
  unfold Obligations.VectorArithmetic
  intro s who d a b kp
  dsimp only
  exact ⟨fun fn quiet h => coreRow_next h rfl (vectorAlu_quiet fn d a (fun c => c.vl b) kp h.upset quiet),
    fun fn quiet h => coreRow_next h rfl (vectorAlu_quiet fn d a (fun c _ => c.gr b) kp h.upset quiet),
    fun fn h => coreRow_next h rfl rfl, fun fn h => coreRow_next h rfl rfl, fun h => coreRow_next h rfl rfl,
    fun fn quiet h => exec_red h quiet, fun bits shift base h fits => exec_lut h fits⟩

/-! ### What RED gives (R111) -/

theorem toInt_sat32 (v : Int) : (sat32 v).toInt = max (-2 ^ 31) (min (2 ^ 31 - 1) v) := by
  unfold sat32
  split
  case isTrue h => rw [show (0x7FFFFFFF#32).toInt = 2 ^ 31 - 1 from rfl]; omega
  case isFalse h =>
    split
    case isTrue => rw [show (0x80000000#32).toInt = -2 ^ 31 from rfl]; omega
    case isFalse => rw [BitVec.toInt_ofInt_eq_self (by decide) (by omega) (by omega)]; omega

theorem toInt_alu_max (d a b : Word) : (alu .MAX d a b).toInt = max a.toInt b.toInt := by
  unfold alu; dsimp only; split <;> omega

theorem toInt_alu_min (d a b : Word) : (alu .MIN d a b).toInt = min a.toInt b.toInt := by
  unfold alu; dsimp only; split <;> omega

theorem toInt_alu_abs (d a b : Word) : (alu .ABS d a b).toInt = min (a.toInt.natAbs : Int) (2 ^ 31 - 1) := by
  unfold alu; dsimp only; rw [toInt_sat32]; omega

section
variable {op : Word → Word → Word} {val key : Word → Int} (keeps : ∀ m x, val (op m x) = max (val m) (key x))
include keeps

/-- A reduction that keeps the larger of two values gives its start or the key of an element, and no less than either. -/
theorem foldl_larger (xs : List Word) (m : Word) : val m ≤ val (xs.foldl op m)
    ∧ (∀ x ∈ xs, key x ≤ val (xs.foldl op m)) ∧ (val (xs.foldl op m) = val m ∨ ∃ x ∈ xs, val (xs.foldl op m) = key x) := by
  induction xs generalizing m with
  | nil => simp
  | cons y t ih =>
    obtain ⟨start, elems, attained⟩ := ih (op m y)
    rw [keeps] at start attained
    rw [List.foldl_cons]
    refine ⟨by omega, List.forall_mem_cons.2 ⟨by omega, elems⟩, ?_⟩
    rcases attained with h | ⟨x, hx, h⟩
    · rcases max_choice (val m) (key y) with e | e
      · exact .inl (h.trans e)
      · exact .inr ⟨y, List.mem_cons_self, h.trans e⟩
    · exact .inr ⟨x, List.mem_cons_of_mem _ hx, h⟩

/-- Where it starts below every key, a reduction of some elements attains the largest key. -/
theorem foldl_largest {xs : List Word} {m : Word} (hne : xs ≠ []) (below : ∀ x, val m ≤ key x) :
    (∀ x ∈ xs, key x ≤ val (xs.foldl op m)) ∧ ∃ x ∈ xs, val (xs.foldl op m) = key x := by
  obtain ⟨-, elems, attained⟩ := foldl_larger keeps xs m
  refine ⟨elems, attained.elim (fun h => ?_) id⟩
  obtain ⟨x, hx⟩ := List.exists_mem_of_ne_nil xs hne
  exact ⟨x, hx, le_antisymm (h.trans_le (below x)) (elems x hx)⟩

end

theorem reduce_max {xs : List Word} (hne : xs ≠ []) :
    (∀ x ∈ xs, x.toInt ≤ (reduce .MAX xs).toInt) ∧ reduce .MAX xs ∈ xs := by
  obtain ⟨all, x, hx, e⟩ : (∀ x ∈ xs, x.toInt ≤ (reduce .MAX xs).toInt) ∧ ∃ x ∈ xs, (reduce .MAX xs).toInt = x.toInt :=
    foldl_largest (m := 0x80000000#32) (fun m x => toInt_alu_max 0 m x) hne fun x => x.le_toInt
  exact ⟨all, BitVec.eq_of_toInt_eq e ▸ hx⟩

/-- The smaller of two values is the one whose negation is the larger. -/
theorem reduce_min {xs : List Word} (hne : xs ≠ []) :
    (∀ x ∈ xs, (reduce .MIN xs).toInt ≤ x.toInt) ∧ reduce .MIN xs ∈ xs := by
  obtain ⟨all, x, hx, e⟩ : (∀ x ∈ xs, -x.toInt ≤ -(reduce .MIN xs).toInt) ∧ ∃ x ∈ xs, -(reduce .MIN xs).toInt = -x.toInt :=
    foldl_largest (val := fun w => -w.toInt) (m := 0x7FFFFFFF#32)
      (fun m x => by rw [toInt_alu_min 0 m x, ← max_neg_neg]) hne
      (fun x => by have := x.toInt_lt; rw [show (0x7FFFFFFF#32).toInt = 2 ^ 31 - 1 from rfl]; omega)
  exact ⟨fun x hx => Int.neg_le_neg_iff.1 (all x hx), BitVec.eq_of_toInt_eq (Int.neg_inj.1 e) ▸ hx⟩

theorem reduce_maxabs {xs : List Word} (hne : xs ≠ []) :
    (∀ x ∈ xs, min (x.toInt.natAbs : Int) (2 ^ 31 - 1) ≤ (reduce .MAXABS xs).toInt)
      ∧ ∃ x ∈ xs, (reduce .MAXABS xs).toInt = min (x.toInt.natAbs : Int) (2 ^ 31 - 1) :=
  foldl_largest (val := BitVec.toInt) (m := 0) (fun m x => by rw [toInt_alu_max, toInt_alu_abs]) hne
    (fun x => by rw [show (0 : Word).toInt = 0 from rfl]; omega)

theorem setG_gr_same (c : Core) {d : Nat} (w : Word) (h0 : d ≠ 0) (h : d < 32) : (c.setG d w).gr d = w := by
  simp [Core.setG, Core.gr, h0, Array.getD, h]

theorem reduce_adds_perm {xs ys : List Word} (h : xs.Perm ys) : reduce .ADDS xs = reduce .ADDS ys :=
  congrArg sat32 (h.map BitVec.toInt).sum_eq

/-- Settles O11: RED writes the reduction of the selected lanes; a sum does not see their order, and the reductions that keep
one of two values attain the largest, or the smallest, of them. -/
theorem reductions : Obligations.Reductions := by
  unfold Obligations.Reductions
  refine ⟨fun s who fn d a kp quiet h => ⟨_, exec_red h quiet, fun h0 h32 => ?_⟩, rfl, rfl, rfl, rfl, rfl,
    fun xs => ⟨rfl, toInt_sat32 _⟩, fun xs ys => reduce_adds_perm,
    fun xs hne => ⟨reduce_max hne, reduce_min hne, reduce_maxabs hne⟩⟩
  unfold goesOn
  rw [core_setCore_placed (placed_of_fetches h) _ (core_lt_of_fetches h)]
  exact setG_gr_same _ _ h0 h32

end Sys2Proof.Machine
end

section
/-! PROOFS. Stores to a vault, and accesses to the vault of another cluster. -/
namespace Sys2Proof.Machine

open Sys2Proof

/-- Settles O17: the checks of an access pass, and the store is made with its outcome flags. -/
theorem vaultStores : Obligations.VaultStores := by
  unfold Obligations.VaultStores
  intro s who d a kp off
  dsimp only
  refine ⟨fun h on aligned inside => coreRow_next h rfl ?stw, fun fmt f h hf hk aligned inside => coreRow_next h rfl ?vst,
    fun sm16 blk h hb on inside => coreRow_next h rfl ?sst⟩
  case stw =>
    rw [scalar_on on]
    simp only [accessFault_none aligned inside]
    rfl
  case vst =>
    simp only [hf, if_neg hk, accessFault_none aligned inside]
    rfl
  case sst =>
    rw [if_neg hb.ne, scalar_on on]
    simp only [accessFault_none (Nat.mod_one _) inside]
    rfl

/-- Settles O18: the checks of an access pass, and what the mesh answers decides. That the access is one step is the model's
choice (log entry 18), and so is that a store whose answer alone is lost has been made (log entry 79). -/
theorem remoteVault : Obligations.RemoteVault := by
  unfold Obligations.RemoteVault
  intro s who d a b kp fmt f
  dsimp only
  intro hf hk aligned inside same
  have inBounds := accessFault_none aligned inside
  refine ⟨fun h answered hv ok => coreRow_next h rfl ?load, fun h unread => coreRow_next h rfl ?noLoad,
    fun h accepted => coreRow_next h rfl ?store, fun h refused => coreRow_next h rfl ?noStore⟩
  case load =>
    simp only [hf, if_neg hk, inBounds, same, answered, loadRow_sound _ hv ok, Bool.not_true, Bool.not_false,
      Bool.false_eq_true, if_false, if_true]
    rfl
  case noLoad =>
    simp only [hf, if_neg hk, inBounds, same, unread, Bool.not_true, Bool.false_eq_true, if_false]
    unfold State.rowLoaded
    simp [List.getD_eq_getElem?_getD]
    rfl
  case store =>
    simp only [hf, if_neg hk, inBounds, same, accepted, Option.isNone_none, Bool.not_true, Bool.false_eq_true, if_false, if_true]
    rfl
  case noStore =>
    simp only [hf, if_neg hk, inBounds, same, Option.isNone_iff_eq_none, refused, Bool.not_true, Bool.false_eq_true, if_false]
    rfl

end Sys2Proof.Machine
end

section
/-! PROOFS. Tokens sent and received by a core. -/
namespace Sys2Proof.Machine

open Sys2Proof

theorem wouldBlock_frame {s : State} {L n d : Nat} (w : Wait) (placed : (s.cl L).site.isSome = true) (hn : n < 3) :
    (s.wouldBlock L n d w).mesh = s.mesh ∧ (s.wouldBlock L n d w).core L n
      = { ((s.core L n).setG d 1).advance with tryWait := some (w, (s.cl L).progress) } :=
  ⟨rfl, core_setCore_placed placed _ hn⟩

theorem exec_qsend {s : State} {who : Issue} {try_ : Bool} {v sc k g q : Nat} (h : Fetches s who (.qsend try_ v sc k g q)) :
    exec (if try_ then .qsendt who else .qsend who) s = .next (s.qsend who.cluster who.core try_ v sc k g q) := by
  cases try_ <;> exact coreRow_next h rfl rfl

theorem exec_qrecv {s : State} {who : Issue} {try_ : Bool} {v sc k g q : Nat} (h : Fetches s who (.qrecv try_ v sc k g q)) :
    exec (if try_ then .qrecvt who else .qrecv who) s = .next (s.qrecv who.cluster who.core try_ v sc k g q) := by
  cases try_ <;> exact coreRow_next h rfl rfl

section
variable {s : State} {L n v sc k g q : Nat} {e : Endpoint} (declared : s.ep L q = some e)
include declared

theorem qsend_credit (try_ : Bool) (hs : e.send = true) (hk : e.kind ≠ .clear) (hc : e.credits ≠ 0) :
    s.qsend L n try_ v sc k g q = (s.sendToken L q (3 + n) q e ((s.core L n).kr k) ((s.core L n).sr sc).toList
      ((s.core L n).vr v).toList false).retire L n (·.setG g 0) := by
  simp [State.qsend, declared, hs, hk, hc]

theorem qsend_clear (try_ : Bool) (hs : e.send = true) (hk : e.kind = .clear) :
    s.qsend L n try_ v sc k g q = (s.sendClear L e.peer ((s.core L n).gr 4).toNat (3 + n)
      (contributionScale ((s.core L n).sr sc)).1 (contributionScale ((s.core L n).sr sc)).2
      ((List.range 64).map fun i => if lane ((s.core L n).kr k) i then (s.core L n).vl v i else 0) false).retire
        L n (·.setG g 0) := by
  simp [State.qsend, declared, hs, hk]

theorem qsend_noCredit (try_ : Bool) (hs : e.send = true) (hk : e.kind ≠ .clear) (hc : e.credits = 0) :
    s.qsend L n try_ v sc k g q = if try_ then s.wouldBlock L n g (.credit q) else s.block L n (.credit q) := by
  simp [State.qsend, declared, hs, hk, hc]

theorem qrecv_held (try_ : Bool) (hs : e.send = false) {tok : Token} {p : Producer} {rest : List (Token × Producer)}
    (hh : e.held = (tok, p) :: rest) : s.qrecv L n try_ v sc k g q =
      ((((s.slotRead L q e).setEp L q e.shift).returnCredit L q p).progress L).retire L n (·.takeToken v sc k g tok) := by
  simp [State.qrecv, declared, hs, hh]

theorem qrecv_empty (try_ : Bool) (hs : e.send = false) (hh : e.held = []) :
    s.qrecv L n try_ v sc k g q = if try_ then s.wouldBlock L n g (.token q) else s.block L n (.token q) := by
  simp [State.qrecv, declared, hs, hh]

end

/-- Settles O20: what the endpoint has decides, and the try form differs only where it has nothing. -/
theorem tokenInstructions : Obligations.TokenInstructions := by
  unfold Obligations.TokenInstructions
  intro s who try_ v sc k g q e
  dsimp only
  intro declared
  refine ⟨fun h hs hk hc => ?send, fun h hs hk => ?contribute, fun h hs hk hc => ?sendBlocks, fun h hs hk hc => ?sendTries,
    fun h hs tok p rest hh => ?receive, fun h hs hh => ?receiveBlocks, fun h hs hh => ?receiveTries⟩
  case send => rw [exec_qsend h, qsend_credit declared try_ hs hk hc]; rfl
  case contribute => rw [exec_qsend h, qsend_clear declared try_ hs hk]; rfl
  case sendBlocks => exact (exec_qsend h).trans (congrArg _ (qsend_noCredit declared false hs hk hc))
  case sendTries =>
    exact ⟨_, (exec_qsend h).trans (congrArg _ (qsend_noCredit declared true hs hk hc)),
      wouldBlock_frame _ (placed_of_fetches h) (core_lt_of_fetches h)⟩
  case receive => rw [exec_qrecv h, qrecv_held declared try_ hs hh]; rfl
  case receiveBlocks => exact (exec_qrecv h).trans (congrArg _ (qrecv_empty declared false hs hh))
  case receiveTries =>
    exact ⟨_, (exec_qrecv h).trans (congrArg _ (qrecv_empty declared true hs hh)),
      wouldBlock_frame _ (placed_of_fetches h) (core_lt_of_fetches h)⟩

end Sys2Proof.Machine
end

section
/-! PROOFS. The formats of instruction words. -/
namespace Sys2Proof.Machine

open Sys2Proof

/-! ### The fields of a word -/

theorem bitsOf_eq (n hi lo : Nat) : bitsOf n hi lo = n / 2 ^ lo % 2 ^ (hi + 1 - lo) := by
  rw [bitsOf, Nat.shiftRight_eq_div_pow]

theorem bitsOf_lt (n hi lo : Nat) : bitsOf n hi lo < 2 ^ (hi + 1 - lo) := Nat.mod_lt _ (Nat.two_pow_pos _)

/-- The fields of a word of format R (R108). -/
structure FieldsR (n d a b kp fn : Nat) : Prop where
  d : bitsOf n 25 21 = d
  a : bitsOf n 20 16 = a
  b : bitsOf n 15 11 = b
  kp : bitsOf n 10 8 = kp
  fn : bitsOf n 7 0 = fn

/-- Those of format I. -/
structure FieldsI (n d a imm : Nat) : Prop where
  d : bitsOf n 25 21 = d
  a : bitsOf n 20 16 = a
  imm : bitsOf n 15 0 = imm

/-- Those of format M, with the bits that SLD and SST have in place of FMT (R109). -/
structure FieldsM (n d a kp fmt off : Nat) : Prop where
  d : bitsOf n 25 21 = d
  a : bitsOf n 20 16 = a
  kp : bitsOf n 15 13 = kp
  sfmt : bitsOf n 12 12 = fmt / 8
  blk : bitsOf n 11 10 = fmt / 2 % 4
  rest : bitsOf n 9 9 = fmt % 2
  fmt : bitsOf n 12 9 = fmt
  off : bitsOf n 8 0 = off

/-- Those of format B. -/
structure FieldsB (n a off : Nat) : Prop where
  a : bitsOf n 25 21 = a
  off : bitsOf n 20 0 = off

/-- Those of format S, with the bits that BMAX has in place of CONV (R109). -/
structure FieldsS (n vd va sa sd fmt conv blk sm16 : Nat) : Prop where
  vd : bitsOf n 25 22 = vd
  va : bitsOf n 21 18 = va
  sa : bitsOf n 17 15 = sa
  sd : bitsOf n 14 12 = sd
  fmt : bitsOf n 11 8 = fmt
  top : bitsOf n 7 7 = conv / 8
  kp : bitsOf n 6 4 = conv % 8
  conv : bitsOf n 7 4 = conv
  blk : bitsOf n 3 2 = blk
  sm16 : bitsOf n 1 1 = sm16
  rest : bitsOf n 0 0 = 0

/-- Those of format Q. -/
structure FieldsQ (n v s k g queue : Nat) : Prop where
  v : bitsOf n 25 22 = v
  s : bitsOf n 21 19 = s
  k : bitsOf n 18 16 = k
  g : bitsOf n 15 11 = g
  queue : bitsOf n 10 0 = queue

/-- Those of format L. -/
structure FieldsL (n vd va kp bits shift base : Nat) : Prop where
  vd : bitsOf n 25 22 = vd
  va : bitsOf n 21 18 = va
  kp : bitsOf n 17 15 = kp
  bits : bitsOf n 14 11 = bits
  shift : bitsOf n 10 6 = shift
  base : bitsOf n 5 0 = base

/-! ### The format of an opcode -/

def opcodesI : List Nat := [0x02, 0x03, 0x04, 0x05, 0x06, 0x07, 0x08, 0x09, 0x32]
def opcodesM : List Nat := [0x18, 0x19, 0x1A, 0x1B, 0x1C, 0x1D]
def opcodesBSQL : List Nat := [0x20, 0x21, 0x23, 0x28, 0x29, 0x2A, 0x2B, 0x30, 0x31]

/-- A word is decoded by the format of its opcode (R108). -/
theorem decodeInsn_of_opcode {w : Word} {op : Nat} (h : bitsOf w.toNat 31 26 = op) :
    decodeInsn w = if op ∈ opcodesI then decodeI op w.toNat else if op ∈ opcodesM then decodeM op w.toNat
      else if op ∈ opcodesBSQL then decodeBSQL op w.toNat else decodeR op w.toNat := by
  subst h; rfl

section
variable (op : Nat)

theorem decodeInsn_wordR (d a b kp fn : Nat) (format : op < 64 ∧ op ∉ opcodesI ∧ op ∉ opcodesM ∧ op ∉ opcodesBSQL := by decide)
    (hd : d < 32 := by omega) (ha : a < 32 := by omega) (hb : b < 32 := by omega) (hk : kp < 8 := by omega)
    (hf : fn < 256 := by omega) :
    ∃ n, decodeInsn (wordR op d a b kp fn) = decodeR op n ∧ FieldsR n d a b kp fn := by
  obtain ⟨hop, hi, hm, hb⟩ := format
  have hn : (wordR op d a b kp fn).toNat = op * 2 ^ 26 + d * 2 ^ 21 + a * 2 ^ 16 + b * 2 ^ 11 + kp * 2 ^ 8 + fn := by
    rw [wordR, BitVec.toNat_ofNat, Nat.mod_eq_of_lt (by omega)]
  refine ⟨_, (decodeInsn_of_opcode (op := op) ?_).trans (by rw [if_neg hi, if_neg hm, if_neg hb]), ?_, ?_, ?_, ?_, ?_⟩
  all_goals rw [bitsOf_eq, hn]; omega

theorem decodeInsn_wordI (d a imm : Nat) (format : op < 64 ∧ op ∈ opcodesI := by decide) (hd : d < 32 := by omega)
    (ha : a < 32 := by omega) (him : imm < 65536 := by omega) :
    ∃ n, decodeInsn (wordI op d a imm) = decodeI op n ∧ FieldsI n d a imm := by
  obtain ⟨hop, hi⟩ := format
  have hn : (wordI op d a imm).toNat = op * 2 ^ 26 + d * 2 ^ 21 + a * 2 ^ 16 + imm := by
    rw [wordI, BitVec.toNat_ofNat, Nat.mod_eq_of_lt (by omega)]
  refine ⟨_, (decodeInsn_of_opcode (op := op) ?_).trans (if_pos hi), ?_, ?_, ?_⟩
  all_goals rw [bitsOf_eq, hn]; omega

theorem decodeInsn_wordM (d a kp fmt off : Nat) (format : op < 64 ∧ op ∉ opcodesI ∧ op ∈ opcodesM := by decide)
    (hd : d < 32 := by omega) (ha : a < 32 := by omega) (hk : kp < 8 := by omega) (hf : fmt < 16 := by omega)
    (ho : off < 512 := by omega) :
    ∃ n, decodeInsn (wordM op d a kp fmt off) = decodeM op n ∧ FieldsM n d a kp fmt off := by
  obtain ⟨hop, hi, hm⟩ := format
  have hn : (wordM op d a kp fmt off).toNat = op * 2 ^ 26 + d * 2 ^ 21 + a * 2 ^ 16 + kp * 2 ^ 13 + fmt * 2 ^ 9 + off := by
    rw [wordM, BitVec.toNat_ofNat, Nat.mod_eq_of_lt (by omega)]
  refine ⟨_, (decodeInsn_of_opcode (op := op) ?_).trans (by rw [if_neg hi, if_pos hm]), ?_, ?_, ?_, ?_, ?_, ?_, ?_, ?_⟩
  all_goals rw [bitsOf_eq, hn]; omega

theorem decodeInsn_wordB (a off : Nat) (format : op < 64 ∧ op ∉ opcodesI ∧ op ∉ opcodesM ∧ op ∈ opcodesBSQL := by decide)
    (ha : a < 32 := by omega) (ho : off < 2097152 := by omega) :
    ∃ n, decodeInsn (wordB op a off) = decodeBSQL op n ∧ FieldsB n a off := by
  obtain ⟨hop, hi, hm, hb⟩ := format
  have hn : (wordB op a off).toNat = op * 2 ^ 26 + a * 2 ^ 21 + off := by
    rw [wordB, BitVec.toNat_ofNat, Nat.mod_eq_of_lt (by omega)]
  refine ⟨_, (decodeInsn_of_opcode (op := op) ?_).trans (by rw [if_neg hi, if_neg hm, if_pos hb]), ?_, ?_⟩
  all_goals rw [bitsOf_eq, hn]; omega

theorem decodeInsn_wordS (vd va sa sd fmt conv blk sm16 : Nat)
    (format : op < 64 ∧ op ∉ opcodesI ∧ op ∉ opcodesM ∧ op ∈ opcodesBSQL := by decide) (hvd : vd < 16 := by omega)
    (hva : va < 16 := by omega) (hsa : sa < 8 := by omega) (hsd : sd < 8 := by omega) (hf : fmt < 16 := by omega)
    (hc : conv < 16 := by omega) (hb : blk < 4 := by omega) (hs : sm16 < 2 := by omega) :
    ∃ n, decodeInsn (wordS op vd va sa sd fmt conv blk sm16) = decodeBSQL op n ∧ FieldsS n vd va sa sd fmt conv blk sm16 := by
  obtain ⟨hop, hi, hm, hb⟩ := format
  have hn : (wordS op vd va sa sd fmt conv blk sm16).toNat = op * 2 ^ 26 + vd * 2 ^ 22 + va * 2 ^ 18 + sa * 2 ^ 15
      + sd * 2 ^ 12 + fmt * 2 ^ 8 + conv * 2 ^ 4 + blk * 2 ^ 2 + sm16 * 2 := by
    rw [wordS, BitVec.toNat_ofNat, Nat.mod_eq_of_lt (by omega)]
  refine ⟨_, (decodeInsn_of_opcode (op := op) ?_).trans (by rw [if_neg hi, if_neg hm, if_pos hb]),
    ?_, ?_, ?_, ?_, ?_, ?_, ?_, ?_, ?_, ?_, ?_⟩
  all_goals rw [bitsOf_eq, hn]; omega

theorem decodeInsn_wordQ (v s k g queue : Nat) (format : op < 64 ∧ op ∉ opcodesI ∧ op ∉ opcodesM ∧ op ∈ opcodesBSQL := by decide)
    (hv : v < 16 := by omega) (hs : s < 8 := by omega) (hk : k < 8 := by omega) (hg : g < 32 := by omega)
    (hq : queue < 2048 := by omega) :
    ∃ n, decodeInsn (wordQ op v s k g queue) = decodeBSQL op n ∧ FieldsQ n v s k g queue := by
  obtain ⟨hop, hi, hm, hb⟩ := format
  have hn : (wordQ op v s k g queue).toNat = op * 2 ^ 26 + v * 2 ^ 22 + s * 2 ^ 19 + k * 2 ^ 16 + g * 2 ^ 11 + queue := by
    rw [wordQ, BitVec.toNat_ofNat, Nat.mod_eq_of_lt (by omega)]
  refine ⟨_, (decodeInsn_of_opcode (op := op) ?_).trans (by rw [if_neg hi, if_neg hm, if_pos hb]), ?_, ?_, ?_, ?_, ?_⟩
  all_goals rw [bitsOf_eq, hn]; omega

theorem decodeInsn_wordL (vd va kp bits shift base : Nat)
    (format : op < 64 ∧ op ∉ opcodesI ∧ op ∉ opcodesM ∧ op ∈ opcodesBSQL := by decide) (hvd : vd < 16 := by omega)
    (hva : va < 16 := by omega) (hk : kp < 8 := by omega) (hb : bits < 16 := by omega) (hs : shift < 32 := by omega)
    (hba : base < 64 := by omega) :
    ∃ n, decodeInsn (wordL op vd va kp bits shift base) = decodeBSQL op n ∧ FieldsL n vd va kp bits shift base := by
  obtain ⟨hop, hi, hm, hb⟩ := format
  have hn : (wordL op vd va kp bits shift base).toNat = op * 2 ^ 26 + vd * 2 ^ 22 + va * 2 ^ 18 + kp * 2 ^ 15
      + bits * 2 ^ 11 + shift * 2 ^ 6 + base := by
    rw [wordL, BitVec.toNat_ofNat, Nat.mod_eq_of_lt (by omega)]
  refine ⟨_, (decodeInsn_of_opcode (op := op) ?_).trans (by rw [if_neg hi, if_neg hm, if_pos hb]), ?_, ?_, ?_, ?_, ?_, ?_⟩
  all_goals rw [bitsOf_eq, hn]; omega

end

/-! ### Signed fields -/

theorem signedField_lt (w : Nat) (x : Int) : signedField w x < 2 ^ w := by
  have hp : (0 : Int) < (2 ^ w : Nat) := by exact_mod_cast Nat.two_pow_pos w
  have := Int.emod_lt_of_pos x hp
  have := Int.emod_nonneg x hp.ne'
  rw [signedField]
  omega

/-- A field that holds a value of its width, two's complement, gives the value back. -/
theorem sbitsOf_signedField {n hi lo : Nat} {x : Int} (h : bitsOf n hi lo = signedField (hi + 1 - lo) x) (hw : lo ≤ hi)
    (h1 : -(2 ^ (hi + 1 - lo - 1) : Nat) ≤ x) (h2 : x < (2 ^ (hi + 1 - lo - 1) : Nat)) : sbitsOf n hi lo = x := by
  have hp : 2 ^ (hi + 1 - lo) = 2 * 2 ^ (hi + 1 - lo - 1) := by
    rw [← Nat.pow_succ']; congr 1; omega
  simp only [sbitsOf, h, signedField, hp]
  generalize 2 ^ (hi + 1 - lo - 1) = m at h1 h2 ⊢
  by_cases hx : 0 ≤ x
  · rw [Int.emod_eq_of_lt hx (by omega)]
    split <;> omega
  · rw [Int.emod_eq_add_self_emod, Int.emod_eq_of_lt (by omega) (by omega)]
    split <;> omega

theorem sbitsOf_range (n : Nat) {hi lo : Nat} (hw : lo ≤ hi) :
    -(2 ^ (hi + 1 - lo - 1) : Nat) ≤ sbitsOf n hi lo ∧ sbitsOf n hi lo < (2 ^ (hi + 1 - lo - 1) : Nat) := by
  have hp : 2 ^ (hi + 1 - lo) = 2 * 2 ^ (hi + 1 - lo - 1) := by
    rw [← Nat.pow_succ']; congr 1; omega
  have := bitsOf_lt n hi lo
  simp only [sbitsOf]
  rw [hp] at this ⊢
  generalize 2 ^ (hi + 1 - lo - 1) = m at *
  split <;> omega

theorem fitsSigned_iff {n scale : Nat} {x : Int} : fitsSigned n scale x = true ↔
    x % scale = 0 ∧ -(2 ^ (n - 1) : Nat) ≤ x / scale ∧ x / scale < (2 ^ (n - 1) : Nat) := by
  simp only [fitsSigned, Bool.and_eq_true, decide_eq_true_eq, and_assoc]

/-- An offset scaled by the access reads back from its field (R108). -/
theorem scaled_sbitsOf {n hi lo scale : Nat} {x : Int} (h : bitsOf n hi lo = signedField (hi + 1 - lo) (x / scale)) (hw : lo ≤ hi)
    (hf : fitsSigned (hi + 1 - lo) scale x = true) : sbitsOf n hi lo * scale = x := by
  obtain ⟨h0, h1, h2⟩ := fitsSigned_iff.1 hf
  rw [sbitsOf_signedField h hw h1 h2]
  exact Int.ediv_mul_cancel (Int.dvd_of_emod_eq_zero h0)

theorem fitsSigned_sbitsOf (n : Nat) {hi lo scale : Nat} (hw : lo ≤ hi) (hs : scale ≠ 0) :
    fitsSigned (hi + 1 - lo) scale (sbitsOf n hi lo * scale) = true := by
  obtain ⟨h1, h2⟩ := sbitsOf_range n hw
  rw [fitsSigned_iff, Int.mul_emod_left, Int.mul_ediv_cancel _ (by exact_mod_cast hs)]
  exact ⟨rfl, h1, h2⟩

theorem plain_sbitsOf {n hi lo : Nat} {x : Int} (h : bitsOf n hi lo = signedField (hi + 1 - lo) x) (hw : lo ≤ hi)
    (hf : fitsSigned (hi + 1 - lo) 1 x = true) : sbitsOf n hi lo = x := by
  have := scaled_sbitsOf (scale := 1) (x := x) (by simpa using h) hw hf
  simpa using this

theorem fitsSigned_plain (n : Nat) {hi lo : Nat} (hw : lo ≤ hi) : fitsSigned (hi + 1 - lo) 1 (sbitsOf n hi lo) = true := by
  have := fitsSigned_sbitsOf n hw (scale := 1) (by decide)
  simpa using this

@[simp] theorem aluFn_ofCode_code (f : AluFn) : AluFn.ofCode f.code = some f := by cases f <;> rfl
@[simp] theorem cmpFn_ofCode_code (f : CmpFn) : CmpFn.ofCode f.code = some f := by cases f <;> rfl
@[simp] theorem kopFn_ofCode_code (f : KopFn) : KopFn.ofCode f.code = some f := by cases f <;> rfl
@[simp] theorem redFn_ofCode_code (f : RedFn) : RedFn.ofCode f.code = some f := by cases f <;> rfl
theorem aluFn_code_lt (f : AluFn) : f.code < 256 := by cases f <;> decide
theorem cmpFn_code_lt (f : CmpFn) : f.code < 256 := by cases f <;> decide
theorem kopFn_code_lt (f : KopFn) : f.code < 256 := by cases f <;> decide
theorem redFn_code_lt (f : RedFn) : f.code < 256 := by cases f <;> decide

theorem ofInt_sbitsOf {n hi lo : Nat} {imm : Word} (h : bitsOf n hi lo = signedField (hi + 1 - lo) imm.toInt) (hw : lo ≤ hi)
    (hf : fitsSigned (hi + 1 - lo) 1 imm.toInt = true) : BitVec.ofInt 32 (sbitsOf n hi lo) = imm := by
  rw [plain_sbitsOf h hw hf, BitVec.ofInt_toInt]

/-- The upper half of a word whose lower half is 0 gives the word back (LUI). -/
theorem upper_shift {imm : Word} (h : imm.toNat % 2 ^ 16 = 0) : BitVec.ofNat 32 (imm.toNat / 2 ^ 16) <<< 16 = imm := by
  apply BitVec.eq_of_toNat_eq
  have := imm.isLt
  rw [BitVec.toNat_shiftLeft, BitVec.toNat_ofNat, Nat.shiftLeft_eq]
  omega

/-- Every instruction whose fields fit is read back from its word. -/
theorem decodeInsn_encodeInsn {i : Insn} (h : i.encodable = true) : decodeInsn (encodeInsn i) = some i := by
  cases i <;> simp only [Insn.encodable, Bool.and_eq_true, decide_eq_true_eq, beq_iff_eq, bne_iff_ne] at h
  case alu f d a b kp =>
    obtain ⟨n, e, w⟩ := decodeInsn_wordR 0x01 d a b kp f.code (hf := aluFn_code_lt f)
    exact e.trans (by simp [decodeR, w.d, w.a, w.b, w.kp, w.fn, h])
  case addi d a imm =>
    obtain ⟨⟨hd, ha⟩, hi⟩ := h
    obtain ⟨n, e, w⟩ := decodeInsn_wordI 0x02 d a (signedField 16 imm.toInt) (him := signedField_lt 16 _)
    exact e.trans (by simp [decodeI, w.d, w.a, ofInt_sbitsOf w.imm (by decide) hi])
  case andi d a imm =>
    obtain ⟨n, e, w⟩ := decodeInsn_wordI 0x03 d a imm.toNat
    exact e.trans (by simp [decodeI, w.d, w.a, w.imm])
  case ori d a imm =>
    obtain ⟨n, e, w⟩ := decodeInsn_wordI 0x04 d a imm.toNat
    exact e.trans (by simp [decodeI, w.d, w.a, w.imm])
  case xori d a imm =>
    obtain ⟨n, e, w⟩ := decodeInsn_wordI 0x05 d a imm.toNat
    exact e.trans (by simp [decodeI, w.d, w.a, w.imm])
  case lui d imm =>
    obtain ⟨hd, hi⟩ := h
    obtain ⟨n, e, w⟩ := decodeInsn_wordI 0x06 d 0 (imm.toNat / 2 ^ 16) (him := by have := imm.isLt; omega)
    exact e.trans (by simp only [decodeI, w.d, w.a, w.imm, upper_shift hi, if_true])
  case shli d a sh =>
    obtain ⟨n, e, w⟩ := decodeInsn_wordI 0x07 d a sh
    exact e.trans (by simp [decodeI, w.d, w.a, w.imm, h])
  case shri d a sh =>
    obtain ⟨n, e, w⟩ := decodeInsn_wordI 0x08 d a sh
    exact e.trans (by simp [decodeI, w.d, w.a, w.imm, h])
  case srai d a sh =>
    obtain ⟨n, e, w⟩ := decodeInsn_wordI 0x09 d a sh
    exact e.trans (by simp [decodeI, w.d, w.a, w.imm, h])
  case cmp f d a b =>
    obtain ⟨n, e, w⟩ := decodeInsn_wordR 0x0A d a b 0 f.code (hf := cmpFn_code_lt f)
    exact e.trans (by simp [decodeR, idx3, w.d, w.a, w.b, w.fn, h])
  case kop f d a b =>
    have bounds : d < 32 ∧ a < 32 ∧ b < 32 := by
      cases f <;> simp only [Bool.and_eq_true, decide_eq_true_eq] at h <;> omega
    obtain ⟨n, e, w⟩ := decodeInsn_wordR 0x0B d a b 0 f.code (hf := kopFn_code_lt f)
    refine e.trans ?_
    cases f <;> simp only [Bool.and_eq_true, decide_eq_true_eq] at h <;>
      simp [decodeR, KopFn.ofCode, KopFn.code, idx3, w.d, w.a, w.b, w.fn, h]
  case vv f d a b kp =>
    obtain ⟨n, e, w⟩ := decodeInsn_wordR 0x10 d a b kp f.code (hf := aluFn_code_lt f)
    exact e.trans (by simp [decodeR, idx4, w.d, w.a, w.b, w.kp, w.fn, h])
  case vs f d a b kp =>
    obtain ⟨n, e, w⟩ := decodeInsn_wordR 0x11 d a b kp f.code (hf := aluFn_code_lt f)
    exact e.trans (by simp [decodeR, idx4, w.d, w.a, w.b, w.kp, w.fn, h])
  case vcmp f d a b =>
    obtain ⟨n, e, w⟩ := decodeInsn_wordR 0x12 d a b 0 f.code (hf := cmpFn_code_lt f)
    exact e.trans (by simp [decodeR, idx3, idx4, w.d, w.a, w.b, w.fn, h])
  case vcmps f d a b =>
    obtain ⟨n, e, w⟩ := decodeInsn_wordR 0x13 d a b 0 f.code (hf := cmpFn_code_lt f)
    exact e.trans (by simp [decodeR, idx3, idx4, w.d, w.a, w.b, w.fn, h])
  case sel d a b kp =>
    obtain ⟨n, e, w⟩ := decodeInsn_wordR 0x14 d a b kp 0
    exact e.trans (by simp [decodeR, idx4, w.d, w.a, w.b, w.kp, w.fn, h])
  case red f d a kp =>
    obtain ⟨n, e, w⟩ := decodeInsn_wordR 0x15 d a 0 kp f.code (hf := redFn_code_lt f)
    exact e.trans (by simp [decodeR, idx4, w.d, w.a, w.kp, w.fn, h])
  case ldw d a kp off =>
    obtain ⟨⟨⟨hd, ha⟩, hk⟩, ho⟩ := h
    obtain ⟨n, e, w⟩ := decodeInsn_wordM 0x18 d a kp 0 (signedField 9 (off / 4)) (ho := signedField_lt 9 _)
    exact e.trans (by simp [decodeM, w.d, w.a, w.kp, w.fmt, ← scaled_sbitsOf w.off (by decide) ho])
  case stw d a kp off =>
    obtain ⟨⟨⟨hd, ha⟩, hk⟩, ho⟩ := h
    obtain ⟨n, e, w⟩ := decodeInsn_wordM 0x19 d a kp 0 (signedField 9 (off / 4)) (ho := signedField_lt 9 _)
    exact e.trans (by simp [decodeM, w.d, w.a, w.kp, w.fmt, ← scaled_sbitsOf w.off (by decide) ho])
  case vld d a kp fmt off =>
    obtain ⟨⟨⟨⟨hd, ha⟩, hk⟩, hf⟩, ho⟩ := h
    obtain ⟨n, e, w⟩ := decodeInsn_wordM 0x1A d a kp fmt (signedField 9 (off / 16)) (ho := signedField_lt 9 _)
    exact e.trans (by simp [decodeM, idx4, hd, w.d, w.a, w.kp, w.fmt, ← scaled_sbitsOf w.off (by decide) ho])
  case vst d a kp fmt off =>
    obtain ⟨⟨⟨⟨hd, ha⟩, hk⟩, hf⟩, ho⟩ := h
    obtain ⟨n, e, w⟩ := decodeInsn_wordM 0x1B d a kp fmt (signedField 9 (off / 16)) (ho := signedField_lt 9 _)
    exact e.trans (by simp [decodeM, idx4, hd, w.d, w.a, w.kp, w.fmt, ← scaled_sbitsOf w.off (by decide) ho])
  case sld d a kp sm16 blk off =>
    obtain ⟨⟨⟨⟨hd, ha⟩, hk⟩, hb⟩, ho⟩ := h
    obtain ⟨n, e, w⟩ := decodeInsn_wordM 0x1C d a kp (8 * sm16.toNat + 2 * blk) (signedField 9 off)
      (hf := by have := sm16.toNat_lt; omega) (ho := signedField_lt 9 _)
    have hs : (8 * sm16.toNat + 2 * blk) / 8 = sm16.toNat ∧ (8 * sm16.toNat + 2 * blk) / 2 % 4 = blk
        ∧ (8 * sm16.toNat + 2 * blk) % 2 = 0 := by omega
    exact e.trans (by simp [decodeM, idx3, hd, w.d, w.a, w.kp, w.sfmt, w.blk, w.rest, hs, plain_sbitsOf w.off (by decide) ho])
  case sst d a kp sm16 blk off =>
    obtain ⟨⟨⟨⟨hd, ha⟩, hk⟩, hb⟩, ho⟩ := h
    obtain ⟨n, e, w⟩ := decodeInsn_wordM 0x1D d a kp (8 * sm16.toNat + 2 * blk) (signedField 9 off)
      (hf := by have := sm16.toNat_lt; omega) (ho := signedField_lt 9 _)
    have hs : (8 * sm16.toNat + 2 * blk) / 8 = sm16.toNat ∧ (8 * sm16.toNat + 2 * blk) / 2 % 4 = blk
        ∧ (8 * sm16.toNat + 2 * blk) % 2 = 0 := by omega
    exact e.trans (by simp [decodeM, idx3, hd, w.d, w.a, w.kp, w.sfmt, w.blk, w.rest, hs, plain_sbitsOf w.off (by decide) ho])
  case vldr d a b kp fmt =>
    obtain ⟨n, e, w⟩ := decodeInsn_wordR 0x1E d a b kp fmt
    exact e.trans (by simp [decodeR, idx4, w.d, w.a, w.b, w.kp, w.fn, h])
  case vstr d a b kp fmt =>
    obtain ⟨n, e, w⟩ := decodeInsn_wordR 0x1F d a b kp fmt
    exact e.trans (by simp [decodeR, idx4, w.d, w.a, w.b, w.kp, w.fn, h])
  case bmax va sa sd fmt kp blk sm16 =>
    obtain ⟨n, e, w⟩ := decodeInsn_wordS 0x20 0 va sa sd fmt kp blk sm16.toNat (hs := sm16.toNat_lt)
    have hk : kp / 8 = 0 ∧ kp % 8 = kp := by omega
    exact e.trans (by simp [decodeBSQL, w.va, w.sa, w.sd, w.fmt, w.top, w.kp, w.blk, w.sm16, w.rest, hk])
  case rescale vd va sa sd fmt conv blk sm16 =>
    obtain ⟨n, e, w⟩ := decodeInsn_wordS 0x21 vd va sa sd fmt conv blk sm16.toNat (hs := sm16.toNat_lt)
    exact e.trans (by simp [decodeBSQL, w.vd, w.va, w.sa, w.sd, w.fmt, w.conv, w.blk, w.sm16, w.rest])
  case smul d a b kp =>
    obtain ⟨n, e, w⟩ := decodeInsn_wordR 0x22 d a b kp 0
    exact e.trans (by simp [decodeR, idx3, w.d, w.a, w.b, w.kp, w.fn, h])
  case smov d a kp =>
    obtain ⟨n, e, w⟩ := decodeInsn_wordR 0x22 d a 0 kp 1
    exact e.trans (by simp [decodeR, idx3, w.d, w.a, w.kp, w.fn, h])
  case sshift d a b kp =>
    obtain ⟨n, e, w⟩ := decodeInsn_wordR 0x22 d a b kp 2
    exact e.trans (by simp [decodeR, idx3, w.d, w.a, w.b, w.kp, w.fn, h])
  case sget d a x kp =>
    obtain ⟨n, e, w⟩ := decodeInsn_wordR 0x22 d a x kp 3
    exact e.trans (by simp [decodeR, idx3, w.d, w.a, w.b, w.kp, w.fn, h, Nat.mod_eq_of_lt])
  case sput d a mask kp =>
    obtain ⟨n, e, w⟩ := decodeInsn_wordR 0x22 d a mask kp 4
    exact e.trans (by simp [decodeR, idx3, w.d, w.a, w.b, w.kp, w.fn, h, Nat.mod_eq_of_lt])
  case smaxe d a b kp =>
    obtain ⟨n, e, w⟩ := decodeInsn_wordR 0x22 d a b kp 5
    exact e.trans (by simp [decodeR, idx3, w.d, w.a, w.b, w.kp, w.fn, h])
  case lut vd va kp bits shift base =>
    obtain ⟨n, e, w⟩ := decodeInsn_wordL 0x23 vd va kp bits shift base
    exact e.trans (by simp [decodeBSQL, w.vd, w.va, w.kp, w.bits, w.shift, w.base, h])
  case qsend t v s k g q =>
    cases t
    case false =>
      obtain ⟨n, e, w⟩ := decodeInsn_wordQ 0x28 v s k g q
      exact e.trans (by simp [decodeBSQL, w.v, w.s, w.k, w.g, w.queue])
    case true =>
      obtain ⟨n, e, w⟩ := decodeInsn_wordQ 0x2A v s k g q
      exact e.trans (by simp [decodeBSQL, w.v, w.s, w.k, w.g, w.queue])
  case qrecv t v s k g q =>
    cases t
    case false =>
      obtain ⟨n, e, w⟩ := decodeInsn_wordQ 0x29 v s k g q
      exact e.trans (by simp [decodeBSQL, w.v, w.s, w.k, w.g, w.queue])
    case true =>
      obtain ⟨n, e, w⟩ := decodeInsn_wordQ 0x2B v s k g q
      exact e.trans (by simp [decodeBSQL, w.v, w.s, w.k, w.g, w.queue])
  case msend t d a b kp =>
    obtain ⟨n, e, w⟩ := decodeInsn_wordR 0x2C d a b kp t.toNat (hf := by have := t.toNat_lt; omega)
    exact e.trans (by cases t <;> simp [decodeR, w.d, w.a, w.b, w.kp, w.fn])
  case dmaq t d a b kp =>
    obtain ⟨n, e, w⟩ := decodeInsn_wordR 0x2C d a b kp (2 + t.toNat) (hf := by have := t.toNat_lt; omega)
    exact e.trans (by cases t <;> simp [decodeR, w.d, w.a, w.b, w.kp, w.fn])
  case dmapop t d b kp =>
    obtain ⟨n, e, w⟩ := decodeInsn_wordR 0x2C d 0 b kp (4 + t.toNat) (hf := by have := t.toNat_lt; omega)
    exact e.trans (by cases t <;> simp [decodeR, w.d, w.b, w.kp, w.fn])
  case mxi t d a kp =>
    obtain ⟨n, e, w⟩ := decodeInsn_wordR 0x2D d a 0 kp t.toNat (hf := by have := t.toNat_lt; omega)
    exact e.trans (by cases t <;> simp [decodeR, w.d, w.a, w.kp, w.fn])
  case mxpop t d b kp =>
    obtain ⟨n, e, w⟩ := decodeInsn_wordR 0x2D d 0 b kp (2 + t.toNat) (hf := by have := t.toNat_lt; omega)
    exact e.trans (by cases t <;> simp [decodeR, w.d, w.b, w.kp, w.fn])
  case beqz a off =>
    obtain ⟨ha, ho⟩ := h
    obtain ⟨n, e, w⟩ := decodeInsn_wordB 0x30 a (signedField 21 off) (ho := signedField_lt 21 _)
    exact e.trans (by simp [decodeBSQL, w.a, plain_sbitsOf w.off (by decide) ho])
  case bnez a off =>
    obtain ⟨ha, ho⟩ := h
    obtain ⟨n, e, w⟩ := decodeInsn_wordB 0x31 a (signedField 21 off) (ho := signedField_lt 21 _)
    exact e.trans (by simp [decodeBSQL, w.a, plain_sbitsOf w.off (by decide) ho])
  case jal d off =>
    obtain ⟨hd, ho⟩ := h
    obtain ⟨n, e, w⟩ := decodeInsn_wordI 0x32 d 0 (signedField 16 off) (him := signedField_lt 16 _)
    exact e.trans (by simp [decodeI, w.d, w.a, plain_sbitsOf w.imm (by decide) ho])
  case jr a =>
    obtain ⟨n, e, w⟩ := decodeInsn_wordR 0x33 0 a 0 0 0
    exact e.trans (by simp [decodeR, w.a, w.b, w.kp, w.fn])
  case nop | halt | wft | fence => decide
  case vrun v a =>
    obtain ⟨n, e, w⟩ := decodeInsn_wordR 0x38 0 a v 0 3
    exact e.trans (by simp [decodeR, w.a, w.b, w.fn, h, Nat.mod_eq_of_lt])
  case vwait m =>
    obtain ⟨n, e, w⟩ := decodeInsn_wordR 0x38 0 0 m 0 4
    exact e.trans (by simp [decodeR, w.b, w.fn, h, Nat.mod_eq_of_lt])
  case trap code =>
    obtain ⟨n, e, w⟩ := decodeInsn_wordR 0x38 0 0 code 0 6
    exact e.trans (by simp [decodeR, w.b, w.fn])
  case rdsr d b =>
    obtain ⟨n, e, w⟩ := decodeInsn_wordR 0x38 d 0 b 0 7
    exact e.trans (by simp [decodeR, w.d, w.b, w.fn, h])

/-! ### The fields of a decoded word fit -/

theorem idx3_eq_some {n m : Nat} : idx3 n = some m ↔ n < 8 ∧ n = m := by
  unfold idx3; split <;> simp [*]

theorem idx4_eq_some {n m : Nat} : idx4 n = some m ↔ n < 16 ∧ n = m := by
  unfold idx4; split <;> simp [*]

/-- The instruction that a word decodes to, if it decodes, fits its word. -/
def Fits (o : Option Insn) : Prop := ∀ i, o = some i → i.encodable = true

@[simp] theorem fits_none : Fits none := by simp [Fits]

@[simp] theorem fits_some (i : Insn) : Fits (some i) ↔ i.encodable = true := by simp [Fits]

@[simp] theorem fits_bind {α : Type} {o : Option α} {f : α → Option Insn} : Fits (o.bind f) ↔ ∀ a, o = some a → Fits (f a) := by
  cases o <;> simp

@[simp] theorem fits_ite {p : Prop} [Decidable p] {x y : Option Insn} :
    Fits (if p then x else y) ↔ (p → Fits x) ∧ (¬p → Fits y) := by
  split <;> simp [*]

theorem field_lt {n hi lo m : Nat} (h : 2 ^ (hi + 1 - lo) ≤ m) : bitsOf n hi lo < m := (bitsOf_lt ..).trans_le h

theorem fits_decodeR (op n : Nat) : Fits (decodeR op n) := by
  unfold decodeR
  dsimp only
  split
  case h_3 =>
    simp only [Option.bind_eq_bind, fits_bind]
    intro f _
    cases f <;> simp +contextual [idx3_eq_some, Insn.encodable, field_lt]
  case h_12 | h_13 | h_14 => split <;> simp +contextual [idx3_eq_some, Insn.encodable, field_lt, Nat.mod_lt]
  case h_16 =>
    have unit : bitsOf n 15 11 % 2 ≤ 1 := by omega
    split <;> simp +contextual [Insn.encodable, field_lt, Nat.mod_lt, unit]
  all_goals simp +contextual [idx3_eq_some, idx4_eq_some, Insn.encodable, field_lt]

theorem fitsSigned_sext {n : Nat} : fitsSigned 16 1 (BitVec.ofInt 32 (sbitsOf n 15 0)).toInt = true := by
  obtain ⟨h1, h2⟩ := sbitsOf_range n (hi := 15) (lo := 0) (by decide)
  rw [BitVec.toInt_ofInt, Int.bmod_eq_of_le (by omega) (by omega)]
  exact fitsSigned_plain n (by decide)

theorem upper_fits (x : Word) : (x <<< 16).toNat % 2 ^ 16 = 0 := by
  rw [BitVec.toNat_shiftLeft, Nat.shiftLeft_eq]
  omega

theorem fits_decodeI (op n : Nat) : Fits (decodeI op n) := by
  have imm : (BitVec.ofNat 32 (bitsOf n 15 0)).toNat < 2 ^ 16 := by
    rw [BitVec.toNat_ofNat]
    exact (Nat.mod_le ..).trans_lt (field_lt (by decide))
  have off : fitsSigned 16 1 (sbitsOf n 15 0) = true := fitsSigned_plain n (by decide)
  unfold decodeI
  dsimp only
  split
  case h_2 | h_3 | h_4 =>
    simpa only [fits_some, Insn.encodable, Bool.and_eq_true, decide_eq_true_eq] using
      ⟨⟨field_lt (by decide), field_lt (by decide)⟩, imm⟩
  case h_10 => exact fits_none
  all_goals
    simp only [fits_ite, fits_some, Insn.encodable, fitsSigned_sext, upper_fits]
    simp [field_lt, off]

theorem fits_decodeM (op n : Nat) : Fits (decodeM op n) := by
  have off4 : fitsSigned 9 4 (sbitsOf n 8 0 * 4) = true := fitsSigned_sbitsOf n (by decide) (by decide)
  have off16 : fitsSigned 9 16 (sbitsOf n 8 0 * 16) = true := fitsSigned_sbitsOf n (by decide) (by decide)
  have off : fitsSigned 9 1 (sbitsOf n 8 0) = true := fitsSigned_plain n (by decide)
  unfold decodeM
  dsimp only
  split <;> simp +contextual [idx3_eq_some, idx4_eq_some, Insn.encodable, field_lt, off4, off16, off]

theorem fits_decodeBSQL (op n : Nat) : Fits (decodeBSQL op n) := by
  have off : fitsSigned 21 1 (sbitsOf n 20 0) = true := fitsSigned_plain n (by decide)
  unfold decodeBSQL
  dsimp only
  split <;> simp +contextual [Insn.encodable, field_lt, off]

/-- Every word that has a decoding gives an instruction whose fields fit. -/
theorem fits_decodeInsn (w : Word) : Fits (decodeInsn w) := by
  rw [decodeInsn_of_opcode rfl]
  split
  · exact fits_decodeI _ _
  · split
    · exact fits_decodeM _ _
    · split
      · exact fits_decodeBSQL _ _
      · exact fits_decodeR _ _

/-- Settles O7: format by format, each field of a written word is read back, and each field read fits. -/
theorem coreWordsRoundTrip : Obligations.CoreWordsRoundTrip := by
  unfold Obligations.CoreWordsRoundTrip
  exact ⟨fun _ h => decodeInsn_encodeInsn h, fun w i h => fits_decodeInsn w i h⟩

/-- Settles O6: fixed words, evaluated. -/
theorem writtenWords : Obligations.WrittenWords := by
  unfold Obligations.WrittenWords
  refine ⟨?_, ?_, ?_, ?_, ?_, ?_, ?_, ?_, ?_, ?_, ?_, ?_⟩ <;> decide

end Sys2Proof.Machine
end

section
/-! PROOFS. Messages between clusters, tokens, and contexts between folios. -/
namespace Sys2Proof.Machine

open Sys2Proof

/-! ### Messages between clusters -/

/-- A core that waits for an answer keeps its wait where its cluster's cores stay: its cluster is not as at reset. -/
theorem wait_updCl {s : State} {L n : Nat} {f : Cluster → Cluster} (hf : (f (s.cl L)).cores = (s.cl L).cores)
    (h : (s.core L n).wait = some .answer) : ((s.updCl L f).core L n).wait = some .answer := by
  have kept : ((f (s.cl L)).cores.toArray.getD n Core.init).wait = some .answer := by rw [hf]; exact h
  have listed : f (s.cl L) ≠ Cluster.init := fun e => by rw [e, init_core] at kept; cases kept
  rw [State.core, State.updCl, cl_setCl_ne s L listed, kept]

theorem wait_setSend {s : State} {L n : Nat} (m : Nat) (x : Option Send) (h : (s.core L n).wait = some .answer) :
    ((s.setSend L m x).core L n).wait = some .answer := wait_updCl rfl h

theorem wait_progress {s : State} {L n : Nat} (h : (s.core L n).wait = some .answer) :
    ((s.progress L).core L n).wait = some .answer := wait_updCl rfl h

theorem wait_countAnswer {s : State} {L n : Nat} (status : Nat) (m : List Byte) (h : (s.core L n).wait = some .answer) :
    ((s.countAnswer L status m).core L n).wait = some .answer := by
  unfold State.countAnswer
  split
  · exact wait_progress h
  · split
    · exact h
    · split <;> exact h

theorem okRing_of {n : Nat} (h : n < 4096) : okRing n = true := decide_eq_true h

/-- The packet of an arrived message gives it to the message unit. -/
theorem exec_messageReceive {s : State} {i : Nat} {p : Packet} {m : List Byte} {R r L u : Nat} (hp : s.mesh.packets[i]? = some p)
    (hl : s.landed p = true) (ht : p.type = .MSG) (hd : p.dst = .cluster R r) (hs : p.src = .cluster L u)
    (hm : p.payload = .bytes m) : exec (.messageReceive i) s = .next (s.takeMsg i p R L (u - 3) m) := by
  have e : s.receiveMsg i = s.takeMsg i p R L (u - 3) m := by
    simp only [State.receiveMsg, hp, hl, ht, hd, hs, hm, Bool.not_true, Bool.false_eq_true, if_false]
  rw [← e]; rfl

theorem takeAnswer_waiting {s : State} {L n : Nat} {x : Send} {status epoch : Nat} (hx : s.sendOf L n = some x)
    (ha : x.answer = some (status, epoch)) (hw : (s.core L n).wait = some .answer) :
    s.takeAnswer L n = let u := (s.setSend L n none).countAnswer L status x.msg
      u.updCore L n fun c =>
        { ((c.setG x.d (BitVec.ofNat 32 status)).setG x.b (BitVec.ofNat 32 epoch)).advance with
          tryWait := if status = stWouldBlock then some (u.refusedBy L x.msg, (s.cl L).progress) else c.tryWait } := by
  have hw' := wait_countAnswer status x.msg (wait_setSend n none hw)
  simp only [State.takeAnswer, hx, ha]
  rw [if_neg (not_not_intro hw')]

theorem retryMsg_moved {s : State} {L n cx : Nat} {x : Send} {g : RingRec} (hx : s.sendOf L n = some x) (hh : x.held = true)
    (ho : s.owner L = some cx) (hg : s.ringRec cx (msgDest x.msg) = some g) (hm : s.ringMark g.cluster g.region ≠ x.heldAt) :
    s.retryMsg L n = (s.setSend L n (some { x with held := false })).injectMsg L n cx x.msg := by
  simp only [State.retryMsg, hx, ho, hg, hh, Bool.true_and, bne_iff_ne, ne_eq, hm, not_false_eq_true, if_true]

/-- Settles O25: each event at a message unit acts as its packet, or its send, stands. That a message is placed in one step is the
model's choice (log entry 22), a ring command waits for step 5 (log entry 23), and gB is written after gD (log entry 79). -/
theorem clusterMessages : Obligations.ClusterMessages := by
  unfold Obligations.ClusterMessages
  refine fun s => ⟨?mailbox, ?ring, ?answer, ?retry, ?command⟩
  case mailbox =>
    intro i p m R r L u hp hl ht hd hs hm fit box
    rw [exec_messageReceive hp hl ht hd hs hm]
    simp only [State.takeMsg, fit, box, Option.isSome_none, Bool.false_eq_true, if_false, if_true]
  case ring =>
    intro i p m R r L u g hp hl ht hd hs hm fit box hg
    have e : exec (.messageReceive i) s = .next (s.takeMsg i p R L (u - 3) m) := exec_messageReceive hp hl ht hd hs hm
    refine ⟨fun found => ?_, fun y full hy blocks hy' => ?_⟩
    · simp only [e, State.takeMsg, fit, box, hg, Option.isSome_none, Bool.false_eq_true, if_false]
      rw [if_neg fun both => found both.1]
    · simp only [e, State.takeMsg, fit, box, hg, Option.isSome_none, Bool.false_eq_true, if_false]
      rw [if_pos ⟨full, by rw [hy, Option.map_some, blocks]⟩, hy']
  case answer =>
    intro L n x status epoch hL hn hx ha hw
    refine .trans ?_ (congrArg _ (takeAnswer_waiting hx ha hw))
    exact onUnit_ok (by rw [okCluster_of hL, okCore_of hn]; rfl)
  case retry =>
    intro L n x cx hL hn hx hh ho g hg hm
    refine .trans ?_ (congrArg _ (retryMsg_moved hx hh ho hg hm))
    exact onUnit_ok (by rw [okCluster_of hL, okCore_of hn]; rfl)
  case command =>
    intro cx ring hcx hring hr
    have ok : (okCx cx && okRing ring) = true := by rw [okCx_of hcx, okRing_of hring]; rfl
    have act := fun f => writeTo_reached hr fun s => s.ringCommand cx ring f
    exact ⟨(onUnit_ok ok).trans (congrArg _ (act 1)), (onUnit_ok ok).trans (congrArg _ (act 2)),
      (onUnit_ok ok).trans (congrArg _ (act 3))⟩

/-! ### Tokens, credits and clearing roots -/

theorem tokenArrival_landed {s : State} {i : Nat} {p : Packet} {L u : Nat} {t : Token} {src : Producer}
    (hp : s.mesh.packets[i]? = some p) (hl : s.landed p = true) (ho : s.overtakes i p src = false) (hd : p.dst = .cluster L u)
    (ht : p.payload = .token t src) (fit : (s.dropPacket i).refusal p = none) :
    s.tokenArrival i = (s.dropPacket i).deliver p.cx L t.endpoint t src := by
  simp [State.tokenArrival, hp, hl, ho, hd, ht, fit]

theorem exec_clearRootAbsorb (i : Nat) (s : State) : exec (.clearRootAbsorb i) s = .next (s.absorb i) := rfl

/-- A CLEAR packet at its root goes to the slot of its row, unless its run or its row has none (R166). -/
theorem exec_clearRootAbsorb_landed {s : State} {i : Nat} {p : Packet} {L u row count run scale : Nat} {sm : Bool}
    {lanes : List Word} {src : List Nat} {g : ClearingRec} (hp : s.mesh.packets[i]? = some p) (hl : s.landed p = true)
    (hd : p.dst = .cluster L u) (ht : p.payload = .clear row count run sm scale lanes src)
    (fit : (s.dropPacket i).refusal p = none) (hg : (s.dropPacket i).group p.cx p.reqId = some g) :
    exec (.clearRootAbsorb i) s = .next (let t := s.dropPacket i
      let beyond := t.finc MSH_CLR_ERROR.ROW_RANGE (partOfXY (t.refuserOf p))
      if run ≠ (t.cx p.cx).runNumber % 2 ^ 16 then beyond.clearCondition p.cx p.reqId 6 L
      else if row ≥ g.rows then beyond.clearCondition p.cx p.reqId 4 L
      else t.absorbRow p.cx g row count sm scale lanes) := by
  rw [exec_clearRootAbsorb]
  simp only [State.absorb, hp, hl, hd, ht, fit, hg, Bool.not_true, Bool.false_eq_true, if_false, Option.isSome_none]

/-- A contribution that fits its slot is added there, and a slot that is complete may end its group (R168). -/
theorem absorbRow_added {t : State} {cx row count scale : Nat} {g : ClearingRec} {sm : Bool} {lanes : List Word}
    {a : RowSlot × List Word × Nat} (sound : VaultSound t g.root) (ok : t.readOk g.root (g.base + 288 * row) 288 = true)
    (ha : absorbInto (RowSlot.ofBytes ((t.vbytes g.root (g.base + 288 * row) 288).take 32))
      (wordsOf ((t.vbytes g.root (g.base + 288 * row) 288).drop 32) 64) (t.cx cx).runNumber g.contributions count sm scale lanes
        = a)
    (plain : a.2.2 = 0) :
    t.absorbRow cx g row count sm scale lanes
      = let v := t.vstore g.root (g.base + 288 * row) (a.1.toBytes ++ laneBytes a.2.1) .mesh
        if a.1.complete (v.cx cx).runNumber g.contributions then v.clearDone cx g else v := by
  obtain ⟨slot, sums, code⟩ := a
  simp only at plain
  subst plain
  have loaded := vload_sound sound (g.base + 288 * row) 288 .mesh ok
  simp only [State.absorbRow, loaded, ha, Nat.reduceEqDiff, ne_eq, not_true_eq_false, if_false]

/-- Settles O29: each event acts as its packet stands. -/
theorem tokensCreditsAndRoots : Obligations.TokensCreditsAndRoots := by
  unfold Obligations.TokensCreditsAndRoots
  refine fun s i => ⟨?token, ?credit, ?refused, ?added⟩
  case token =>
    intro p L u t src e hp hl ho hd ht fit he recv
    have arrives : exec (.tokenArrival i) s = .next ((s.dropPacket i).deliver p.cx L t.endpoint t src) :=
      congrArg _ (tokenArrival_landed hp hl ho hd ht fit)
    rw [arrives]
    exact ⟨fun epoch drains => by simp [State.deliver, he, recv, epoch, drains],
      fun epoch => by simp [State.deliver, he, recv, epoch]⟩
  case credit =>
    intro L q rest e hc he hs
    have hep : ({ s with mesh := { s.mesh with credits := rest } } : State).ep L q = some e := he
    have counted : s.creditArrives i = ({ s with mesh := { s.mesh with credits := rest } } : State).setEp L q
        { e with credits := e.credits + 1 } := by
      simp only [State.creditArrives, hc, hep, hs, if_true]
    exact congrArg _ counted
  case refused =>
    intro p L u row count run sm scale lanes src g hp hl hd ht t part fit hg
    rw [exec_clearRootAbsorb_landed hp hl hd ht fit hg]
    exact ⟨fun stale => congrArg _ (if_pos stale),
      fun current beyond => congrArg _ ((if_neg (not_not_intro current)).trans (if_pos beyond))⟩
  case added =>
    intro p L u row count run sm scale lanes src g hp hl hd ht t fit hg current within sound ok b a v plain
    rw [exec_clearRootAbsorb_landed hp hl hd ht fit hg]
    have added : t.absorbRow p.cx g row count sm scale lanes = _ := absorbRow_added sound ok (Eq.refl a) plain
    dsimp only
    rw [if_neg (not_not_intro current), if_neg (Nat.not_le.2 within), added]

/-! ### Contexts between folios -/

theorem okFolio_of {n : Nat} (h : n < 4096) : okFolio n = true := decide_eq_true h

/-- What staging one cluster does: its configuration is kept where it can be read and its free units hold it (R193). -/
def stageUser (c : Nat) (im : Image) (f : Nat) (u : FolioClusterRec) (s : State) : State :=
  match s.stageAt im u with
  | some units => let r := s.readConfig c im u
    if r.2.1 then r.2.2 else (r.2.2.freshUnits u.cluster units).updCl u.cluster fun k =>
      { k with staged := some ⟨c, f, r.1, units⟩ }
  | none => s

/-- Whether every cluster of a folio is staged. -/
def allStaged (c : Nat) (im : Image) (f : Nat) (t : State) : Bool :=
  (im.users f).all fun u => match (t.cl u.cluster).staged with
    | some g => g.cx == c && g.folio == f
    | none => false

theorem stage_known {s : State} {c : Nat} {im : Image} (hi : s.image c = some im) (hl : (s.cx c).lastSegment = true)
    (hs : (s.cx c).segment = true) (ht : s.targetOf c ≠ 4095) :
    s.stage c = let t := s.forEach (im.users (s.targetOf c)) (stageUser c im (s.targetOf c))
      t.fbit FOL_CX_STATE.STAGED c (allStaged c im (s.targetOf c) t) := by
  simp only [State.stage, hi, hl, hs, ht, Bool.and_self, decide_true, if_true, ne_eq, not_false_eq_true]
  rfl

theorem exec_stage {s : State} {c : Nat} (hc : c < 16) : exec (.configurationStage c) s = .next (s.stage c) :=
  onUnit_ok (okCx_of hc)

/-- A cluster that has a staged configuration is not as at reset, and reads it back. -/
theorem staged_updCl (s : State) (L : Nat) (g : Staged) :
    ((s.updCl L fun k => { k with staged := some g }).cl L).staged = some g := by
  rw [State.updCl, cl_setCl_ne s L fun e => by have := congrArg Cluster.staged e; cases this]

/-- Settles O32: each event acts where its guard holds; that a SLIPPED context shows DRAINED is log entry 30 (DEDUCED). -/
theorem folioEvents : Obligations.FolioEvents := by
  unfold Obligations.FolioEvents
  refine fun s c L hc hL => ⟨?loaded, ?poisoned, ?drained, ?staged, ?nobody, ?one, ?next⟩
  case loaded =>
    intro j hj a r clean
    refine .trans (onUnit_ok (okCluster_of hL)) (congrArg _ ?_)
    simp only [State.loadComplete, hj]
    exact congrArg (fun t : State => (t.updCl L fun k => { k with loading := none }).startIfReady j.cx L)
      (if_neg (by rw [clean]; decide))
  case poisoned =>
    intro j hj a r bad
    refine .trans (onUnit_ok (okCluster_of hL)) (congrArg _ ?_)
    simp only [State.loadComplete, hj]
    exact congrArg (fun t : State => (t.updCl L fun k => { k with loading := none }).startIfReady j.cx L)
      (if_pos bad)
  case drained =>
    intro complete first state
    refine .trans (onUnit_ok (okCx_of hc)) (congrArg _ ?_)
    exact if_pos (by simpa [complete, first] using state)
  case staged =>
    intro im hi hl hs ht
    exact (exec_stage hc).trans (congrArg _ (stage_known hi hl hs ht))
  case nobody =>
    intro im hi hl hs ht none
    refine (exec_stage hc).trans (congrArg _ ((stage_known hi hl hs ht).trans ?_))
    dsimp only
    rw [allStaged, none]
    rfl
  case one =>
    intro im u units hi hl hs ht only hu fits r clean
    refine (exec_stage hc).trans (congrArg _ ((stage_known hi hl hs ht).trans ?_))
    have user : stageUser c im (s.targetOf c) u s = (r.2.2.freshUnits u.cluster units).updCl u.cluster fun k =>
        { k with staged := some ⟨c, s.targetOf c, r.1, units⟩ } := by
      simp only [stageUser, fits]
      exact if_neg (by rw [clean]; decide)
    dsimp only
    rw [allStaged, only, forEach_singleton, user]
    simp only [List.all_cons, List.all_nil, staged_updCl, beq_self_eq_true, Bool.and_self]
  case next =>
    intro valid folio hf hr licensed
    refine .trans (onUnit_ok (by rw [okCx_of hc, okFolio_of hf]; rfl)) (congrArg _ ?_)
    rw [writeTo_reached hr]
    have whole : folio % 2 ^ 12 = folio := Nat.mod_eq_of_lt hf
    simp only [State.nextWrite, licensed, whole, Bool.not_true, Bool.false_eq_true, if_false, Bool.and_eq_true, bne_iff_ne]

end Sys2Proof.Machine
end

section
/-! PROOFS. The frame of the instructions that touch registers alone. -/
namespace Sys2Proof.Machine

open Sys2Proof

/-! ### A register and the others -/

theorem setG_gr_other (c : Core) {d i : Nat} (w : Word) (h : d ≠ i) : (c.setG d w).gr i = c.gr i := by
  unfold Core.setG
  split
  · rfl
  · simp only [Core.gr, getD_setIfInBounds, h, false_and, if_false]

theorem setK_kr_other (c : Core) {d i : Nat} (teller : Bool) (w : DWord) (h : d ≠ i) : (c.setK teller d w).kr i = c.kr i := by
  unfold Core.setK
  split
  · rfl
  · simp only [Core.kr, getD_setIfInBounds, h, false_and, if_false]

theorem setV_vr_other (c : Core) {d i : Nat} (x : Vector Word 64) (h : d ≠ i) : (c.setV d x).vr i = c.vr i :=
  (getD_setIfInBounds ..).trans (if_neg fun e => h e.1)

theorem setS_sr_other (c : Core) {d i : Nat} (x : Vector Word 4) (h : d ≠ i) : (c.setS d x).sr i = c.sr i :=
  (getD_setIfInBounds ..).trans (if_neg fun e => h e.1)

theorem onlyDest_refl (c : Core) (d : Dest) : OnlyDest c c d :=
  ⟨fun _ _ => rfl, fun _ _ => rfl, fun _ _ => rfl, fun _ _ => rfl, rfl, rfl, rfl⟩

theorem onlyDest_setG (c : Core) (d : Nat) (w : Word) : OnlyDest c (c.setG d w) (.g d) := by
  refine ⟨fun i h => setG_gr_other c w fun e => h (congrArg _ e), ?_, ?_, ?_, ?_, ?_, ?_⟩
  all_goals intros; unfold Core.setG; split <;> rfl

theorem onlyDest_setK (c : Core) (teller : Bool) (d : Nat) (w : DWord) : OnlyDest c (c.setK teller d w) (.k d) := by
  refine ⟨?_, fun i h => setK_kr_other c teller w fun e => h (congrArg _ e), ?_, ?_, ?_, ?_, ?_⟩
  all_goals intros; unfold Core.setK; split <;> rfl

theorem onlyDest_setV (c : Core) (d : Nat) (x : Vector Word 64) : OnlyDest c (c.setV d x) (.v d) :=
  ⟨fun _ _ => rfl, fun _ _ => rfl, fun _ h => setV_vr_other c x fun e => h (congrArg _ e), fun _ _ => rfl, rfl, rfl, rfl⟩

theorem onlyDest_setS (c : Core) (d : Nat) (x : Vector Word 4) : OnlyDest c (c.setS d x) (.s d) :=
  ⟨fun _ _ => rfl, fun _ _ => rfl, fun _ _ => rfl, fun _ h => setS_sr_other c x fun e => h (congrArg _ e), rfl, rfl, rfl⟩

/-- Steps of generators touch no register (R56). -/
theorem onlyDest_stepGens {c c' : Core} {d : Dest} (p : Nat → Bool) (ls : List Nat) (h : OnlyDest c c' d) :
    OnlyDest c (ls.foldl (fun c l => if p l then c.stepGen l else c) c') d := by
  induction ls generalizing c' with
  | nil => exact h
  | cons l ls ih =>
    refine ih ?_
    dsimp only
    split
    · exact ⟨h.g, h.k, h.v, h.s, h.imem, h.lut, h.sticky⟩
    · exact h

theorem onlyDest_vectorAlu (c : Core) (fn : AluFn) (d a : Nat) (b : Nat → Word) (kp : Nat) :
    OnlyDest c (c.vectorAlu fn d a b kp) (.v d) := onlyDest_stepGens _ _ (onlyDest_setV ..)

/-- The program counter, the run state and the wait are no registers. -/
theorem onlyDest_moved {c c' : Core} {d : Dest} (h : OnlyDest c c' d) (pc : Nat) (run : RunState) (wait : Option Wait) :
    OnlyDest c { c' with pc := pc, run := run, wait := wait } d := ⟨h.g, h.k, h.v, h.s, h.imem, h.lut, h.sticky⟩

/-! ### Rows that touch registers alone -/

/-- The issuing core alone changes, of its registers `d` alone. -/
def WritesOnly (s : State) (who : Issue) (d : Dest) (t : State) : Prop :=
  ∃ c, t = s.setCore who.cluster who.core c ∧ OnlyDest (s.core who.cluster who.core) c d

theorem writesOnly_retire {s : State} {who : Issue} {d : Dest} {f : Core → Core}
    (h : OnlyDest (s.core who.cluster who.core) (f (s.core who.cluster who.core)) d) :
    WritesOnly s who d (s.retire who.cluster who.core f) := ⟨_, rfl, onlyDest_moved h ..⟩

theorem writesOnly_writesG (s : State) (who : Issue) (d : Nat) (f : Core → Word) :
    WritesOnly s who (.g d) (s.writesG who.cluster who.core d f) := writesOnly_retire (onlyDest_setG ..)

theorem writesOnly_scalar {s : State} {who : Issue} {d : Dest} {kp : Nat} {f : State → State} (h : WritesOnly s who d (f s)) :
    WritesOnly s who d (s.scalar who.cluster who.core kp f) := by
  unfold State.scalar
  split
  · exact h
  · exact writesOnly_retire (onlyDest_refl ..)

/-- Every row of the family changes its core's registers alone, and of them its destination. -/
theorem writesOnly_of_registerRow {s t : State} {who : Issue} {i : Insn} {c : Instr} {d : Dest} (h : Fetches s who i)
    (row : i.registerRow who = some (c, d)) (quiet : s.fon VEC_RESIDUE_INJECT.ARM (who.cluster * 2 + (who.core - 1)) = false)
    (ht : exec c s = .next t) : WritesOnly s who d t := by
  have act : ∀ {run : Insn → Option (State → State)} {f : State → State}, exec c s = coreRow who s run → run i = some f →
      WritesOnly s who d (f s) → WritesOnly s who d t := by
    intro run f hc hr hw
    rw [hc, coreRow_fetches h hr] at ht
    cases ht
    exact hw
  cases i
  case alu => cases row; exact act rfl rfl (writesOnly_scalar (writesOnly_writesG ..))
  case addi | andi | ori | xori | lui | shli | shri | srai => cases row; exact act rfl rfl (writesOnly_writesG ..)
  case cmp | vcmp | vcmps => cases row; exact act rfl rfl (writesOnly_retire (onlyDest_setK ..))
  case kop fn d a b =>
    cases fn
    case COUNT => cases row; exact act rfl rfl (writesOnly_retire (onlyDest_setG ..))
    all_goals cases row; exact act rfl rfl (writesOnly_retire (onlyDest_setK ..))
  case vv | vs =>
    cases row
    refine act rfl rfl ?_
    rw [vectorAlu_quiet _ _ _ _ _ h.upset quiet]
    exact writesOnly_retire (onlyDest_vectorAlu ..)
  case sel => cases row; exact act rfl rfl (writesOnly_retire (onlyDest_setV ..))
  case red =>
    cases row
    cases ht.symm.trans (exec_red h quiet)
    exact ⟨_, rfl, onlyDest_moved (onlyDest_setG ..) ..⟩
  case smov => cases row; exact act rfl rfl (writesOnly_scalar (writesOnly_retire (onlyDest_setS ..)))
  case sget => cases row; exact act rfl rfl (writesOnly_scalar (writesOnly_writesG ..))
  case sput => cases row; exact act rfl rfl (writesOnly_scalar (writesOnly_retire (onlyDest_setS ..)))
  case lut vd va kp bits shift base =>
    obtain ⟨fits, rfl, rfl⟩ : 64 * base + 2 ^ bits ≤ 4096 ∧ Instr.lut who = c ∧ Dest.v vd = d := by
      simpa [Insn.registerRow] using row
    cases ht.symm.trans (exec_lut h fits)
    exact writesOnly_retire (onlyDest_setV ..)
  case beqz | bnez | jr => cases row; exact act rfl rfl ⟨_, rfl, onlyDest_moved (onlyDest_refl ..) ..⟩
  case jal => cases row; exact act rfl rfl ⟨_, rfl, onlyDest_moved (onlyDest_setG ..) ..⟩
  case nop | fence => cases row; exact act rfl rfl (writesOnly_retire (onlyDest_refl ..))
  case halt | wft => cases row; exact act rfl rfl ⟨_, rfl, onlyDest_moved (onlyDest_refl ..) ..⟩
  all_goals cases row

/-- Settles O8: the row writes one core of a cluster that a site holds. -/
theorem registerRowFrame : Obligations.RegisterRowFrame := by
  unfold Obligations.RegisterRowFrame
  intro s t who i c d h row quiet ht
  obtain ⟨c', rfl, only⟩ := writesOnly_of_registerRow h row quiet ht
  have placed := placed_of_fetches h
  refine ⟨⟨fun m hm => cl_setCl_other _ _ hm, fun m hm => core_setCore_placed_other placed _ hm, rfl,
    _, cl_setCore_placed placed _ _⟩, ?_, fun L a => ?_⟩
  · rwa [core_setCore_placed placed _ (core_lt_of_fetches h)]
  · unfold vaultByte
    by_cases hL : L = who.cluster
    · rw [hL, cl_setCore_placed placed]
    · rw [show (s.setCore who.cluster who.core c').cl L = s.cl L from cl_setCl_other _ _ hL]

end Sys2Proof.Machine
end

section
/-! PROOFS. What the writes of clusters leave of them, and the frame of the stores. -/
namespace Sys2Proof.Machine

open Sys2Proof

/-! ### Writes of clusters -/

/-- From `s` to `t` the clusters change by writes alone, each of a kind that `K` allows of its cluster. -/
inductive ClWrites (K : Nat → Cluster → Cluster → Prop) (s : State) : State → Prop
  | same {t : State} (h : t.clusters = s.clusters) : ClWrites K s t
  | write {t u : State} {L : Nat} {c : Cluster} (h : ClWrites K s t) (k : K L (t.cl L) c)
      (e : u.clusters = (t.setCl L c).clusters) : ClWrites K s u

section
variable {K J : Nat → Cluster → Cluster → Prop} {s t u : State} {L : Nat}

theorem ClWrites.refl (s : State) : ClWrites K s s := .same rfl

theorem ClWrites.congr (h : ClWrites K s t) (e : u.clusters = t.clusters) : ClWrites K s u := by
  cases h with
  | same h => exact .same (e.trans h)
  | write h k e' => exact .write h k (e.trans e')

theorem ClWrites.trans (h : ClWrites K s t) (h' : ClWrites K t u) : ClWrites K s u := by
  induction h' with
  | same e => exact h.congr e
  | write _ k e ih => exact .write ih k e

theorem ClWrites.mono (h : ClWrites K s t) (le : ∀ M a b, K M a b → J M a b) : ClWrites J s t := by
  induction h with
  | same e => exact .same e
  | write _ k e ih => exact .write ih (le _ _ _ k) e

theorem clWrites_of_kept (h : t.kept = s.kept) : ClWrites K s t := .same (kept_clusters h)

theorem clWrites_updCl {f : Cluster → Cluster} (k : K L (s.cl L) (f (s.cl L))) : ClWrites K s (s.updCl L f) :=
  .write (.refl s) k rfl

theorem clWrites_ite {P : Prop} [Decidable P] (h : P → ClWrites K s t) (h' : ¬P → ClWrites K s u) :
    ClWrites K s (if P then t else u) := by
  split
  next p => exact h p
  next p => exact h' p

theorem clWrites_forEach {α : Type} {f : α → State → State} (l : List α) (s : State)
    (h : ∀ a ∈ l, ∀ s, ClWrites K s (f a s)) : ClWrites K s (s.forEach l f) := by
  unfold State.forEach
  induction l generalizing s with
  | nil => exact .refl s
  | cons a l ih => exact (h a (List.mem_cons_self ..) s).trans (ih _ fun b hb => h b (List.mem_cons_of_mem _ hb))

theorem ClWrites.canonical (h : ClWrites K s t) (w : mwf (fun _ => Cluster.init) s.clusters = true) :
    mwf (fun _ => Cluster.init) t.clusters = true := by
  induction h with
  | same e => rwa [e]
  | write _ _ e ih => rw [e]; exact mwf_setCl _ _ ih

theorem cl_of_clusters (e : u.clusters = t.clusters) (M : Nat) : u.cl M = t.cl M := by unfold State.cl; rw [e]

/-- A cluster of which `K` allows no write stays. -/
theorem ClWrites.other (h : ClWrites K s t) {M : Nat} (no : ∀ a b, ¬K M a b) : t.cl M = s.cl M := by
  induction h with
  | same e => exact cl_of_clusters e M
  | write _ k e ih =>
    refine (cl_of_clusters e M).trans ((cl_setCl_other _ _ fun eq => ?_).trans ih)
    subst eq
    exact no _ _ k

/-- Where a cluster reads back, because the map of clusters is canonical or a site holds the cluster, the writes of it add
up. -/
theorem ClWrites.read (h : ClWrites K s t) (M : Nat)
    (reads : mwf (fun _ => Cluster.init) s.clusters = true ∨ (s.cl M).site.isSome = true)
    (site : ∀ a b, K M a b → b.site = a.site) (refl : ∀ a, K M a a) (trans : ∀ a b c, K M a b → K M b c → K M a c) :
    K M (s.cl M) (t.cl M) := by
  induction h with
  | same e => rw [cl_of_clusters e]; exact refl _
  | @write t u L c h k e ih =>
    rw [cl_of_clusters e]
    by_cases eq : M = L
    · subst eq
      refine trans _ _ _ ih ?_
      have back : (t.setCl M c).cl M = c := by
        rcases reads with w | placed
        · exact cl_setCl M c (h.canonical w)
        · exact cl_setCl_placed t M (by rw [site _ _ k, site _ _ ih]; exact placed)
      rwa [back]
    · rw [cl_setCl_other _ _ eq]
      exact ih

end

/-! ### Kinds of writes -/

/-- A write of cluster `L` that leaves its site, its cores and its vault. -/
structure Books (L : Nat) (M : Nat) (a b : Cluster) : Prop where
  cluster : M = L
  site : b.site = a.site
  cores : b.cores = a.cores
  vault : b.vault = a.vault

theorem books_refl (L : Nat) (a : Cluster) : Books L L a a := ⟨rfl, rfl, rfl, rfl⟩

theorem Books.trans {L M : Nat} {a b c : Cluster} (h : Books L M a b) (k : Books L M b c) : Books L M a c :=
  ⟨h.cluster, k.site.trans h.site, k.cores.trans h.cores, k.vault.trans h.vault⟩

theorem books_updCl (s : State) (L : Nat) {f : Cluster → Cluster} (site : (f (s.cl L)).site = (s.cl L).site)
    (cores : (f (s.cl L)).cores = (s.cl L).cores) (vault : (f (s.cl L)).vault = (s.cl L).vault) :
    ClWrites (Books L) s (s.updCl L f) := clWrites_updCl ⟨rfl, site, cores, vault⟩

/-- What the bookkeeping of a cluster that a site holds leaves of it. -/
theorem ClWrites.books {s t : State} {L : Nat} (h : ClWrites (Books L) s t) (placed : (s.cl L).site.isSome = true) :
    Books L L (s.cl L) (t.cl L) :=
  h.read L (.inr placed) (fun _ _ k => k.site) (books_refl L) fun _ _ _ => Books.trans

/-! ### What parity errors and violations of a vault write

`SameVaults` speaks of maps of clusters in canonical form; the frame of a store is stated for every map, so these say which
cluster is written and what of it. -/

theorem clWrites_report (s : State) (v b c i : Nat) (x : Option Nat) (d : List Word) {K : Nat → Cluster → Cluster → Prop} :
    ClWrites K s (s.report v b c i x d) := clWrites_of_kept (kept_report ..)

theorem clWrites_markRerun (s : State) (L : Nat) {K : Nat → Cluster → Cluster → Prop} : ClWrites K s (s.markRerun L) := by
  unfold State.markRerun
  split <;> exact .same rfl

theorem books_hwSend (s : State) (L : Nat) (k : HwKind) (b c : Nat) (j : Bool) (d : List Word) :
    ClWrites (Books L) s (s.hwSend L k b c j d) := by
  unfold State.hwSend
  split
  · exact (books_updCl s L rfl rfl rfl).trans (clWrites_of_kept (kept_accept ..))
  · exact books_updCl s L rfl rfl rfl

theorem books_hwRecord (s : State) (L : Nat) (k : HwKind) (b c : Nat) (j : Bool) (d : List Word) :
    ClWrites (Books L) s (s.hwRecord L k b c j d) :=
  (clWrites_ite (fun _ => .refl s) fun _ => clWrites_of_kept (kept_noteWindow ..)).trans (books_hwSend ..)

theorem books_hwFault (s : State) (L : Nat) (k : HwKind) (b c : Nat) (j : Bool) (d : List Word) :
    ClWrites (Books L) s (s.hwFault L k b c j d) := (clWrites_markRerun s L).trans (books_hwRecord ..)

theorem clusters_parityLatch (s : State) (L kind g : Nat) (p : VPort) (j : Bool) :
    (s.parityLatch L kind g p j).clusters = s.clusters := by
  unfold State.parityLatch
  cases j <;> rfl

theorem books_parityCount (s : State) (L g : Nat) (p : VPort) (j : Bool) : ClWrites (Books L) s (s.parityCount L g p j) := by
  unfold State.parityCount
  refine ClWrites.trans ?_ (books_updCl _ L rfl rfl rfl)
  exact .same (clusters_parityLatch ..)

theorem books_parityError (s : State) (L g : Nat) (p : VPort) (j : Bool) : ClWrites (Books L) s (s.parityError L g p j) :=
  have h := (books_parityCount s L g p j).trans (books_hwFault _ _ _ _ _ _ _)
  clWrites_ite (fun _ => h.trans (clWrites_of_kept ((kept_markClusterFault ..).trans ((kept_report ..).trans rfl)))) fun _ => h

theorem books_checkGroups (s : State) (L : Nat) (gs : List Nat) (p : VPort) :
    ClWrites (Books L) s (s.checkGroups L gs p).2 := by
  unfold State.checkGroups
  have h : ClWrites (Books L) s (s.forEach (gs.filter fun g => mget (fun _ => false) (s.cl L).bad g)
    fun g s => s.parityError L g p false) := clWrites_forEach _ s fun g _ s => books_parityError s L g p false
  dsimp only
  split
  · refine h.trans (ClWrites.trans ?_ (books_parityError _ _ _ _ _))
    exact .same rfl
  · exact h

theorem books_violate (s : State) (L a : Nat) : ClWrites (Books L) s (s.violate L a) := by
  unfold State.violate
  refine ClWrites.trans ?_ (clWrites_of_kept (kept_markClusterFault _ _ _))
  have noted : ClWrites (Books L) s ((s.finc VLT_PROTECT.COUNT L).fset VLT_PROTECT.ADDR L a) := .same rfl
  refine clWrites_ite (fun _ => noted) fun _ => noted.trans ?_
  exact (books_updCl _ L rfl rfl rfl).trans (clWrites_report _ _ _ _ _ _ _)

theorem books_vload (s : State) (L a n : Nat) (p : VPort) : ClWrites (Books L) s (s.vload L a n p).2.2 := by
  unfold State.vload
  split
  · exact books_checkGroups ..
  · exact books_violate ..

/-! ### What the end of an instruction writes -/

/-- Core `n` of a cluster. -/
def Cluster.core (k : Cluster) (n : Nat) : Core := k.cores.toArray.getD n Core.init

/-- The registers of a core stay. -/
structure SameRegs (c c' : Core) : Prop where
  g : c'.g = c.g
  k : c'.k = c.k
  v : c'.v = c.v
  sc : c'.sc = c.sc

theorem sameRegs_refl (c : Core) : SameRegs c c := ⟨rfl, rfl, rfl, rfl⟩

theorem SameRegs.trans {a b c : Core} (h : SameRegs a b) (k : SameRegs b c) : SameRegs a c :=
  ⟨k.g.trans h.g, k.k.trans h.k, k.v.trans h.v, k.sc.trans h.sc⟩

/-- A write of cluster `L` that leaves its site, its vault and the registers of its cores. -/
structure CoresMove (L : Nat) (M : Nat) (a b : Cluster) : Prop where
  cluster : M = L
  site : b.site = a.site
  vault : b.vault = a.vault
  regs : ∀ n, SameRegs (a.core n) (b.core n)

theorem Books.coresMove {L M : Nat} {a b : Cluster} (h : Books L M a b) : CoresMove L M a b :=
  ⟨h.cluster, h.site, h.vault, fun n => by rw [Cluster.core, Cluster.core, h.cores]; exact sameRegs_refl _⟩

theorem coresMove_books {s t : State} {L : Nat} (h : ClWrites (Books L) s t) : ClWrites (CoresMove L) s t :=
  h.mono fun _ _ _ => Books.coresMove

theorem coresMove_updCore (s : State) (L n : Nat) {f : Core → Core} (h : ∀ c, SameRegs c (f c)) :
    ClWrites (CoresMove L) s (s.updCore L n f) := by
  unfold State.updCore State.setCore
  refine clWrites_updCl ?_
  refine ⟨rfl, rfl, rfl, fun m => ?_⟩
  unfold Cluster.core
  rw [getD_setIfInBounds]
  split
  next e => rw [← e.1]; exact h _
  next => exact sameRegs_refl _

theorem coresMove_retire_id (s : State) (L n : Nat) : ClWrites (CoresMove L) s (s.retire L n id) :=
  coresMove_updCore s L n fun _ => ⟨rfl, rfl, rfl, rfl⟩

theorem coresMove_block (s : State) (L n : Nat) (w : Wait) : ClWrites (CoresMove L) s (s.block L n w) :=
  coresMove_updCore s L n fun _ => ⟨rfl, rfl, rfl, rfl⟩

theorem clusters_count_if (s : State) (b : Bool) (f : Fld) (i : Nat) : (if b then s.finc f i else s).clusters = s.clusters := by
  cases b <;> rfl

theorem coresMove_outcomes (s : State) (L n : Nat) (o : Outcomes) : ClWrites (CoresMove L) s (s.outcomes L n o) := by
  refine (coresMove_updCore s L n (f := fun c => { c with sticky := c.sticky ||| o.bits }) fun _ => ⟨rfl, rfl, rfl, rfl⟩).congr ?_
  simp only [State.outcomes, clusters_count_if]

theorem sameRegs_stopped (c : Core) : SameRegs c c.stopped := by
  unfold Core.stopped
  split <;> exact ⟨rfl, rfl, rfl, rfl⟩

theorem getD_map (v : Vector Core 3) (f : Core → Core) {m : Nat} (h : m < 3) :
    (v.map f).toArray.getD m Core.init = f (v.toArray.getD m Core.init) := by
  simp [Array.getD, h]

theorem coresMove_stopCores (s : State) (L n code : Nat) : ClWrites (CoresMove L) s (s.stopCores L n code) := by
  have latched : ClWrites (CoresMove L) s (s.rset .TLR_FAULT L (BitVec.ofNat 64 (faultWord code n (s.core L n).pc))) := .same rfl
  unfold State.stopCores
  refine latched.trans (clWrites_updCl ?_)
  refine ⟨rfl, rfl, rfl, fun m => ?_⟩
  unfold Cluster.core
  rw [getD_setIfInBounds]
  split
  next e => rw [← e.1]; exact ⟨rfl, rfl, rfl, rfl⟩
  next =>
    by_cases hm : m < 3
    · rw [getD_map _ _ hm]; exact sameRegs_stopped _
    · simp only [Array.getD, Vector.size_toArray, hm, dif_neg, not_false_eq_true]; exact sameRegs_refl _

theorem coresMove_coreFault (s : State) (L n code : Nat) : ClWrites (CoresMove L) s (s.coreFault L n code) :=
  (coresMove_stopCores s L n code).trans (clWrites_of_kept ((kept_markClusterFault ..).trans (kept_report ..)))

theorem coresMove_scalar (s : State) (L n kp : Nat) {f : State → State} {K : Nat → Cluster → Cluster → Prop}
    (le : ∀ M a b, CoresMove L M a b → K M a b) (h : ClWrites K s (f s)) : ClWrites K s (s.scalar L n kp f) :=
  clWrites_ite (fun _ => h) fun _ => (coresMove_retire_id s L n).mono le

/-! ### What stores write -/

/-- A write of the vault of cluster `L` at addresses that `at_` names. -/
structure Fills (L : Nat) (at_ : Nat → Prop) (M : Nat) (a b : Cluster) : Prop where
  cluster : M = L
  site : b.site = a.site
  cores : b.cores = a.cores
  bytes : ∀ y, ¬at_ y → mget zeroByte b.vault y = mget zeroByte a.vault y

theorem Books.fills {L M : Nat} {a b : Cluster} (h : Books L M a b) (at_ : Nat → Prop) : Fills L at_ M a b :=
  ⟨h.cluster, h.site, h.cores, fun _ _ => by rw [h.vault]⟩

theorem fills_vpairs (s : State) (L : Nat) {l : List (Nat × Byte)} (p : VPort) {at_ : Nat → Prop} (h : ∀ e ∈ l, at_ e.1) :
    ClWrites (Fills L at_) s (s.vpairs L l p) := by
  unfold State.vpairs
  refine ((books_checkGroups s L _ p).mono fun _ _ _ k => k.fills at_).trans (clWrites_updCl ?_)
  refine ⟨rfl, rfl, rfl, fun y hy => mget_mputs_other _ _ fun e he eq => hy ?_⟩
  subst eq
  exact h e he

theorem fills_corePairs (s : State) (L : Nat) {l : List (Nat × Byte)} (p : VPort) {at_ : Nat → Prop} (h : ∀ e ∈ l, at_ e.1) :
    ClWrites (Fills L at_) s (s.corePairs L l p) := by
  unfold State.corePairs
  refine clWrites_ite (fun _ => ?_) fun _ => fills_vpairs s L p h
  exact (fills_vpairs s L p fun e he => h e (List.mem_of_mem_filter he)).congr rfl

theorem fills_coreStore (s : State) (L a : Nat) (b : List Byte) (p : VPort) :
    ClWrites (Fills L fun y => a ≤ y ∧ y < a + b.length) s (s.coreStore L a b p) :=
  clWrites_ite (fun _ => fills_corePairs s L p fun _ he => mem_addressed (List.mem_map_of_mem he))
    fun _ => (books_violate s L a).mono fun _ _ _ k => k.fills _

theorem lt_of_mem_touched {w o : Nat} {k : DWord} (h : o ∈ touched w k) : o < rowBytes w 64 :=
  List.mem_range.1 (List.mem_of_mem_filter h)

/-- The bits of the performed lanes in a packed row. -/
def rowMask (w : Nat) (k : DWord) : Nat := packNat w ((List.range 64).map fun l => if lane k l then 2 ^ w - 1 else 0)

/-- The packed row of clamped lane values. -/
def rowBits (f : Fmt) (vals : Nat → Int) : Nat := packNat f.width ((List.range 64).map fun l => f.field (clampTo f (vals l)))

/-- The groups that a store of a row covers in part. -/
def partGroups (w x : Nat) (k : DWord) : List Nat :=
  (dedupRun ((touched w k).map fun o => (x + o) / 8)).filter fun g =>
    !((List.range 8).all fun i => decide (x ≤ 8 * g + i) && decide (8 * g + i < x + rowBytes w 64)
      && (rowMask w k >>> (8 * (8 * g + i - x))) % 256 == 255)

/-- The bytes of the row in the vault and the stored lanes, merged. -/
def mergedRow (f : Fmt) (k : DWord) (vals : Nat → Int) (old : List Byte) : List Byte :=
  leBytes (rowBytes f.width 64) ((leNat old &&& (2 ^ (8 * rowBytes f.width 64) - 1 - rowMask f.width k))
    ||| (rowBits f vals &&& rowMask f.width k))

/-- The bytes that a store of a row writes, with their addresses. -/
def rowPairs (f : Fmt) (x : Nat) (k : DWord) (vals : Nat → Int) (old : List Byte) : List (Nat × Byte) :=
  (touched f.width k).map fun o => (x + o, (mergedRow f k vals old).getD o 0)

/-- The core may store to every byte that the performed lanes touch. -/
def rowStorable (s : State) (R x w : Nat) (k : DWord) : Bool :=
  (touched w k).all fun o =>
    match s.regionAt R (x + o) with
    | none => false
    | some (_, r) => r.kind != 3 && !r.inCurrent (x + o)

theorem storeRow_eq (s : State) (R x : Nat) (f : Fmt) (k : DWord) (vals : Nat → Int) (p : VPort) :
    s.storeRow R x f k vals p = if rowStorable s R x f.width k then
      let t := (s.checkGroups R (partGroups f.width x k) p).2
      (t.freshGroups R (partGroups f.width x k)).corePairs R
        (rowPairs f x k vals (t.vbytes R x (rowBytes f.width 64))) p
    else s.violate R x := rfl

theorem rowPairs_within {f : Fmt} {x : Nat} {k : DWord} {vals : Nat → Int} {old : List Byte} {e : Nat × Byte}
    (h : e ∈ rowPairs f x k vals old) : x ≤ e.1 ∧ e.1 < x + rowBytes f.width 64 := by
  obtain ⟨o, ho, rfl⟩ := List.mem_map.1 h
  have := lt_of_mem_touched ho
  dsimp only
  omega

theorem books_freshGroups (s : State) (L : Nat) (gs : List Nat) : ClWrites (Books L) s (s.freshGroups L gs) :=
  books_updCl s L rfl rfl rfl

theorem fills_storeRow (s : State) (R x : Nat) (f : Fmt) (k : DWord) (vals : Nat → Int) (p : VPort) :
    ClWrites (Fills R fun y => x ≤ y ∧ y < x + rowBytes f.width 64) s (s.storeRow R x f k vals p) := by
  rw [storeRow_eq]
  refine clWrites_ite (fun _ => ?_) fun _ => (books_violate s R x).mono fun _ _ _ k => k.fills _
  have checked := (books_checkGroups s R (partGroups f.width x k) p).trans (books_freshGroups _ R (partGroups f.width x k))
  exact (checked.mono fun _ _ _ k => k.fills _).trans (fills_corePairs _ R p fun e => rowPairs_within)

/-- What a store of a core of cluster `L` to `n` bytes at `x` of the vault of cluster `R` may write. -/
structure Stores (L R x n : Nat) (M : Nat) (a b : Cluster) : Prop where
  cluster : M = L ∨ M = R
  site : b.site = a.site
  regs : ∀ m, SameRegs (a.core m) (b.core m)
  cores : M ≠ L → b.cores = a.cores
  bytes : ∀ y, M ≠ R ∨ y < x ∨ x + n ≤ y → mget zeroByte b.vault y = mget zeroByte a.vault y

section
variable {L R x n : Nat}

theorem CoresMove.stores {M : Nat} {a b : Cluster} (h : CoresMove L M a b) : Stores L R x n M a b :=
  ⟨.inl h.cluster, h.site, h.regs, fun ne => absurd h.cluster ne, fun _ _ => by rw [h.vault]⟩

theorem Fills.stores {at_ : Nat → Prop} {M : Nat} {a b : Cluster} (h : Fills R at_ M a b)
    (within : ∀ y, at_ y → x ≤ y ∧ y < x + n) : Stores L R x n M a b :=
  ⟨.inr h.cluster, h.site, fun m => by rw [Cluster.core, Cluster.core, h.cores]; exact sameRegs_refl _, fun _ => h.cores,
    fun y hy => h.bytes y fun hat => by have := within y hat; have := h.cluster; omega⟩

theorem Stores.trans {M : Nat} {a b c : Cluster} (h : Stores L R x n M a b) (k : Stores L R x n M b c) : Stores L R x n M a c :=
  ⟨h.cluster, k.site.trans h.site, fun m => (h.regs m).trans (k.regs m), fun ne => (k.cores ne).trans (h.cores ne),
    fun y hy => (k.bytes y hy).trans (h.bytes y hy)⟩

theorem stores_refl {M : Nat} (hM : M = L ∨ M = R) (a : Cluster) : Stores L R x n M a a :=
  ⟨hM, rfl, fun _ => sameRegs_refl _, fun _ => rfl, fun _ _ => rfl⟩

/-- The cluster that is stored to is held by a site, or is not written. -/
def StoresPlaced (L R x n : Nat) (s t : State) : Prop :=
  ClWrites (CoresMove L) s t ∨ (s.cl R).site.isSome = true ∧ ClWrites (Stores L R x n) s t

theorem StoresPlaced.cluster {s t : State} (h : StoresPlaced L R x n s t) (placed : (s.cl L).site.isSome = true) (M : Nat) :
    t.cl M = s.cl M ∨ Stores L R x n M (s.cl M) (t.cl M) := by
  obtain h | ⟨placedR, h⟩ := h
  · by_cases e : M = L
    · subst e
      exact .inr ((h.mono fun _ _ _ => CoresMove.stores (R := R) (x := x) (n := n)).read M (.inr placed) (fun _ _ k => k.site)
        (stores_refl (.inl rfl)) fun _ _ _ => Stores.trans)
    · exact .inl (h.other fun _ _ k => e k.cluster)
  · by_cases e : M = L ∨ M = R
    · refine .inr (h.read M (.inr ?_) (fun _ _ k => k.site) (stores_refl e) fun _ _ _ => Stores.trans)
      rcases e with rfl | rfl <;> assumption
    · exact .inl (h.other fun _ _ k => e k.cluster)

end

theorem gr_of_sameRegs {c c' : Core} (h : SameRegs c c') (i : Nat) : c'.gr i = c.gr i := by rw [Core.gr, Core.gr, h.g]
theorem kr_of_sameRegs {c c' : Core} (h : SameRegs c c') (i : Nat) : c'.kr i = c.kr i := by rw [Core.kr, Core.kr, h.k]
theorem vr_of_sameRegs {c c' : Core} (h : SameRegs c c') (i : Nat) : c'.vr i = c.vr i := by rw [Core.vr, Core.vr, h.v]
theorem sr_of_sameRegs {c c' : Core} (h : SameRegs c c') (i : Nat) : c'.sr i = c.sr i := by rw [Core.sr, Core.sr, h.sc]

/-! ### The stores of a core -/

theorem placed_of_askRefusal {s : State} {u : MeshUnit} {R v : Nat} (h : (s.askRefusal u (.cluster R v)).isNone = true) :
    (s.cl R).site.isSome = true := by
  unfold State.askRefusal at h
  dsimp only at h
  split at h
  · cases h
  · split at h
    next serves =>
      simp only [State.unitServes, State.reachable, Bool.and_eq_true] at serves
      exact serves.1.1
    next => cases h

theorem clWrites_answeredFenced (s : State) (L R : Nat) {K : Nat → Cluster → Cluster → Prop} :
    ClWrites K s (s.answeredFenced L R) := by
  unfold State.answeredFenced
  dsimp only
  split <;> exact .same rfl

section
variable {s : State} {who : Issue} {R x n : Nat}

/-- A store to bytes from `x` on, and what its core does after it. -/
theorem storesPlaced_of_fills {t u : State} {at_ : Nat → Prop} (placed : (s.cl R).site.isSome = true)
    (h : ClWrites (Fills R at_) s t) (within : ∀ y, at_ y → x ≤ y ∧ y < x + n) (k : ClWrites (CoresMove who.cluster) t u) :
    StoresPlaced who.cluster R x n s u :=
  .inr ⟨placed, (h.mono fun _ _ _ f => f.stores within).trans (k.mono fun _ _ _ => CoresMove.stores)⟩

end

theorem coresMove_finish (s : State) (L n : Nat) (o : Outcomes) : ClWrites (CoresMove L) s ((s.outcomes L n o).retire L n id) :=
  (coresMove_outcomes s L n o).trans (coresMove_retire_id _ L n)

theorem coresMove_remoteFinish (s : State) (L n R : Nat) (o : Outcomes) (cut : Bool) : ClWrites (CoresMove L) s
    ((if cut then (s.outcomes L n o).answeredFenced L R else s.outcomes L n o).retire L n id) :=
  (clWrites_ite (fun _ => (coresMove_outcomes s L n o).trans (clWrites_answeredFenced ..))
    fun _ => coresMove_outcomes s L n o).trans (coresMove_retire_id _ L n)

/-- Every store of a core to a vault. -/
theorem storesPlaced_of_storeRow {s t : State} {who : Issue} {i : Insn} {c : Instr} {R x n : Nat} (h : Fetches s who i)
    (row : i.storeRow s who = some (c, R, x, n)) (ht : exec c s = .next t) : StoresPlaced who.cluster R x n s t := by
  have placed := placed_of_fetches h
  have act : ∀ {run : Insn → Option (State → State)} {f : State → State}, exec c s = coreRow who s run → run i = some f →
      StoresPlaced who.cluster R x n s (f s) → StoresPlaced who.cluster R x n s t := by
    intro run f hc hr hw
    rw [hc, coreRow_fetches h hr] at ht
    cases ht
    exact hw
  cases i
  case stw d a kp off =>
    cases row
    refine act rfl rfl ?_
    unfold State.scalar
    split
    · dsimp only
      split
      · exact .inl (coresMove_coreFault ..)
      · exact storesPlaced_of_fills placed (fills_coreStore ..) (fun y => id) (coresMove_retire_id ..)
    · exact .inl (coresMove_retire_id ..)
  case sst d a kp sm16 blk off =>
    cases row
    refine act rfl rfl ?_
    dsimp only
    split
    · exact .inl (coresMove_coreFault ..)
    · unfold State.scalar
      split
      · dsimp only
        split
        · exact .inl (coresMove_coreFault ..)
        · refine storesPlaced_of_fills placed (fills_coreStore ..) (fun y hy => ?_) (coresMove_finish ..)
          simpa [Function.comp_def, leBytes_length] using hy
      · exact .inl (coresMove_retire_id ..)
  case vst d a kp fmt off =>
    obtain ⟨f, hf, e⟩ := Option.map_eq_some_iff.1 row
    cases e
    refine act rfl rfl ?_
    simp only [hf]
    split
    · exact .inl (coresMove_retire_id ..)
    · split
      · exact .inl (coresMove_coreFault ..)
      · exact storesPlaced_of_fills placed (fills_storeRow ..) (fun y => id) (coresMove_finish ..)
  case vstr d a b kp fmt =>
    obtain ⟨f, hf, e⟩ := Option.map_eq_some_iff.1 row
    cases e
    refine act rfl rfl ?_
    simp only [hf]
    split
    · exact .inl (coresMove_retire_id ..)
    · split
      · exact .inl (coresMove_coreFault ..)
      · split
        · exact .inl (coresMove_coreFault ..)
        · split
          next reached =>
            exact storesPlaced_of_fills (placed_of_askRefusal reached) (fills_storeRow ..) (fun y => id)
              (coresMove_remoteFinish ..)
          next => exact .inl ((clWrites_answeredFenced ..).trans (coresMove_retire_id ..))
  all_goals cases row

/-- Settles O9: what a store writes adds up over its steps, in the clusters that a site holds. -/
theorem storeFrame : Obligations.StoreFrame := by
  unfold Obligations.StoreFrame
  intro s t who i c R x n h row _ ht
  have placed := placed_of_fetches h
  have all := (storesPlaced_of_storeRow h row ht).cluster placed
  have own : SameRegs (s.core who.cluster who.core) (t.core who.cluster who.core) := by
    rcases all who.cluster with e | k
    · unfold State.core; rw [e]; exact sameRegs_refl _
    · exact k.regs who.core
  refine ⟨fun L a out => ?_, gr_of_sameRegs own, vr_of_sameRegs own, kr_of_sameRegs own, sr_of_sameRegs own, fun L m hL => ?_⟩
  · unfold vaultByte
    rcases all L with e | k
    · rw [e]
    · exact k.bytes a out
  · unfold State.core
    rcases all L with e | k
    · rw [e]
    · rw [k.cores hL]

end Sys2Proof.Machine
end

section
/-! PROOFS. A stored row reads back. -/
namespace Sys2Proof.Machine

open Sys2Proof

/-! ### Packed rows, bit by bit -/

theorem testBit_packNat {w : Nat} (hw : 0 < w) (l : List Nat) (j : Nat) :
    (packNat w l).testBit j = (l.getD (j / w) 0).testBit (j % w) := by
  induction l generalizing j with
  | nil => simp [packNat]
  | cons x t ih =>
    rw [packNat, Nat.add_comm, Nat.testBit_two_pow_mul_add _ (Nat.mod_lt _ (Nat.two_pow_pos w))]
    split
    next h => rw [Nat.div_eq_of_lt h, Nat.mod_eq_of_lt h]; simp [h]
    next h =>
      have hj : w ≤ j := Nat.le_of_not_lt h
      have hd : j / w = (j - w) / w + 1 := by rw [Nat.div_eq_sub_div hw hj]
      rw [ih, hd, Nat.mod_eq_sub_mod hj]
      rfl

theorem packNat_lt (w : Nat) (l : List Nat) : packNat w l < 2 ^ (w * l.length) := by
  induction l with
  | nil => simp [packNat]
  | cons x t ih =>
    have hx := Nat.mod_lt x (Nat.two_pow_pos w)
    have : 2 ^ w * packNat w t + 2 ^ w ≤ 2 ^ w * 2 ^ (w * t.length) := by
      rw [← Nat.mul_succ]; exact Nat.mul_le_mul_left _ ih
    rw [packNat, List.length_cons, Nat.mul_succ, Nat.add_comm (w * t.length), Nat.pow_add]
    omega

theorem leNat_eq_packNat (l : List Byte) : leNat l = packNat 8 (l.map BitVec.toNat) := by
  induction l with
  | nil => rfl
  | cons b t ih => rw [List.map_cons, packNat, leNat, ih, Nat.mod_eq_of_lt b.isLt]; rfl

theorem testBit_leNat (l : List Byte) (j : Nat) : (leNat l).testBit j = (l.getD (j / 8) 0).toNat.testBit (j % 8) := by
  rw [leNat_eq_packNat, testBit_packNat (by decide)]
  congr 1
  simp only [List.getD_eq_getElem?_getD, List.getElem?_map]
  cases l[j / 8]? <;> rfl

theorem testBit_leBytes (n v : Nat) {o r : Nat} (ho : o < n) (hr : r < 8) :
    ((leBytes n v).getD o 0).toNat.testBit r = v.testBit (8 * o + r) := by
  induction n generalizing v o with
  | zero => omega
  | succ n ih =>
    cases o with
    | zero =>
      simp only [leBytes, List.getD_cons_zero, BitVec.toNat_ofNat, Nat.testBit_mod_two_pow, hr]
      simp
    | succ o =>
      rw [leBytes, List.getD_cons_succ, ih (v / 256) (by omega), show 256 = 2 ^ 8 by rfl, Nat.testBit_div_two_pow]
      congr 1
      omega

theorem getD_mslice (d : Nat → Byte) (m : NMap Byte) (k n : Nat) {i : Nat} (z : Byte) (hi : i < n) :
    (mslice d m k n).getD i z = mget d m (k + i) := by
  induction n generalizing k i with
  | zero => omega
  | succ n ih =>
    cases i with
    | zero => rfl
    | succ i =>
      rw [mslice, List.getD_cons_succ, ih (k + 1) (by omega)]
      congr 1
      omega

/-- Reading back bytes that were put at `x` plus each of some offsets. -/
theorem mget_mputs_offsets {d : Nat → Byte} {m : NMap Byte} (w : mwf d m = true) (x : Nat) (v : Nat → Byte) (l : List Nat)
    (o : Nat) : mget d (mputs d m (l.map fun o => (x + o, v o))) (x + o) = if o ∈ l then v o else mget d m (x + o) := by
  induction l generalizing m with
  | nil => rfl
  | cons a t ih =>
    rw [List.map_cons, mputs, ih (mwf_mput _ _ w)]
    by_cases ht : o ∈ t
    · rw [if_pos ht, if_pos (List.mem_cons_of_mem _ ht)]
    · rw [if_neg ht]
      by_cases e : o = a
      · subst e
        rw [mget_mput_same _ _ w, if_pos (List.mem_cons_self ..)]
      · rw [mget_mput_other _ _ (by omega), if_neg (by simp [e, ht])]

/-! ### The element that a field holds -/

theorem width_pos (f : Fmt) : 0 < f.width := by cases f <;> decide

theorem rowBytes_width (f : Fmt) : 8 * rowBytes f.width 64 = f.width * 64 := by unfold rowBytes; omega

theorem field_lt_pow (f : Fmt) (v : Int) : f.field v < 2 ^ f.width := by
  have := Int.emod_lt_of_pos v (b := (2 ^ f.width : Nat)) (by exact_mod_cast Nat.two_pow_pos _)
  have := Int.emod_nonneg v (b := (2 ^ f.width : Nat)) (by exact_mod_cast (Nat.two_pow_pos _).ne')
  unfold Fmt.field
  omega

/-- An element in the stored range is the one that its field holds (R45). -/
theorem value_field (f : Fmt) {v : Int} (hlo : f.lo ≤ v) (hhi : v ≤ f.hi) : f.value (f.field v) = v := by
  cases f <;>
    simp only [Fmt.lo, Fmt.hi, Fmt.value, Fmt.field, Fmt.signed, Fmt.width, signExt, if_true, if_false,
      Bool.false_eq_true] at * <;>
    omega

theorem value_field_clamp (f : Fmt) (v : Int) : f.value (f.field (clampTo f v)) = max f.lo (min f.hi v) := by
  have : f.lo ≤ f.hi := by cases f <;> decide
  unfold clampTo
  exact value_field f (by omega) (by omega)

theorem unpackRow_eq (f : Fmt) (row : List Byte) : unpackRow f row 64
    = (List.range 64).map fun l => f.value ((leNat row >>> (f.width * l)) % 2 ^ f.width) := by
  simp [unpackRow, unpackFields, Function.comp_def]

/-! ### A stored row reads back -/

theorem getD_map_range {α : Type} (g : Nat → α) (z : α) {l n : Nat} (h : l < n) : ((List.range n).map g).getD l z = g l := by
  simp [h]

theorem testBit_rowMask (f : Fmt) (k : DWord) {j : Nat} (hj : j < f.width * 64) :
    (rowMask f.width k).testBit j = lane k (j / f.width) := by
  rw [rowMask, testBit_packNat (width_pos f), getD_map_range _ _ (Nat.div_lt_of_lt_mul hj)]
  cases lane k (j / f.width)
  · exact Nat.zero_testBit _
  · simp [Nat.testBit_two_pow_sub_one, Nat.mod_lt _ (width_pos f)]

theorem rowMask_lt (f : Fmt) (k : DWord) : rowMask f.width k < 2 ^ (8 * rowBytes f.width 64) := by
  have := packNat_lt f.width ((List.range 64).map fun l => if lane k l then 2 ^ f.width - 1 else 0)
  rwa [List.length_map, List.length_range, ← rowBytes_width] at this

/-- A byte that holds a bit of a performed lane is touched. -/
theorem mem_touched (f : Fmt) (k : DWord) {j : Nat} (hj : j < f.width * 64) (hk : lane k (j / f.width) = true) :
    j / 8 ∈ touched f.width k := by
  have hl : j / f.width < 64 := Nat.div_lt_of_lt_mul hj
  have h1 := Nat.mul_div_le j f.width
  have h2 := Nat.lt_mul_div_succ j (width_pos f)
  have hn := rowBytes_width f
  refine List.mem_filter.2 ⟨List.mem_range.2 (by omega), List.any_eq_true.2 ⟨j / f.width, List.mem_range.2 hl, ?_⟩⟩
  simp only [hk, Bool.true_and, Bool.and_eq_true, decide_eq_true_eq]
  omega

/-- Bit by bit, the merged row is the new row in the performed lanes and the old row in the others. -/
theorem testBit_mergedRow (f : Fmt) (k : DWord) (vals : Nat → Int) (old : List Byte) {j : Nat} (hj : j < f.width * 64) :
    ((mergedRow f k vals old).getD (j / 8) 0).toNat.testBit (j % 8)
      = if lane k (j / f.width) then (rowBits f vals).testBit j else (leNat old).testBit j := by
  have hn := rowBytes_width f
  rw [mergedRow, testBit_leBytes _ _ (by omega) (by omega), Nat.div_add_mod, Nat.testBit_or, Nat.testBit_and, Nat.testBit_and,
    Nat.sub_sub, Nat.add_comm 1, Nat.testBit_two_pow_sub_succ (rowMask_lt f k), testBit_rowMask f k hj, hn]
  cases lane k (j / f.width) <;> simp [hj]

/-- The row holds the merged bytes where a performed lane touches it, and the old ones elsewhere. -/
def StoredRow (f : Fmt) (k : DWord) (vals : Nat → Int) (old row : List Byte) : Prop := ∀ o < rowBytes f.width 64,
  row.getD o 0 = if o ∈ touched f.width k then (mergedRow f k vals old).getD o 0 else old.getD o 0

theorem testBit_stored {f : Fmt} {k : DWord} {vals : Nat → Int} {old row : List Byte}
    (h : StoredRow f k vals old row)
    {j : Nat} (hj : j < f.width * 64) :
    (leNat row).testBit j = if lane k (j / f.width) then (rowBits f vals).testBit j else (leNat old).testBit j := by
  have hn := rowBytes_width f
  rw [testBit_leNat, h _ (by omega)]
  split
  next => exact testBit_mergedRow f k vals old hj
  next out => rw [if_neg fun hk => out (mem_touched f k hj hk), testBit_leNat]

/-- Numbers that agree in the bits of a field have the same field. -/
theorem field_eq_of_testBit {w l m n : Nat} (h : ∀ r < w, m.testBit (w * l + r) = n.testBit (w * l + r)) :
    (m >>> (w * l)) % 2 ^ w = (n >>> (w * l)) % 2 ^ w := by
  apply Nat.eq_of_testBit_eq
  intro r
  simp only [Nat.testBit_mod_two_pow, Nat.testBit_shiftRight]
  by_cases hr : r < w
  · rw [h r hr]
  · simp [hr]

theorem field_rowBits (f : Fmt) (vals : Nat → Int) {l : Nat} (hl : l < 64) :
    (rowBits f vals >>> (f.width * l)) % 2 ^ f.width = f.field (clampTo f (vals l)) := by
  apply Nat.eq_of_testBit_eq
  intro r
  rw [Nat.testBit_mod_two_pow, Nat.testBit_shiftRight]
  by_cases hr : r < f.width
  · have hd : (f.width * l + r) / f.width = l := by rw [Nat.mul_add_div (width_pos f), Nat.div_eq_of_lt hr, Nat.add_zero]
    have hm : (f.width * l + r) % f.width = r := by rw [Nat.mul_add_mod, Nat.mod_eq_of_lt hr]
    rw [rowBits, testBit_packNat (width_pos f), hd, hm, getD_map_range _ _ hl]
    simp [hr]
  · have := Nat.testBit_lt_two_pow ((field_lt_pow f (clampTo f (vals l))).trans_le
      (Nat.pow_le_pow_right (by decide) (Nat.le_of_not_lt hr)))
    simp [hr, this]

/-- A stored row unpacks to the clamped values in the performed lanes and to the old ones in the others (R113). -/
theorem unpackRow_stored {f : Fmt} {k : DWord} {vals : Nat → Int} {old row : List Byte}
    (h : StoredRow f k vals old row) :
    unpackRow f row 64 = (List.range 64).map fun l =>
      if lane k l then max f.lo (min f.hi (vals l)) else (unpackRow f old 64).getD l 0 := by
  rw [unpackRow_eq]
  refine List.map_congr_left fun l hl => ?_
  have hl : l < 64 := List.mem_range.1 hl
  have bits : ∀ r < f.width, (leNat row).testBit (f.width * l + r)
      = if lane k l then (rowBits f vals).testBit (f.width * l + r) else (leNat old).testBit (f.width * l + r) := by
    intro r hr
    have hj : f.width * l + r < f.width * 64 := by
      have := Nat.mul_le_mul_left f.width (Nat.succ_le_of_lt hl)
      rw [Nat.mul_succ] at this
      omega
    rw [testBit_stored h hj, Nat.mul_add_div (width_pos f), Nat.div_eq_of_lt hr, Nat.add_zero]
  cases hk : lane k l
  · rw [unpackRow_eq, getD_map_range _ _ hl]
    exact congrArg f.value (field_eq_of_testBit fun r hr => by simpa [hk] using bits r hr)
  · rw [field_eq_of_testBit (n := rowBits f vals) fun r hr => by simpa [hk] using bits r hr, field_rowBits f vals hl]
    exact value_field_clamp f (vals l)

/-! ### What VST leaves -/

/-- The groups that a store of bytes covers in part. -/
def mergedGroups (l : List (Nat × Byte)) : List Nat :=
  (dedupRun (l.map fun e => e.1 / 8)).filter fun g => decide ((l.countP fun e => e.1 / 8 == g) < 8)

/-- A store of bytes puts them into the vault of a cluster that a site holds, and leaves its site and its cores. -/
theorem cl_vpairs (s : State) (L : Nat) (l : List (Nat × Byte)) (p : VPort) (placed : (s.cl L).site.isSome = true) :
    ((s.vpairs L l p).cl L).site = (s.cl L).site ∧ ((s.vpairs L l p).cl L).cores = (s.cl L).cores
      ∧ ((s.vpairs L l p).cl L).vault = mputs zeroByte (s.cl L).vault l := by
  have checked := fun gs => (books_checkGroups s L gs p).books placed
  have back := cl_setCl_placed (s.checkGroups L (mergedGroups l) p).2 L (k := { (s.checkGroups L (mergedGroups l) p).2.cl L with
    vault := mputs zeroByte ((s.checkGroups L (mergedGroups l) p).2.cl L).vault l
    bad := mputs (fun _ => false) ((s.checkGroups L (mergedGroups l) p).2.cl L).bad
      ((dedupRun (l.map fun e => e.1 / 8)).map fun g => (g, false)) }) ((checked _).site ▸ placed)
  have e : (s.vpairs L l p).cl L = _ := back
  rw [e]
  exact ⟨(checked _).site, (checked _).cores, congrArg (mputs zeroByte · l) (checked _).vault⟩

/-- Without bytes of a ring header, and in a vault without upsets, a storable row is put into the vault (R113). -/
theorem cl_storeRow {s : State} {L x : Nat} {f : Fmt} {k : DWord} {vals : Nat → Int} {p : VPort}
    (placed : (s.cl L).site.isSome = true) (sound : VaultSound s L) (storable : rowStorable s L x f.width k = true)
    (plain : ∀ o ∈ touched f.width k, s.headerByte L (x + o) = false) :
    ((s.storeRow L x f k vals p).cl L).site = (s.cl L).site ∧ ((s.storeRow L x f k vals p).cl L).cores = (s.cl L).cores
      ∧ ((s.storeRow L x f k vals p).cl L).vault
        = mputs zeroByte (s.cl L).vault (rowPairs f x k vals (s.vbytes L x (rowBytes f.width 64))) := by
  rw [storeRow_eq, if_pos storable]
  dsimp only
  rw [checkGroups_sound sound]
  dsimp only
  have fresh := (books_freshGroups s L (partGroups f.width x k)).books placed
  have noHeader : ((rowPairs f x k vals (s.vbytes L x (rowBytes f.width 64))).any fun e =>
      (s.freshGroups L (partGroups f.width x k)).headerByte L e.1) = false := by
    refine List.any_eq_false.2 fun e he => ?_
    obtain ⟨o, ho, rfl⟩ := List.mem_map.1 he
    exact ne_true_of_eq_false (plain o ho)
  rw [State.corePairs, if_neg (ne_true_of_eq_false noHeader)]
  obtain ⟨site, cores, vault⟩ := cl_vpairs (s.freshGroups L (partGroups f.width x k)) L
    (rowPairs f x k vals (s.vbytes L x (rowBytes f.width 64))) p (fresh.site ▸ placed)
  exact ⟨site.trans fresh.site, cores.trans fresh.cores, by rw [vault, fresh.vault]⟩

/-- The bytes of a row in the vault after its store. -/
theorem getD_vbytes_stored {m : NMap Byte} (w : mwf zeroByte m = true) (f : Fmt) (x : Nat) (k : DWord) (vals : Nat → Int)
    (old : List Byte) {o : Nat} (ho : o < rowBytes f.width 64) (he : old = mslice zeroByte m x (rowBytes f.width 64)) :
    (mslice zeroByte (mputs zeroByte m (rowPairs f x k vals old)) x (rowBytes f.width 64)).getD o 0
      = if o ∈ touched f.width k then (mergedRow f k vals old).getD o 0 else old.getD o 0 := by
  rw [getD_mslice _ _ _ _ _ ho, rowPairs, mget_mputs_offsets w x (fun o => (mergedRow f k vals old).getD o 0) _ o]
  conv_rhs => rw [he, getD_mslice _ _ _ _ _ ho]
  rw [← he]

theorem testBit_saturated (o : Outcomes) : o.bits.testBit 16 = o.saturated := by
  obtain ⟨a, b, c, d, e, g⟩ := o
  cases a <;> cases b <;> cases c <;> cases d <;> cases e <;> cases g <;> rfl

theorem saturates_eq (f : Fmt) (k : DWord) (vals : Nat → Int) : saturates f k vals
    = (List.range 64).any fun l => lane k l && decide (vals l < f.lo ∨ f.hi < vals l) := by
  have : f.lo ≤ f.hi := by cases f <;> decide
  unfold saturates
  congr 1
  funext l
  congr 1
  rw [decide_eq_decide, clampTo]
  omega

/-- After the end of an instruction, its core has the flags noted, and the vault is as it was. -/
theorem finished (s : State) {L n : Nat} (o : Outcomes) (placed : (s.cl L).site.isSome = true) (hn : n < 3)
    (hr : (s.core L n).run = .running) :
    (((s.outcomes L n o).retire L n id).core L n).sticky = (s.core L n).sticky ||| o.bits
      ∧ (((s.outcomes L n o).retire L n id).cl L).vault = (s.cl L).vault := by
  have moved := fun t (h : ClWrites (CoresMove L) s t) => h.read L (.inr placed) (fun _ _ k => k.site)
    (fun _ => (books_refl L _).coresMove) fun _ _ _ h k =>
      ⟨rfl, k.site.trans h.site, k.vault.trans h.vault, fun n => (h.regs n).trans (k.regs n)⟩
  have noted := moved _ (coresMove_outcomes s L n o)
  refine ⟨?_, (moved _ (coresMove_finish s L n o)).vault⟩
  unfold State.retire State.updCore
  rw [core_setCore_placed (noted.site ▸ placed) _ hn, core_outcomes o hn hr]
  rfl

/-- Settles O12: the stored bytes hold, bit by bit, the clamped lanes where the predicate is set and the old row elsewhere. -/
theorem vstStoresItsLanes : Obligations.VstStoresItsLanes := by
  unfold Obligations.VstStoresItsLanes
  intro s who d a kp fmt off f
  dsimp only
  intro h sound canonical hf some_ aligned inside regions
  have placed := placed_of_fetches h
  generalize hc : s.core who.cluster who.core = c at *
  have storable : rowStorable s who.cluster (c.addr a off) f.width (c.kr kp) = true := by
    refine List.all_eq_true.2 fun o ho => ?_
    obtain ⟨i, r, hr, h3, _, hcur⟩ := regions o ho
    simp [hr, h3, hcur]
  have plain : ∀ o ∈ touched f.width (c.kr kp), s.headerByte who.cluster (c.addr a off + o) = false := by
    intro o ho
    obtain ⟨i, r, hr, _, h4, _⟩ := regions o ho
    simp [State.headerByte, hr, h4]
  obtain ⟨site, cores, vault⟩ := cl_storeRow (vals := fun l => (c.vl d l).toInt) (p := corePort who.core) placed sound storable
    plain
  have ran : exec (.vst who) s = .next (((s.storeRow who.cluster (c.addr a off) f (c.kr kp) (fun l => (c.vl d l).toInt)
      (corePort who.core)).outcomes who.cluster who.core
        { saturated := saturates f (c.kr kp) fun l => (c.vl d l).toInt }).retire who.cluster who.core id) := by
    refine coreRow_next h rfl ?_
    simp only [hc, hf, some_, if_false, accessFault_none aligned inside]
  generalize hu : s.storeRow who.cluster (c.addr a off) f (c.kr kp) (fun l => (c.vl d l).toInt) (corePort who.core) = u at *
  have core : u.core who.cluster who.core = c := by rw [← hc, State.core, State.core, cores]
  obtain ⟨sticky, kept⟩ := finished u { saturated := saturates f (c.kr kp) fun l => (c.vl d l).toInt }
    (site ▸ placed) (core_lt_of_fetches h) (by rw [core, ← hc]; exact running_of_fetches h)
  refine ⟨_, ran, ?_, ?_, fun b out => ?_⟩
  · refine unpackRow_stored fun o ho => ?_
    rw [State.vbytes, kept, vault]
    exact getD_vbytes_stored canonical f _ _ _ _ ho rfl
  · rw [sticky, core, Nat.testBit_or, testBit_saturated, saturates_eq]
  · have row : Insn.storeRow s who (.vst d a kp fmt off) = some (.vst who, who.cluster, c.addr a off, rowBytes f.width 64) := by
      rw [← hc]; simp [Insn.storeRow, hf]
    exact (storeFrame s _ who _ _ _ _ _ h row sound ran).1 who.cluster b (.inr out)

end Sys2Proof.Machine
end

section
/-! PROOFS. Rows of the instruction set keep clusters sound. -/
namespace Sys2Proof.Machine

open Sys2Proof

/-! ### Writes that keep vaults canonical and teller predicates one bit wide -/

/-- A predicate register of the teller holds one bit (R103). -/
def TellerSound (c : Core) : Prop := ∀ i, i ≠ 0 → c.kr i &&& 1 = c.kr i

structure ClusterSound (k : Cluster) : Prop where
  vault : mwf zeroByte k.vault = true
  teller : TellerSound (k.core 0)

/-- A write of any cluster that keeps it sound, and at its site. -/
structure KeepsSound (M : Nat) (a b : Cluster) : Prop where
  site : b.site = a.site
  sound : ClusterSound a → ClusterSound b

/-- From `s` to `t` clusters change by writes that keep them sound. -/
def Keeps (s t : State) : Prop := ClWrites KeepsSound s t

theorem Keeps.trans {s t u : State} (h : Keeps s t) (k : Keeps t u) : Keeps s u := ClWrites.trans h k

theorem keeps_refl (s : State) : Keeps s s := ClWrites.refl s

theorem keeps_same {s t : State} (h : t.clusters = s.clusters) : Keeps s t := .same h

theorem keeps_congr {s t u : State} (h : Keeps s t) (e : u.clusters = t.clusters) : Keeps s u := ClWrites.congr h e

theorem coresSound_of_keeps {s t : State} (h : Keeps s t) (sound : CoresSound s) : CoresSound t := by
  have kept : ∀ M, ClusterSound (t.cl M) := fun M =>
    (ClWrites.read h M (.inl sound.clusters) (fun _ _ k => k.site) (fun _ => ⟨rfl, id⟩)
      fun _ _ _ h k => ⟨k.site.trans h.site, k.sound ∘ h.sound⟩).sound ⟨sound.vaults M, sound.tellers M⟩
  exact ⟨ClWrites.canonical h sound.clusters, fun M => (kept M).vault, fun M => (kept M).teller⟩

theorem tellerSound_of_k {c c' : Core} (h : c'.k = c.k) (sound : TellerSound c) : TellerSound c' := fun i hi => by
  have : c'.kr i = c.kr i := by rw [Core.kr, Core.kr, h]
  rw [this]
  exact sound i hi

theorem CoresMove.keepsSound {L M : Nat} {a b : Cluster} (h : CoresMove L M a b) : KeepsSound M a b :=
  ⟨h.site, fun k => ⟨by rw [h.vault]; exact k.vault, tellerSound_of_k (h.regs 0).k k.teller⟩⟩

theorem keeps_coresMove {s t : State} {L : Nat} (h : ClWrites (CoresMove L) s t) : Keeps s t :=
  h.mono fun _ _ _ => CoresMove.keepsSound

theorem keeps_books {s t : State} {L : Nat} (h : ClWrites (Books L) s t) : Keeps s t := keeps_coresMove (coresMove_books h)

theorem keeps_updCl (s : State) (L : Nat) {f : Cluster → Cluster} (site : (f (s.cl L)).site = (s.cl L).site)
    (cores : (f (s.cl L)).cores = (s.cl L).cores) (vault : (f (s.cl L)).vault = (s.cl L).vault) : Keeps s (s.updCl L f) :=
  keeps_books (books_updCl s L site cores vault)

/-- A write of a core keeps its cluster sound where it keeps a teller's predicates. -/
theorem keeps_updCore (s : State) (L n : Nat) {f : Core → Core}
    (h : n = 0 → TellerSound (s.core L n) → TellerSound (f (s.core L n))) : Keeps s (s.updCore L n f) := by
  unfold State.updCore State.setCore
  refine clWrites_updCl ⟨rfl, fun k => ⟨k.vault, ?_⟩⟩
  unfold Cluster.core
  rw [getD_setIfInBounds]
  split
  next e => exact h e.1 (e.1 ▸ k.teller)
  next => exact k.teller

theorem keeps_retire (s : State) (L n : Nat) {f : Core → Core}
    (h : n = 0 → TellerSound (s.core L n) → TellerSound (f (s.core L n))) : Keeps s (s.retire L n f) :=
  keeps_updCore s L n h

/-- A vector core's predicates are not a teller's. -/
theorem keeps_retire_vector (s : State) {L n : Nat} (hn : n ≠ 0) (f : Core → Core) : Keeps s (s.retire L n f) :=
  keeps_retire s L n fun e => absurd e hn

theorem setG_k (c : Core) (d : Nat) (w : Word) : (c.setG d w).k = c.k := by
  unfold Core.setG
  split <;> rfl

theorem tellerSound_setG {c : Core} (d : Nat) (w : Word) (h : TellerSound c) : TellerSound (c.setG d w) :=
  tellerSound_of_k (setG_k c d w) h

theorem tellerSound_setK {c : Core} (d : Nat) (w : DWord) (h : TellerSound c) : TellerSound (c.setK true d w) := by
  intro i hi
  unfold Core.setK
  split
  · exact h i hi
  · simp only [Core.kr, hi, if_false, getD_setIfInBounds, if_true]
    split
    · rw [BitVec.and_assoc, BitVec.and_self]
    · have := h i hi
      simpa only [Core.kr, hi, if_false] using this

theorem keeps_retire_id (s : State) (L n : Nat) : Keeps s (s.retire L n id) := keeps_retire s L n fun _ => id

theorem keeps_writesG (s : State) (L n d : Nat) (f : Core → Word) : Keeps s (s.writesG L n d f) :=
  keeps_retire s L n fun _ => tellerSound_setG d _

theorem keeps_retire_setG (s : State) (L n d : Nat) (w : Word) : Keeps s (s.retire L n fun c => c.setG d w) :=
  keeps_writesG s L n d fun _ => w

theorem keeps_retire_setG2 (s : State) (L n d b : Nat) (v w : Word) : Keeps s (s.retire L n fun c => (c.setG d v).setG b w) :=
  keeps_retire s L n fun _ h => tellerSound_setG b w (tellerSound_setG d v h)

theorem keeps_block (s : State) (L n : Nat) (w : Wait) : Keeps s (s.block L n w) := keeps_coresMove (coresMove_block ..)

theorem keeps_wouldBlock (s : State) (L n d : Nat) (w : Wait) : Keeps s (s.wouldBlock L n d w) := by
  unfold State.wouldBlock
  dsimp only
  exact keeps_updCore s L n fun _ h => tellerSound_of_k (setG_k (s.core L n) d 1) h

theorem keeps_tryOrBlock (s : State) (L n d : Nat) (w : Wait) (try_ : Bool) :
    Keeps s (if try_ then s.wouldBlock L n d w else s.block L n w) :=
  clWrites_ite (fun _ => keeps_wouldBlock ..) fun _ => keeps_block ..

theorem keeps_coreFault (s : State) (L n code : Nat) : Keeps s (s.coreFault L n code) := keeps_coresMove (coresMove_coreFault ..)

theorem keeps_finc (s : State) (f : Fld) (i : Nat) : Keeps s (s.finc f i) := keeps_same rfl

theorem keeps_fset (s : State) (f : Fld) (i x : Nat) : Keeps s (s.fset f i x) := keeps_same rfl

theorem keeps_progress (s : State) (L : Nat) : Keeps s (s.progress L) := keeps_updCl s L rfl rfl rfl

theorem keeps_report (s : State) (v b c i : Nat) (x : Option Nat) (d : List Word) : Keeps s (s.report v b c i x d) :=
  clWrites_report ..

theorem keeps_markClusterFault (s : State) (L st : Nat) : Keeps s (s.markClusterFault L st) :=
  clWrites_of_kept (kept_markClusterFault ..)

theorem keeps_take (s : State) : Keeps s s.take.2 := keeps_same rfl

/-- The cores of a cluster stop, which is recorded, and its context is marked (R126). -/
theorem keeps_stopped (s : State) (L n code v b c i st : Nat) (x : Option Nat) (d : List Word) :
    Keeps s (((s.stopCores L n code).report v b c i x d).markClusterFault L st) :=
  ((keeps_coresMove (coresMove_stopCores s L n code)).trans (keeps_report ..)).trans (keeps_markClusterFault ..)

theorem keeps_outcomes (s : State) (L n : Nat) (o : Outcomes) : Keeps s (s.outcomes L n o) :=
  keeps_coresMove (coresMove_outcomes ..)

theorem keeps_scaleRecord (s : State) (L n : Nat) (invalid : Bool) : Keeps s (s.scaleRecord L n invalid) :=
  clWrites_ite (fun _ => keeps_report ..) fun _ => keeps_refl s

theorem keeps_scalar {s : State} (L n kp : Nat) {f : State → State} (h : Keeps s (f s)) : Keeps s (s.scalar L n kp f) :=
  coresMove_scalar s L n kp (fun _ _ _ => CoresMove.keepsSound) h

theorem keeps_ite {P : Prop} [Decidable P] {s t u : State} (h : Keeps s t) (k : Keeps s u) : Keeps s (if P then t else u) :=
  clWrites_ite (fun _ => h) fun _ => k

/-! ### Faults of hardware -/

theorem keeps_coreHwFault (s : State) (L n : Nat) (k : HwKind) (code : Nat) (j : Bool) :
    Keeps s (s.coreHwFault L n k code j) := by
  unfold State.coreHwFault
  refine Keeps.trans (Keeps.trans ?_ (keeps_coresMove (coresMove_stopCores _ L n code))) (keeps_books (books_hwFault ..))
  exact keeps_ite (keeps_refl s) (keeps_updCl s L rfl rfl rfl)

theorem keeps_residueFault (s : State) (L n : Nat) (j : Bool) : Keeps s (s.residueFault L n j) := by
  unfold State.residueFault
  refine Keeps.trans ?_ (keeps_coreHwFault ..)
  exact keeps_ite (keeps_same rfl) (keeps_same rfl)

theorem keeps_checked {s : State} {L n : Nat} {mask : DWord} {u : Upset} {f : State → State} (h : Keeps s (f s)) :
    Keeps s (s.checked L n mask u f) := by
  unfold State.checked
  split
  · exact keeps_residueFault ..
  · exact h

theorem clusters_noteRow (s : State) (array row : Nat) : (s.noteRow array row).clusters = s.clusters := by
  unfold State.noteRow
  dsimp only
  split
  · split <;> rfl
  · rfl

theorem keeps_applyUpset (s : State) (who : Issue) : Keeps s (s.applyUpset who).2 := by
  unfold State.applyUpset
  split
  case h_1 =>
    split
    · dsimp only
      split
      · exact keeps_same (clusters_noteRow ..)
      · exact keeps_same rfl
    · exact keeps_refl s
  case h_2 => exact keeps_ite (keeps_same rfl) (keeps_refl s)
  case h_3 => dsimp only; exact keeps_updCl s _ rfl rfl rfl
  case h_4 => exact keeps_ite (keeps_same rfl) (keeps_refl s)
  case h_5 => exact keeps_refl s

/-! ### Reads and stores of a vault -/

theorem keeps_vpairs (s : State) (L : Nat) (l : List (Nat × Byte)) (p : VPort) : Keeps s (s.vpairs L l p) := by
  unfold State.vpairs
  refine (keeps_books (books_checkGroups s L _ p)).trans (clWrites_updCl ?_)
  exact ⟨rfl, fun k => ⟨mwf_mputs _ k.vault, k.teller⟩⟩

theorem keeps_corePairs (s : State) (L : Nat) (l : List (Nat × Byte)) (p : VPort) : Keeps s (s.corePairs L l p) :=
  keeps_ite (keeps_congr (keeps_vpairs s L _ p) rfl) (keeps_vpairs s L l p)

theorem keeps_violate (s : State) (L a : Nat) : Keeps s (s.violate L a) := keeps_books (books_violate ..)

theorem keeps_vload (s : State) (L a n : Nat) (p : VPort) : Keeps s (s.vload L a n p).2.2 := keeps_books (books_vload ..)

theorem keeps_checkGroups (s : State) (L : Nat) (gs : List Nat) (p : VPort) : Keeps s (s.checkGroups L gs p).2 :=
  keeps_books (books_checkGroups ..)

theorem keeps_coreStore (s : State) (L a : Nat) (b : List Byte) (p : VPort) : Keeps s (s.coreStore L a b p) :=
  keeps_ite (keeps_corePairs ..) (keeps_violate ..)

theorem keeps_storeRow (s : State) (R x : Nat) (f : Fmt) (k : DWord) (vals : Nat → Int) (p : VPort) :
    Keeps s (s.storeRow R x f k vals p) := by
  rw [storeRow_eq]
  refine keeps_ite ?_ (keeps_violate ..)
  exact ((keeps_checkGroups s R _ p).trans (keeps_books (books_freshGroups ..))).trans (keeps_corePairs ..)

theorem keeps_loadRow (s : State) (R x : Nat) (f : Fmt) (k : DWord) (p : VPort) : Keeps s (s.loadRow R x f k p).2 := by
  unfold State.loadRow
  dsimp only
  split
  · exact keeps_checkGroups ..
  · exact keeps_violate ..

theorem keeps_answeredFenced (s : State) (L R : Nat) : Keeps s (s.answeredFenced L R) := clWrites_answeredFenced ..

/-! ### Tokens, messages and requests -/

theorem keeps_setEp (s : State) (L q : Nat) (e : Endpoint) : Keeps s (s.setEp L q e) := keeps_updCl s L rfl rfl rfl

theorem keeps_setSend (s : State) (L n : Nat) (x : Option Send) : Keeps s (s.setSend L n x) := keeps_updCl s L rfl rfl rfl

theorem keeps_inject (s : State) (p : Packet) : Keeps s (s.inject p) := keeps_same rfl

theorem keeps_injectMsg (s : State) (L n c : Nat) (m : List Byte) : Keeps s (s.injectMsg L n c m) := keeps_same rfl

theorem keeps_sendToken (s : State) (L q unit srcEp : Nat) (e : Endpoint) (mask : DWord) (scales lanes : List Word)
    (poison : Bool) : Keeps s (s.sendToken L q unit srcEp e mask scales lanes poison) := by
  unfold State.sendToken
  split
  · exact keeps_refl s
  · refine Keeps.trans ?_ (keeps_progress _ L)
    refine (keeps_setEp s L q { e with credits := e.credits - 1 }).trans (keeps_ite (keeps_same rfl) ?_)
    split <;> exact keeps_same rfl

theorem keeps_sendClear (s : State) (L tag row unit : Nat) (sm16 : Bool) (scale : Nat) (lanes : List Word) (poison : Bool) :
    Keeps s (s.sendClear L tag row unit sm16 scale lanes poison) := by
  unfold State.sendClear
  split
  · exact keeps_refl s
  · split
    · exact keeps_refl s
    · exact (keeps_inject s _).trans (keeps_progress _ L)

theorem keeps_freshGroups (s : State) (L : Nat) (gs : List Nat) : Keeps s (s.freshGroups L gs) :=
  keeps_books (books_freshGroups ..)

theorem keeps_ownRead (s : State) (L : Nat) (gs : List Nat) (p : VPort) (rerun : Bool) : Keeps s (s.ownRead L gs p rerun).2 := by
  unfold State.ownRead
  dsimp only
  split
  · exact keeps_refl s
  · refine Keeps.trans (Keeps.trans ?_ (clWrites_updCl ?_)) (keeps_freshGroups _ L _)
    · refine clWrites_forEach _ s fun g _ s => ?_
      have recorded := (keeps_books (books_parityCount s L g p false)).trans
        (keeps_books (books_hwRecord _ L .parity blkVLT 1 false (s.parityDetail L (8 * g))))
      exact keeps_ite (recorded.trans (clWrites_markRerun ..)) recorded
    · exact ⟨rfl, fun k => ⟨mwf_mputs _ k.vault, k.teller⟩⟩

theorem keeps_updSite (s : State) (n : Nat) (f : Site → Site) : Keeps s (s.updSite n f) := keeps_same rfl

theorem keeps_spareRead (s : State) (L n : Nat) (gs : List Nat) (p : VPort) : Keeps s (s.spareRead L n gs p) := by
  unfold State.spareRead
  dsimp only
  refine Keeps.trans ?_ (keeps_updSite ..)
  refine clWrites_forEach _ s fun g _ s => ?_
  refine Keeps.trans (Keeps.trans ?_ (keeps_books (books_hwSend ..))) (clWrites_markRerun _ L)
  exact Keeps.trans (keeps_same (clusters_parityLatch s L 0 g p false)) (keeps_updSite ..)

theorem keeps_slotRead (s : State) (L q : Nat) (e : Endpoint) : Keeps s (s.slotRead L q e) := by
  unfold State.slotRead
  split
  · exact keeps_ownRead ..
  · exact keeps_spareRead ..
  · exact keeps_refl s

theorem keeps_slotsWritten (s : State) (L q : Nat) (e : Endpoint) (i n : Nat) : Keeps s (s.slotsWritten L q e i n) := by
  unfold State.slotsWritten
  refine clWrites_forEach _ s fun k _ s => ?_
  split
  · exact keeps_freshGroups ..
  · exact keeps_same rfl
  · exact keeps_refl s

theorem keeps_passTokens (s : State) (k : Nat) : Keeps s (s.passTokens k) := by
  unfold State.passTokens
  dsimp only
  split
  · exact keeps_refl s
  · split
    · exact keeps_congr ((keeps_setEp ..).trans (keeps_slotsWritten ..)) rfl
    · exact keeps_refl s

theorem keeps_giveBack (s : State) (L q : Nat) (p : Producer) : Keeps s (s.giveBack L q p) := by
  unfold State.giveBack
  split
  · exact keeps_same rfl
  · split
    · exact keeps_ite (keeps_refl s) (keeps_setEp ..)
    · exact keeps_refl s
  · exact keeps_refl s

theorem keeps_returnCredit (s : State) (L q : Nat) (p : Producer) : Keeps s (s.returnCredit L q p) := by
  unfold State.returnCredit
  refine (keeps_giveBack s L q p).trans ?_
  dsimp only
  split
  · exact keeps_passTokens ..
  · exact keeps_refl _

theorem keeps_qsend (s : State) (L n : Nat) (try_ : Bool) (v sc k g q : Nat) : Keeps s (s.qsend L n try_ v sc k g q) := by
  unfold State.qsend
  split
  · exact keeps_coreFault ..
  · refine keeps_ite (keeps_coreFault ..) (keeps_ite ?_ (keeps_ite (keeps_tryOrBlock ..) ?_))
    · exact (keeps_sendClear ..).trans (keeps_retire_setG ..)
    · exact (keeps_sendToken ..).trans (keeps_retire_setG ..)

/-- QRECV is of the vector cores, whose predicates are not a teller's. -/
theorem keeps_qrecv (s : State) (L : Nat) {n : Nat} (hn : n ≠ 0) (try_ : Bool) (v sc k g q : Nat) :
    Keeps s (s.qrecv L n try_ v sc k g q) := by
  unfold State.qrecv
  split
  · exact keeps_coreFault ..
  · refine keeps_ite (keeps_coreFault ..) ?_
    split
    · exact keeps_tryOrBlock ..
    · refine Keeps.trans ?_ (keeps_retire_vector _ hn _)
      exact (((keeps_slotRead ..).trans (keeps_setEp ..)).trans (keeps_returnCredit ..)).trans (keeps_progress ..)

theorem keeps_refuseSend (s : State) (L n d b code : Nat) (m : List Byte) : Keeps s (s.refuseSend L n d b code m) := by
  unfold State.refuseSend
  dsimp only
  refine Keeps.trans ?_ (keeps_retire_setG2 ..)
  exact keeps_same rfl

theorem keeps_send (s : State) (L n d a b : Nat) (try_ : Bool) : Keeps s (s.send L n d a b try_) := by
  unfold State.send
  split
  · exact keeps_refl s
  · refine keeps_ite (keeps_refuseSend ..) ?_
    have head := keeps_vload s L ((s.core L n).gr a).toNat 32 .message
    dsimp only
    split
    · exact head.trans (keeps_refuseSend ..)
    · refine Keeps.trans (Keeps.trans ?_ (keeps_injectMsg ..)) (keeps_block ..)
      exact (head.trans (keeps_vload ..)).trans (keeps_setSend ..)

theorem keeps_updDma (s : State) (L : Nat) (f : Dma → Dma) : Keeps s (s.updDma L f) := keeps_updCl s L rfl rfl rfl

theorem keeps_acceptDma (s : State) (L a : Nat) : Keeps s (s.acceptDma L a).2.2 := by
  unfold State.acceptDma
  have read := keeps_vload s L a 64 .dma
  dsimp only
  generalize (if (s.vload L a 64 .dma).2.1 then some 7 else _ : Option Nat) = code
  cases code <;> dsimp only
  · exact read.trans (keeps_updDma ..)
  · exact read.trans (keeps_same rfl)

theorem keeps_dmaq (s : State) (L n : Nat) (try_ : Bool) (d a b : Nat) : Keeps s (s.dmaq L n try_ d a b) := by
  unfold State.dmaq
  refine keeps_ite (keeps_coreFault ..) (keeps_ite (keeps_coreFault ..) (keeps_ite (keeps_tryOrBlock ..) ?_))
  exact (keeps_acceptDma ..).trans (keeps_retire_setG2 ..)

theorem keeps_dmapop (s : State) (L n : Nat) (try_ : Bool) (d b : Nat) : Keeps s (s.dmapop L n try_ d b) := by
  unfold State.dmapop
  split
  · exact keeps_tryOrBlock ..
  · exact ((keeps_updDma ..).trans (keeps_progress ..)).trans (keeps_retire_setG2 ..)

theorem keeps_updMatrix (s : State) (L : Nat) (f : Matrix → Matrix) : Keeps s (s.updMatrix L f) := keeps_updCl s L rfl rfl rfl

theorem keeps_refuseDesc (s : State) (L tag code : Nat) : Keeps s (s.refuseDesc L tag code) := by
  unfold State.refuseDesc
  have counted : Keeps s (((s.updMatrix L fun m => { m with done := m.done ++ [completion tag code 0] }).finc
      MXC_ERROR.COUNT L).fset MXC_ERROR.LAST L code) := ((keeps_updMatrix ..).trans (keeps_finc ..)).trans (keeps_fset ..)
  refine keeps_ite counted (counted.trans ?_)
  exact (keeps_updCl _ L rfl rfl rfl).trans (keeps_report ..)

theorem keeps_acceptDesc (s : State) (L a : Nat) : Keeps s (s.acceptDesc L a) := by
  unfold State.acceptDesc
  have read := keeps_vload s L a 64 .matrixA
  dsimp only
  split
  · exact read.trans (keeps_refuseDesc ..)
  · split
    · exact read.trans (keeps_refuseDesc ..)
    · exact read.trans (keeps_updMatrix ..)

theorem keeps_mxi (s : State) (L n : Nat) (try_ : Bool) (d a : Nat) : Keeps s (s.mxi L n try_ d a) := by
  unfold State.mxi
  refine keeps_ite (keeps_coreFault ..) (keeps_ite (keeps_coreFault ..) (keeps_ite (keeps_tryOrBlock ..) ?_))
  exact (keeps_acceptDesc ..).trans (keeps_retire_setG ..)

theorem keeps_popCompletion (s : State) (L : Nat) : Keeps s (s.popCompletion L) :=
  keeps_ite (keeps_refl s) ((keeps_updMatrix ..).trans (keeps_progress ..))

theorem keeps_mxpop (s : State) (L n : Nat) (try_ : Bool) (d b : Nat) : Keeps s (s.mxpop L n try_ d b) := by
  unfold State.mxpop
  split
  · exact keeps_tryOrBlock ..
  · exact (keeps_popCompletion ..).trans (keeps_retire_setG2 ..)

/-! ### Rows of the instruction set -/

/-- An issued row keeps clusters sound where each instruction of its class that it runs does. -/
theorem keeps_issue {s : State} {who : Issue} {run : Insn → Option (State → State)}
    (h : ∀ i f, run i = some f → i.wrongCore who.core = false → ∀ s, Keeps s (f s)) : Keeps s (s.issue who run) := by
  unfold State.issue
  dsimp only
  refine keeps_ite (keeps_ite (keeps_coreFault ..) ?_) (keeps_refl s)
  have upset := keeps_applyUpset s who
  split
  next s' e =>
    rw [e] at upset
    exact upset.trans (keeps_coreHwFault ..)
  next s' e =>
    rw [e] at upset
    split
    · exact upset.trans (keeps_coreFault ..)
    next i _ =>
      split
      · exact upset.trans (keeps_coreFault ..)
      next known =>
        split
        next f hf => exact upset.trans (h i f hf (eq_false_of_ne_true known) s')
        next => exact keeps_refl s

/-- A row of the instruction set that keeps clusters sound. -/
def RowKeeps (c : Instr) : Prop := ∀ s t, exec c s = .next t → Keeps s t

theorem rowKeeps_of_run {c : Instr} {who : Issue} {run : Insn → Option (State → State)} (hc : ∀ s, exec c s = coreRow who s run)
    (h : ∀ i f, run i = some f → i.wrongCore who.core = false → ∀ s, Keeps s (f s)) : RowKeeps c := by
  intro s t ht
  rw [hc, coreRow, onUnit] at ht
  split at ht
  · cases ht; exact keeps_issue h
  · cases ht

theorem core_ne_zero {i : Insn} {n : Nat} (h : i.wrongCore n = false) (vector : i.cls = .vector) : n ≠ 0 := by
  rintro rfl
  simp [Insn.wrongCore, vector, CoreClass.lacks] at h

theorem beq_zero_true {n : Nat} (h : n = 0) : (n == 0) = true := by simp [h]

theorem tellerSound_setK_own {c : Core} {n : Nat} (hn : n = 0) (d : Nat) (w : DWord) (h : TellerSound c) :
    TellerSound (c.setK (n == 0) d w) := by
  rw [beq_zero_true hn]
  exact tellerSound_setK d w h

theorem tellerSound_kop {c : Core} {n : Nat} (hn : n = 0) (fn : KopFn) (d a b : Nat) (h : TellerSound c) :
    TellerSound (kop (n == 0) fn d a b c) := by
  cases fn
  case COUNT => exact tellerSound_setG d _ h
  all_goals exact tellerSound_setK_own hn d _ h

theorem keeps_jump (s : State) (L n : Nat) {f : Core → Core} (pc : Core → Nat) (h : (f (s.core L n)).k = (s.core L n).k) :
    Keeps s (s.jump L n f pc) := keeps_updCore s L n fun _ => tellerSound_of_k h

theorem keeps_vectorAlu (s : State) (who : Issue) (fn : AluFn) (d a : Nat) (b : Core → Nat → Word) (kp : Nat)
    (hn : who.core ≠ 0) : Keeps s (s.vectorAlu who fn d a b kp) :=
  keeps_ite (keeps_checked (keeps_retire_vector _ hn _)) (keeps_retire_vector _ hn _)

/-- An instruction with a reserved FMT faults (R43, R44). -/
theorem keeps_fmt {s : State} {L n fmt : Nat} {g : Fmt → State} (h : ∀ f, Keeps s (g f)) :
    Keeps s (match Fmt.ofCode fmt with
      | none => s.coreFault L n 0x01
      | some f => g f) := by
  split
  · exact keeps_coreFault ..
  · exact h _

@[simp] theorem rowKeeps_alu (w : Issue) : RowKeeps (.alu w) := rowKeeps_of_run (fun _ => rfl) fun
  | .alu .., _, rfl, _, _ => keeps_scalar _ _ _ (keeps_writesG ..)

@[simp] theorem rowKeeps_addi (w : Issue) : RowKeeps (.addi w) := rowKeeps_of_run (fun _ => rfl) fun
  | .addi .., _, rfl, _, _ => keeps_writesG ..

@[simp] theorem rowKeeps_andi (w : Issue) : RowKeeps (.andi w) := rowKeeps_of_run (fun _ => rfl) fun
  | .andi .., _, rfl, _, _ => keeps_writesG ..

@[simp] theorem rowKeeps_ori (w : Issue) : RowKeeps (.ori w) := rowKeeps_of_run (fun _ => rfl) fun
  | .ori .., _, rfl, _, _ => keeps_writesG ..

@[simp] theorem rowKeeps_xori (w : Issue) : RowKeeps (.xori w) := rowKeeps_of_run (fun _ => rfl) fun
  | .xori .., _, rfl, _, _ => keeps_writesG ..

@[simp] theorem rowKeeps_lui (w : Issue) : RowKeeps (.lui w) := rowKeeps_of_run (fun _ => rfl) fun
  | .lui .., _, rfl, _, _ => keeps_writesG ..

@[simp] theorem rowKeeps_shli (w : Issue) : RowKeeps (.shli w) := rowKeeps_of_run (fun _ => rfl) fun
  | .shli .., _, rfl, _, _ => keeps_writesG ..

@[simp] theorem rowKeeps_shri (w : Issue) : RowKeeps (.shri w) := rowKeeps_of_run (fun _ => rfl) fun
  | .shri .., _, rfl, _, _ => keeps_writesG ..

@[simp] theorem rowKeeps_srai (w : Issue) : RowKeeps (.srai w) := rowKeeps_of_run (fun _ => rfl) fun
  | .srai .., _, rfl, _, _ => keeps_writesG ..

@[simp] theorem rowKeeps_cmp (w : Issue) : RowKeeps (.cmp w) := rowKeeps_of_run (fun _ => rfl) fun
  | .cmp .., _, rfl, _, _ => keeps_retire _ _ _ fun hn => tellerSound_setK_own hn _ _

@[simp] theorem rowKeeps_kop (w : Issue) : RowKeeps (.kop w) := rowKeeps_of_run (fun _ => rfl) fun
  | .kop .., _, rfl, _, _ => keeps_retire _ _ _ fun hn => tellerSound_kop hn _ _ _ _

@[simp] theorem rowKeeps_beqz (w : Issue) : RowKeeps (.beqz w) := rowKeeps_of_run (fun _ => rfl) fun
  | .beqz .., _, rfl, _, _ => keeps_jump _ _ _ _ rfl

@[simp] theorem rowKeeps_bnez (w : Issue) : RowKeeps (.bnez w) := rowKeeps_of_run (fun _ => rfl) fun
  | .bnez .., _, rfl, _, _ => keeps_jump _ _ _ _ rfl

@[simp] theorem rowKeeps_jr (w : Issue) : RowKeeps (.jr w) := rowKeeps_of_run (fun _ => rfl) fun
  | .jr .., _, rfl, _, _ => keeps_jump _ _ _ _ rfl

@[simp] theorem rowKeeps_jal (w : Issue) : RowKeeps (.jal w) := rowKeeps_of_run (fun _ => rfl) fun
  | .jal .., _, rfl, _, _ => keeps_jump _ _ _ _ (setG_k ..)

@[simp] theorem rowKeeps_sysNop (w : Issue) : RowKeeps (.sysNop w) := rowKeeps_of_run (fun _ => rfl) fun
  | .nop, _, rfl, _, _ => keeps_retire_id ..

@[simp] theorem rowKeeps_fence (w : Issue) : RowKeeps (.fence w) := rowKeeps_of_run (fun _ => rfl) fun
  | .fence, _, rfl, _, _ => keeps_retire_id ..

@[simp] theorem rowKeeps_halt (w : Issue) : RowKeeps (.halt w) := rowKeeps_of_run (fun _ => rfl) fun
  | .halt, _, rfl, _, _ => keeps_updCore _ _ _ fun _ => id

@[simp] theorem rowKeeps_wft (w : Issue) : RowKeeps (.wft w) := rowKeeps_of_run (fun _ => rfl) fun
  | .wft, _, rfl, _, _ => keeps_updCore _ _ _ fun _ => id

@[simp] theorem rowKeeps_vrun (w : Issue) : RowKeeps (.vrun w) := rowKeeps_of_run (fun _ => rfl) fun
  | .vrun .., _, rfl, _, _ => by
    refine keeps_ite (Keeps.trans ?_ (keeps_retire_id ..)) (keeps_block ..)
    exact keeps_updCore _ _ _ fun e => absurd e (Nat.succ_ne_zero _)

@[simp] theorem rowKeeps_vwait (w : Issue) : RowKeeps (.vwait w) := rowKeeps_of_run (fun _ => rfl) fun
  | .vwait .., _, rfl, _, _ => keeps_ite (keeps_retire_id ..) (keeps_block ..)

@[simp] theorem rowKeeps_trap (w : Issue) : RowKeeps (.trap w) := rowKeeps_of_run (fun _ => rfl) fun
  | .trap .., _, rfl, _, _ => keeps_stopped ..

@[simp] theorem rowKeeps_rdsr (w : Issue) : RowKeeps (.rdsr w) := rowKeeps_of_run (fun _ => rfl) fun
  | .rdsr .., _, rfl, _, _ => by
    dsimp only
    split
    · exact (keeps_take _).trans (keeps_writesG ..)
    · exact keeps_writesG ..
    · exact keeps_writesG ..

@[simp] theorem rowKeeps_vv (w : Issue) : RowKeeps (.vv w) := rowKeeps_of_run (fun _ => rfl) fun
  | .vv .., _, rfl, known, _ => keeps_vectorAlu _ _ _ _ _ _ _ (core_ne_zero known rfl)

@[simp] theorem rowKeeps_vs (w : Issue) : RowKeeps (.vs w) := rowKeeps_of_run (fun _ => rfl) fun
  | .vs .., _, rfl, known, _ => keeps_vectorAlu _ _ _ _ _ _ _ (core_ne_zero known rfl)

@[simp] theorem rowKeeps_vcmp (w : Issue) : RowKeeps (.vcmp w) := rowKeeps_of_run (fun _ => rfl) fun
  | .vcmp .., _, rfl, known, _ => keeps_retire_vector _ (core_ne_zero known rfl) _

@[simp] theorem rowKeeps_vcmps (w : Issue) : RowKeeps (.vcmps w) := rowKeeps_of_run (fun _ => rfl) fun
  | .vcmps .., _, rfl, known, _ => keeps_retire_vector _ (core_ne_zero known rfl) _

@[simp] theorem rowKeeps_sel (w : Issue) : RowKeeps (.sel w) := rowKeeps_of_run (fun _ => rfl) fun
  | .sel .., _, rfl, known, _ => keeps_retire_vector _ (core_ne_zero known rfl) _

@[simp] theorem rowKeeps_red (w : Issue) : RowKeeps (.red w) := rowKeeps_of_run (fun _ => rfl) fun
  | .red .., _, rfl, _, _ => keeps_ite (keeps_checked (keeps_writesG ..)) (keeps_writesG ..)

@[simp] theorem rowKeeps_lut (w : Issue) : RowKeeps (.lut w) := rowKeeps_of_run (fun _ => rfl) fun
  | .lut .., _, rfl, known, _ => keeps_ite (keeps_coreFault ..) <|
    keeps_ite (keeps_coreHwFault ..) (keeps_retire_vector _ (core_ne_zero known rfl) _)

@[simp] theorem rowKeeps_ldw (w : Issue) : RowKeeps (.ldw w) := rowKeeps_of_run (fun _ => rfl) fun
  | .ldw .., _, rfl, _, _ => keeps_scalar _ _ _ <| by
    dsimp only
    split
    · exact keeps_coreFault ..
    · exact (keeps_vload ..).trans (keeps_writesG ..)

@[simp] theorem rowKeeps_stw (w : Issue) : RowKeeps (.stw w) := rowKeeps_of_run (fun _ => rfl) fun
  | .stw .., _, rfl, _, _ => keeps_scalar _ _ _ <| by
    dsimp only
    split
    · exact keeps_coreFault ..
    · exact (keeps_coreStore ..).trans (keeps_retire_id ..)

@[simp] theorem rowKeeps_vld (w : Issue) : RowKeeps (.vld w) := rowKeeps_of_run (fun _ => rfl) fun
  | .vld .., _, rfl, known, _ => keeps_fmt fun _ => keeps_ite (keeps_retire_id ..) <| by
    dsimp only
    split
    · exact keeps_coreFault ..
    · exact (keeps_loadRow ..).trans (keeps_retire_vector _ (core_ne_zero known rfl) _)

@[simp] theorem rowKeeps_vst (w : Issue) : RowKeeps (.vst w) := rowKeeps_of_run (fun _ => rfl) fun
  | .vst .., _, rfl, _, _ => keeps_fmt fun _ => keeps_ite (keeps_retire_id ..) <| by
    dsimp only
    split
    · exact keeps_coreFault ..
    · exact ((keeps_storeRow ..).trans (keeps_outcomes ..)).trans (keeps_retire_id ..)

@[simp] theorem rowKeeps_vldr (w : Issue) : RowKeeps (.vldr w) := rowKeeps_of_run (fun _ => rfl) fun
  | .vldr .., _, rfl, known, _ => keeps_fmt fun _ => keeps_ite (keeps_retire_id ..) <| by
    have hn := core_ne_zero known rfl
    dsimp only
    split
    · exact keeps_coreFault ..
    · refine keeps_ite (keeps_coreFault ..) (keeps_ite ?_ ?_)
      · exact (keeps_loadRow ..).trans (keeps_retire_vector _ hn _)
      · exact (keeps_answeredFenced ..).trans (keeps_retire_vector _ hn _)

@[simp] theorem rowKeeps_vstr (w : Issue) : RowKeeps (.vstr w) := rowKeeps_of_run (fun _ => rfl) fun
  | .vstr .., _, rfl, _, _ => keeps_fmt fun _ => keeps_ite (keeps_retire_id ..) <| by
    dsimp only
    split
    · exact keeps_coreFault ..
    · refine keeps_ite (keeps_coreFault ..) (keeps_ite ?_ ((keeps_answeredFenced ..).trans (keeps_retire_id ..)))
      exact (keeps_storeRow ..).trans (keeps_coresMove (coresMove_remoteFinish ..))

@[simp] theorem rowKeeps_sld (w : Issue) : RowKeeps (.sld w) := rowKeeps_of_run (fun _ => rfl) fun
  | .sld .., _, rfl, known, _ => keeps_ite (keeps_coreFault ..) <| keeps_scalar _ _ _ <| by
    have hn := core_ne_zero known rfl
    dsimp only
    split
    · exact keeps_coreFault ..
    · refine keeps_ite (Keeps.trans ?_ (keeps_retire_vector _ hn _)) ((keeps_violate ..).trans (keeps_retire_vector _ hn _))
      exact ((keeps_checkGroups ..).trans (keeps_scaleRecord ..)).trans (keeps_outcomes ..)

@[simp] theorem rowKeeps_sst (w : Issue) : RowKeeps (.sst w) := rowKeeps_of_run (fun _ => rfl) fun
  | .sst .., _, rfl, _, _ => keeps_ite (keeps_coreFault ..) <| keeps_scalar _ _ _ <| by
    dsimp only
    split
    · exact keeps_coreFault ..
    · exact ((keeps_coreStore ..).trans (keeps_outcomes ..)).trans (keeps_retire_id ..)

@[simp] theorem rowKeeps_bmax (w : Issue) : RowKeeps (.bmax w) := rowKeeps_of_run (fun _ => rfl) fun
  | .bmax .., _, rfl, known, _ => keeps_fmt fun _ => keeps_ite (keeps_coreFault ..) <|
    ((keeps_scaleRecord ..).trans (keeps_outcomes ..)).trans (keeps_retire_vector _ (core_ne_zero known rfl) _)

@[simp] theorem rowKeeps_rescale (w : Issue) : RowKeeps (.rescale w) := rowKeeps_of_run (fun _ => rfl) fun
  | .rescale .., _, rfl, known, _ => keeps_fmt fun _ => keeps_ite (keeps_coreFault ..) <| by
    have hn := core_ne_zero known rfl
    split
    · exact keeps_coreFault ..
    · exact keeps_checked (((keeps_scaleRecord ..).trans (keeps_outcomes ..)).trans (keeps_retire_vector _ hn _))

@[simp] theorem rowKeeps_smul (w : Issue) : RowKeeps (.smul w) := rowKeeps_of_run (fun _ => rfl) fun
  | .smul .., _, rfl, known, _ => keeps_scalar _ _ _ <|
    (keeps_outcomes ..).trans (keeps_retire_vector _ (core_ne_zero known rfl) _)

@[simp] theorem rowKeeps_smaxe (w : Issue) : RowKeeps (.smaxe w) := rowKeeps_of_run (fun _ => rfl) fun
  | .smaxe .., _, rfl, known, _ => keeps_scalar _ _ _ <|
    (keeps_outcomes ..).trans (keeps_retire_vector _ (core_ne_zero known rfl) _)

@[simp] theorem rowKeeps_smov (w : Issue) : RowKeeps (.smov w) := rowKeeps_of_run (fun _ => rfl) fun
  | .smov .., _, rfl, known, _ => keeps_scalar _ _ _ (keeps_retire_vector _ (core_ne_zero known rfl) _)

@[simp] theorem rowKeeps_sput (w : Issue) : RowKeeps (.sput w) := rowKeeps_of_run (fun _ => rfl) fun
  | .sput .., _, rfl, known, _ => keeps_scalar _ _ _ (keeps_retire_vector _ (core_ne_zero known rfl) _)

@[simp] theorem rowKeeps_sshift (w : Issue) : RowKeeps (.sshift w) := rowKeeps_of_run (fun _ => rfl) fun
  | .sshift .., _, rfl, known, _ => keeps_scalar _ _ _ <|
    (keeps_outcomes ..).trans (keeps_retire_vector _ (core_ne_zero known rfl) _)

@[simp] theorem rowKeeps_sget (w : Issue) : RowKeeps (.sget w) := rowKeeps_of_run (fun _ => rfl) fun
  | .sget .., _, rfl, _, _ => keeps_scalar _ _ _ (keeps_writesG ..)

@[simp] theorem rowKeeps_qsend (w : Issue) : RowKeeps (.qsend w) := rowKeeps_of_run (fun _ => rfl) fun
  | .qsend false .., _, rfl, _, _ => keeps_qsend ..

@[simp] theorem rowKeeps_qsendt (w : Issue) : RowKeeps (.qsendt w) := rowKeeps_of_run (fun _ => rfl) fun
  | .qsend true .., _, rfl, _, _ => keeps_qsend ..

@[simp] theorem rowKeeps_qrecv (w : Issue) : RowKeeps (.qrecv w) := rowKeeps_of_run (fun _ => rfl) fun
  | .qrecv false .., _, rfl, known, _ => keeps_qrecv _ _ (core_ne_zero known rfl) ..

@[simp] theorem rowKeeps_qrecvt (w : Issue) : RowKeeps (.qrecvt w) := rowKeeps_of_run (fun _ => rfl) fun
  | .qrecv true .., _, rfl, known, _ => keeps_qrecv _ _ (core_ne_zero known rfl) ..

@[simp] theorem rowKeeps_msend (w : Issue) : RowKeeps (.msend w) := rowKeeps_of_run (fun _ => rfl) fun
  | .msend false .., _, rfl, _, _ => keeps_scalar _ _ _ (keeps_send ..)

@[simp] theorem rowKeeps_msendt (w : Issue) : RowKeeps (.msendt w) := rowKeeps_of_run (fun _ => rfl) fun
  | .msend true .., _, rfl, _, _ => keeps_scalar _ _ _ (keeps_send ..)

@[simp] theorem rowKeeps_dmaq (w : Issue) : RowKeeps (.dmaq w) := rowKeeps_of_run (fun _ => rfl) fun
  | .dmaq false .., _, rfl, _, _ => keeps_scalar _ _ _ (keeps_dmaq ..)

@[simp] theorem rowKeeps_dmaqt (w : Issue) : RowKeeps (.dmaqt w) := rowKeeps_of_run (fun _ => rfl) fun
  | .dmaq true .., _, rfl, _, _ => keeps_scalar _ _ _ (keeps_dmaq ..)

@[simp] theorem rowKeeps_dmapop (w : Issue) : RowKeeps (.dmapop w) := rowKeeps_of_run (fun _ => rfl) fun
  | .dmapop false .., _, rfl, _, _ => keeps_scalar _ _ _ (keeps_dmapop ..)

@[simp] theorem rowKeeps_dmapopt (w : Issue) : RowKeeps (.dmapopt w) := rowKeeps_of_run (fun _ => rfl) fun
  | .dmapop true .., _, rfl, _, _ => keeps_scalar _ _ _ (keeps_dmapop ..)

@[simp] theorem rowKeeps_mxi (w : Issue) : RowKeeps (.mxi w) := rowKeeps_of_run (fun _ => rfl) fun
  | .mxi false .., _, rfl, _, _ => keeps_scalar _ _ _ (keeps_mxi ..)

@[simp] theorem rowKeeps_mxit (w : Issue) : RowKeeps (.mxit w) := rowKeeps_of_run (fun _ => rfl) fun
  | .mxi true .., _, rfl, _, _ => keeps_scalar _ _ _ (keeps_mxi ..)

@[simp] theorem rowKeeps_mxpop (w : Issue) : RowKeeps (.mxpop w) := rowKeeps_of_run (fun _ => rfl) fun
  | .mxpop false .., _, rfl, _, _ => keeps_scalar _ _ _ (keeps_mxpop ..)

@[simp] theorem rowKeeps_mxpopt (w : Issue) : RowKeeps (.mxpopt w) := rowKeeps_of_run (fun _ => rfl) fun
  | .mxpop true .., _, rfl, _, _ => keeps_scalar _ _ _ (keeps_mxpop ..)

/-- Every row of the instruction set keeps clusters sound. -/
theorem rowKeeps_of_issue {c : Instr} {who : Issue} (h : c.issue? = some who) : RowKeeps c := by
  cases c <;> simp only [Instr.issue?, Option.some.injEq, reduceCtorEq] at h <;> simp

/-- Settles O5: every write of a cluster in a row keeps its vault canonical and its teller's predicates one bit wide. -/
theorem coreRowsKeepSound : Obligations.CoreRowsKeepSound := by
  unfold Obligations.CoreRowsKeepSound
  intro s t c rest who pending row sound ht
  rw [step, pending] at ht
  exact coresSound_of_keeps (rowKeeps_of_issue row _ _ ht) ⟨sound.clusters, sound.vaults, sound.tellers⟩

end Sys2Proof.Machine
end

section
/-! PROOFS. The operations of the DMA engine. -/
namespace Sys2Proof.Machine

open Sys2Proof

/-! ### Requests by their tag -/

/-- An event of a request of a cluster that exists has its effect. -/
theorem onDmaUnit_ok {L tag : Nat} {t u : State} (hL : L < 288) (ht : tag < 128) (effect : t = u) :
    onUnit (okCluster L && okTag tag) t = .next u := by
  rw [onUnit_ok (by rw [okCluster_of hL, okTag, decide_eq_true ht]; rfl), effect]

section
variable {s : State} {L tag op c : Nat} {q : DmaReq}

theorem tag_of_dmaReq (h : s.dmaReq L tag = some q) : q.tag = tag := by
  simpa using List.find?_some h

theorem dmaReq_of_starting (h : s.starting L tag op = some (c, q)) : s.dmaReq L tag = some q := by
  unfold State.starting at h
  split at h
  case h_1 k r _ hr =>
    split at h
    · cases h; exact hr
    · cases h
  case h_2 => cases h

theorem tag_of_starting (h : s.starting L tag op = some (c, q)) : q.tag = tag := tag_of_dmaReq (dmaReq_of_starting h)

/-- An update that keeps the tag changes the request that has it; the cluster that holds a request differs from the one that
the sparse map leaves out, so the write is read back. -/
theorem dmaReq_updReq {f : DmaReq → DmaReq} (h : s.dmaReq L tag = some q) (keeps : ∀ r, (f r).tag = r.tag) :
    (s.updReq L tag f).dmaReq L tag = some (f q) := by
  have held : (s.cl L).dma.reqs ≠ [] := fun none => by simp [State.dmaReq, none] at h
  have same : ((fun r : DmaReq => r.tag == tag) ∘ fun r => if r.tag = tag then f r else r) = fun r => r.tag == tag := by
    funext r
    by_cases hr : r.tag = tag <;> simp [hr, keeps]
  unfold State.updReq State.updCl State.dmaReq
  rw [cl_setCl_ne]
  · rw [List.find?_map, same]
    exact (congrArg _ h).trans (by simp [tag_of_dmaReq h])
  · intro blank
    exact held (List.map_eq_nil_iff.1 (congrArg (fun k : Cluster => k.dma.reqs) blank))

end

/-! ### A transfer whose vault ranges are checked (R139) -/

/-- The source of a request is no vault, or its range of the vault may be read (R134). -/
def State.sourceOk (s : State) (q : DmaReq) : Place → Bool
  | .vault M _ => s.readOk M q.src q.length
  | _ => true

/-- The destination of a request is no vault, or its range of the vault may be written (R133, R134). -/
def State.targetOk (s : State) (q : DmaReq) : Place → Bool
  | .vault M port => s.writeOk M q.dst q.length port
  | _ => true

/-- The data moves part by part, and the request holds what it met (R263, log entry 24). -/
def State.carried (s : State) (L : Nat) (q : DmaReq) (src dst : Place) (part : Nat) : State :=
  let m := s.move L src dst q.src q.dst q.length part
  m.2.moved L q.tag 0 m.1

section
variable {s : State} {L M : Nat} {q : DmaReq} {src dst : Place} {port : VPort} (part : Nat)

theorem transfer_allowed (hs : s.sourceOk q src = true) (hd : s.targetOk q dst = true) :
    s.transfer L q src dst part = s.carried L q src dst part := by
  cases dst with
  | vault N port =>
    have writable : s.writeOk N q.dst q.length port = true := hd
    cases src with
    | vault K port =>
      have readable : s.readOk K q.src q.length = true := hs
      simp [State.transfer, State.carried, readable, writable]
    | memory _ | pattern _ => simp [State.transfer, State.carried, writable]
  | memory _ | pattern _ =>
    cases src with
    | vault K port =>
      have readable : s.readOk K q.src q.length = true := hs
      simp [State.transfer, State.carried, readable]
    | memory _ | pattern _ => simp [State.transfer, State.carried]

theorem transfer_source_violates (hs : s.readOk M q.src q.length = false) :
    s.transfer L q (.vault M port) dst part = (s.violate M q.src).movedNone L q.tag 0x14 := by
  simp [State.transfer, hs]

theorem transfer_target_violates (hs : s.sourceOk q src = true) (hr : s.reachable M = true)
    (hd : s.writeOk M q.dst q.length port = false) :
    s.transfer L q src (.vault M port) part = (s.violate M q.dst).movedNone L q.tag 0x14 := by
  cases src with
  | vault K port =>
    have readable : s.readOk K q.src q.length = true := hs
    simp [State.transfer, readable, hr, hd]
  | memory _ | pattern _ => simp [State.transfer, hr, hd]

end

/-! ### Operations that start -/

section
variable {s : State} {L tag c : Nat} {q : DmaReq}

theorem dmaRead_starts (h : s.starting L tag 1 = some (c, q)) :
    s.dmaRead L tag = s.transfer L q (.memory c) (.vault L .dma) 64 := by
  simp only [State.dmaRead, h]

theorem dmaWrite_starts (h : s.starting L tag 2 = some (c, q)) :
    s.dmaWrite L tag = s.transfer L q (.vault L .dma) (.memory c) 64 := by
  simp only [State.dmaWrite, h]

theorem vcopy_starts (h : s.starting L tag 3 = some (c, q)) :
    s.vcopy L tag = if overlap q.src q.dst q.length then s.movedNone L q.tag 0x10
      else s.transfer L q (.vault L .fill) (.vault L .fill) 32 := by
  simp only [State.vcopy, h, tag_of_starting h]

theorem vfill_starts (h : s.starting L tag 4 = some (c, q)) :
    s.vfill L tag = s.transfer L q (.pattern q.pattern) (.vault L .fill) 32 := by
  simp only [State.vfill, h]

theorem mcopy_starts (h : s.starting L tag 5 = some (c, q)) :
    s.mcopy L tag = if overlap q.src q.dst q.length then s.movedNone L q.tag 0x13
      else s.transfer L q (.memory c) (.memory c) 64 := by
  simp only [State.mcopy, h, tag_of_starting h]

theorem mfill_starts (h : s.starting L tag 6 = some (c, q)) :
    s.mfill L tag = s.transfer L q (.pattern q.pattern) (.memory c) 64 := by
  simp only [State.mfill, h]

theorem xcopy_starts (h : s.starting L tag 7 = some (c, q)) :
    s.xcopy L tag = s.transfer L q (.vault L .dma) (.vault q.peer .mesh) 32 := by
  simp only [State.xcopy, h]

/-- A halo whose two ranges are good and whose neighbour answers leaves piece by piece (R146, R147). -/
theorem haloStart_starts {h : HaloRec} (hs : s.starting L tag 8 = some (c, q)) (hh : s.halo c L q.peer = some h)
    (hr : s.readOk L h.srcAddr h.length = true) (ha : s.askRefusal (.cluster L 2) (.cluster h.dst 0) = none)
    (hd : s.haloOk h.dst h.dstAddr h.length = true) :
    s.haloStart L tag = (s.forEach (haloPieces h.length) fun pc s => s.sendPiece c L tag h pc).updReq L tag fun q =>
      { q with started := true, issued := true, waiting := (haloPieces h.length).length } := by
  simp [State.haloStart, hs, hh, hr, ha, hd]

end

/-! ### A halo's data at its destination (R147) -/

/-- The halo's bytes stand in the neighbour's vault, and its request has counted them. -/
def State.haloStored (s : State) (p : Packet) (M L : Nat) : State :=
  (s.vstore M p.addr (packetBytes p) .mesh).updReq L p.reqId fun q => { q with moved := q.moved + (packetBytes p).length }

section
variable {s : State} {p : Packet} {L M u : Nat} {q : DmaReq} {h : HaloRec}

/-- The packet that brings the last of a halo's bytes has one HALO_DONE token delivered. -/
theorem haloWrite_last (hd : p.dst = .cluster M u) (hs : p.src = .cluster L 2) (clean : p.poison = false)
    (hr : s.reachable M = true) (hq : (s.vstore M p.addr (packetBytes p) .mesh).dmaReq L p.reqId = some q)
    (hh : (s.haloStored p M L).haloOf p.cx L p.reqId = some h) (whole : q.moved + (packetBytes p).length = h.length) :
    s.haloWrite p = (s.haloStored p M L).completionToken p.cx h.dst h.dstEp L .haloDone h.halo := by
  have counted : (s.haloStored p M L).dmaReq L p.reqId = some { q with moved := q.moved + (packetBytes p).length } :=
    dmaReq_updReq hq fun _ => rfl
  unfold State.haloStored at hh counted ⊢
  simp [State.haloWrite, hd, hs, clean, hr, hh, counted, whole]

theorem carriesHalo_of_haloOf (hs : p.src = .cluster L 2) (hh : s.haloOf p.cx L p.reqId = some h) :
    s.carriesHalo p = true := by
  simp [State.carriesHalo, hs, hh]

/-- A write that is due, is not refused and carries a halo's data is the halo's, and is acknowledged. -/
theorem writeReq_halo (ready : s.flying p = false ∧ s.behind p = false) (hd : p.dst = .cluster M u)
    (hn : (s.takePacket p).refusal p = none) (hh : (s.takePacket p).carriesHalo p = true) :
    s.writeReq p = ((s.takePacket p).haloWrite p).respond p .WRITE_ACK 0 false [] := by
  simp [State.writeReq, ready, hd, hn, hh]

end

/-! ### Requests that end -/

section
variable {s : State} {L tag : Nat} {q : DmaReq}

theorem dmaComplete_due (h : s.dmaReq L tag = some q) (started : q.started = true) (issued : q.issued = true)
    (answered : q.waiting = 0) (clear : q.fenced = false) :
    s.dmaComplete L tag = (s.updDma L fun d =>
      { reqs := d.reqs.filter fun r => r.tag != tag, done := d.done ++ [q.completion] }).progress L := by
  simp [State.dmaComplete, h, started, issued, answered, clear]

/-- Only the requests of the fabric, whose operations are 9 and 10, are given up (R264). -/
theorem remoteTimeout_due (h : s.dmaReq L tag = some q) (remote : q.op = 9 ∨ q.op = 10) (started : q.started = true)
    (limit : s.fget DMA_TIMEOUT.REMOTE 0 ≠ 0) (asked : (s.fabric.tx.any fun t => t.cluster == L && t.tag == tag) = true) :
    s.remoteTimeout L tag = (({ s with fabric := { s.fabric with
      tx := s.fabric.tx.filter fun t => !(t.cluster == L && (t.tag == tag || t.tag == abandonedTag)) } } : State).updReq L tag
        fun q => { q with issued := true, waiting := 0, status := if q.status = 0 then 0x25 else q.status }).dmaComplete L
          tag := by
  have due : ((q.op == 9 || q.op == 10) && q.started && s.fget DMA_TIMEOUT.REMOTE 0 != 0
      && (s.fabric.tx.any fun t => t.cluster == L && t.tag == tag)) = true := by simp [remote, started, limit, asked]
  simp only [State.remoteTimeout, h, due, if_true]

end

/-! ### The statement -/

/-- Settles O24: a request that starts is its transfer, by what its ranges allow; a halo's last write delivers the token, as
the request that counts it reads back; completion and timeout are the effects of a request that is due. -/
theorem dmaOperations : Obligations.DmaOperations := by
  unfold Obligations.DmaOperations
  refine ⟨fun s L tag q hL ht => ?_, fun s L tag q hL ht => ?_⟩
  · have run {t u : State} := onDmaUnit_ok (t := t) (u := u) hL ht
    refine ⟨fun c hs hw => run ?_, fun c hs hr => run ?_, fun c hs apart hr hw => run ?_, fun c hs hw => run ?_,
      fun c hs apart => run ?_, fun c hs => run ?_, fun c hs hr hw => run ?_, fun c hs meet => run ?_, fun c hs meet => run ?_,
      fun c hs hr => run ?_, fun c hs up hw => run ?_⟩
    · exact (dmaRead_starts hs).trans (transfer_allowed 64 rfl hw)
    · exact (dmaWrite_starts hs).trans (transfer_allowed 64 hr rfl)
    · exact ((vcopy_starts hs).trans (if_neg (by simp [apart]))).trans (transfer_allowed 32 hr hw)
    · exact (vfill_starts hs).trans (transfer_allowed 32 rfl hw)
    · exact ((mcopy_starts hs).trans (if_neg (by simp [apart]))).trans (transfer_allowed 64 rfl rfl)
    · exact (mfill_starts hs).trans (transfer_allowed 64 rfl rfl)
    · exact (xcopy_starts hs).trans (transfer_allowed 32 hr hw)
    · exact (vcopy_starts hs).trans (if_pos meet)
    · exact (mcopy_starts hs).trans (if_pos meet)
    · exact (dmaWrite_starts hs).trans (transfer_source_violates 64 hr)
    · exact (vfill_starts hs).trans (transfer_target_violates 32 rfl up hw)
  · have run {t u : State} := onDmaUnit_ok (t := t) (u := u) hL ht
    refine ⟨fun c h hs hh hr ha hd => run (haloStart_starts hs hh hr ha hd), ?_,
      fun hq started issued answered clear => run (dmaComplete_due hq started issued answered clear),
      fun hq remote started limit asked => run (remoteTimeout_due hq remote started limit asked)⟩
    rintro p M u h ok landed first hd hsrc rfl clean t hn up - - carried v hq - w hh whole
    rw [exec_writeReq s ok, writeReq_halo ⟨landed, first⟩ hd hn (carriesHalo_of_haloOf hsrc carried),
      haloWrite_last hd hsrc clean up hq hh whole]
    rfl

end Sys2Proof.Machine
end

section
/-! PROOFS. Responses at their unit, and routers that grant flits. -/
namespace Sys2Proof.Machine

open Sys2Proof

theorem okRouter_of {x y : Nat} (hx : x < 42) (hy : y < 8) : okRouter x y = true :=
  Bool.and_eq_true_iff.2 ⟨decide_eq_true hx, decide_eq_true hy⟩

/-! ### Responses at their unit -/

/-- In a partition that still takes answers, the DMA engine, unit 2 of its cluster, acts on a response (R263). -/
theorem response_dma {s : State} {L : Nat} (h : s.lateAt (s.hostPart L) = false) (reqId status addr : Nat) (poison : Bool)
    (b : List Byte) : s.response (.cluster L 2) reqId status addr poison b = s.dmaResponse L reqId status addr poison b := by
  simp [State.response, h]

/-- A fenced partition that no longer drains drops a response at its edge, whichever unit it is for (R381). -/
theorem response_late {s : State} {L : Nat} (h : s.lateAt (s.hostPart L) = true) (u reqId status addr : Nat) (poison : Bool)
    (b : List Byte) : s.response (.cluster L u) reqId status addr poison b = s.finc FNC_PART_STATUS.LATE (s.hostPart L) :=
  if_pos h

section
variable {s : State} {p : Packet} (ok : p.ok = true) (arrived : s.flying p = false)
include ok arrived

theorem exec_readRsp : exec (.readRsp p) s = .next ((s.takePacket p).response p.dst p.reqId (s.responseStatus p p.dst) p.addr
    p.poison (packetBytes p)) :=
  (onUnit_ok ok).trans (congrArg _ (if_neg (by simp [arrived])))

theorem exec_writeAck : exec (.writeAck p) s = .next ((s.takePacket p).response p.dst p.reqId (s.responseStatus p p.dst) p.addr
    false []) :=
  (onUnit_ok ok).trans (congrArg _ (if_neg (by simp [arrived])))

/-- Every entry of the destination set is answered, in the set's order (R151). -/
theorem exec_mcastRsp {d : List (MeshUnit × Nat)} {b : List Byte} (hd : p.payload = .dests d b) :
    exec (.mcastRsp p) s = .next ((s.takePacket p).forEach d fun e s =>
      s.response e.1 e.2 (s.responseStatus p e.1) p.addr p.poison b) := by
  refine (onUnit_ok ok).trans (congrArg _ ?_)
  simp [State.mcastRsp, arrived, hd]

end

/-! ### What a router grants to an output (R155) -/

theorem exec_routerForward {x y : Nat} (hx : x < 42) (hy : y < 8) (s : State) (out : Port) (cc : Nat) :
    exec (.routerForward x y ⟨out, cc, false⟩) s = .next (s.forward (x, y) out cc) :=
  onUnit_ok (okRouter_of hx hy)

/-- A router inside a fault region forwards nothing (R153). -/
theorem forward_in_region {s : State} {q : Nat × Nat} (h : (s.placer.regions.all fun r => !regionHas r q) = false)
    (out : Port) (cc : Nat) : s.forward q out cc = s := by
  have inside : (s.placer.regions.any fun r => regionHas r q) = true := by rw [List.any_eq_not_all_not, h]; rfl
  simp [State.forward, inside]

section
variable {s : State} {q q' : Nat × Nat} {out : Port} (hq : stepXY q out = some q')
include hq

/-- Between routers that are up and outside the fault regions, the slot decides: its circuit flit, else a packet's (R155). -/
theorem forward_open (here : s.up (domPlat (dieOfPart (partOfXY q))) = true)
    (there : s.up (domPlat (dieOfPart (partOfXY q'))) = true)
    (sound : (s.placer.regions.all fun r => !regionHas r q) = true) (cc : Nat) :
    s.forward q out cc = (s.slotFlit q out cc).elim (s.grantPacket q out) fun i =>
      (if (s.bids q out).isEmpty then s else s.finc MSH_STALL.CYCLES (partOfXY q)).moveFlit q out i := by
  have outside : (s.placer.regions.any fun r => regionHas r q) = false := by rw [List.any_eq_not_all_not, sound]; rfl
  simp only [State.forward, hq, outside, here, there, Option.getD_some, Option.isNone_some, Bool.not_true, Bool.and_false,
    Bool.or_false, Bool.false_eq_true, if_false]
  cases s.slotFlit q out cc <;> rfl

theorem moveFlit_between {i : Nat} {f : CircFlit} (hf : s.mesh.flits[i]? = some f) :
    s.moveFlit q out i = { s with mesh := { s.mesh with
      flits := s.mesh.flits.set i { f with router := 42 * q'.2 + q'.1, input := facing out } } } := by
  simp only [State.moveFlit, hf, hq]

end

/-- The bids for an output that no other beats, among those that may be sent against a credit (R148, R155). -/
def State.ableBids (s : State) (q : Nat × Nat) (out : Port) : List Bid :=
  leaders ((s.bids q out).filter fun b => s.credited b q)

/-- The number of an output's rotating pointer. -/
def outputKey (q : Nat × Nat) (out : Port) : Nat := (42 * q.2 + q.1) * 5 + portNum out

/-- What a cycle in which a packet flit waits for an output counts; what is counted is log entry 8. -/
def State.stalled (s : State) (q : Nat × Nat) (out : Port) : State :=
  if (s.bids q out).length > min (s.ableBids q out).length 1 then s.finc MSH_STALL.CYCLES (partOfXY q) else s

/-- The rotating pointer of an output after a tie that the bid has won. -/
def State.turned (s : State) (q : Nat × Nat) (out : Port) (b : Bid) : State :=
  { s with mesh := { s.mesh with pointers := mput (fun _ => 0) s.mesh.pointers (outputKey q out) ((b.input + 1) % 5) } }

@[simp] theorem stalled_mesh (s : State) (q : Nat × Nat) (out : Port) : (s.stalled q out).mesh = s.mesh := by
  unfold State.stalled
  split <;> rfl

section
variable {s : State} {q : Nat × Nat} {out : Port}

theorem grantPacket_idle (h : nearestInput (mget (fun _ => 0) s.mesh.pointers (outputKey q out)) (s.ableBids q out) = none) :
    s.grantPacket q out = s.stalled q out := by
  rw [← stalled_mesh s q out] at h
  unfold State.grantPacket
  dsimp only
  split
  case h_1 => rfl
  case h_2 b hb => cases h.symm.trans hb

/-- The input nearest after the rotating pointer has the output, and only a tie moves the pointer (R155). -/
theorem grantPacket_nearest {b : Bid}
    (h : nearestInput (mget (fun _ => 0) s.mesh.pointers (outputKey q out)) (s.ableBids q out) = some b) :
    s.grantPacket q out
      = (if (s.ableBids q out).length > 1 then (s.stalled q out).turned q out b else s.stalled q out).grant b q := by
  rw [← stalled_mesh s q out] at h
  unfold State.grantPacket
  dsimp only
  split
  case h_1 hn => cases h.symm.trans hn
  case h_2 b' hb => cases h.symm.trans hb; rfl

end

/-! ### Packets that wait too long -/

theorem exec_aged {s : State} {i now : Nat} {p : Packet} (hp : s.mesh.packets[i]? = some p) (young : p.aged = false)
    (long : (now % 2 ^ 16 + 2 ^ 16 - p.injTime % 2 ^ 16) % 2 ^ 16 > 2 ^ 15) :
    exec (.aged i now) s = .next (({ s with mesh := { s.mesh with
      packets := s.mesh.packets.set i { p with aged := true } } } : State).finc MSH_AGED.COUNT (partOfXY (p.x, p.y))) := by
  refine (onUnit_ok rfl).trans (congrArg _ ?_)
  simp only [State.age, hp, young, long, Bool.not_false, decide_true, Bool.and_self, if_true]

/-- Settles O27: a response acts by its destination, and an output is granted by its slot, else by its bids. -/
theorem meshResponses : Obligations.MeshResponses := by
  unfold Obligations.MeshResponses
  refine ⟨?responses, fun s x y out cc => ⟨?router, fun i now p hp young long => exec_aged hp young long⟩⟩
  case responses =>
    intro s p L ok t arrived
    refine ⟨fun hd served => ?_, fun u hd late => ?_, fun d b hd => exec_mcastRsp ok arrived hd⟩
    · have served' : t.lateAt (t.hostPart L) = false := served
      rw [exec_readRsp ok arrived, exec_writeAck ok arrived, hd]
      exact ⟨congrArg _ (response_dma served' ..), congrArg _ (response_dma served' ..)⟩
    · have late' : t.lateAt (t.hostPart L) = true := late
      rw [exec_readRsp ok arrived, exec_writeAck ok arrived, hd]
      exact ⟨congrArg _ (response_late late' ..), congrArg _ (response_late late' ..)⟩
  case router =>
    intro q' hx hy hq here there sound bids able key
    rw [exec_routerForward hx hy]
    refine ⟨fun clear i f slot hf => ?_, fun clear slot => ?_, fun inside => congrArg _ (forward_in_region inside out cc)⟩
    · rw [forward_open hq here there clear, slot]
      refine congrArg _ (moveFlit_between hq ?_)
      split <;> exact hf
    · rw [forward_open hq here there clear, slot]
      exact ⟨fun idle => congrArg _ (grantPacket_idle idle), fun b near => congrArg _ (grantPacket_nearest near)⟩

end Sys2Proof.Machine
end

section
/-! PROOFS. Combining at the routers of a clearing tree. -/
namespace Sys2Proof.Machine

open Sys2Proof

/-! ### A CLEAR packet that its router looks at (R164) -/

/-- A packet that stands whole at a router of its group's tree and has not been looked at is looked at. -/
theorem exec_clearCombine {s : State} {x y i row count run scale : Nat} {sm : Bool} {lanes : List Word} {src : List Nat}
    {p : Packet} {g : ClearingRec} (hx : x < 42) (hy : y < 8) (hp : s.mesh.packets[i]? = some p)
    (waits : s.awaitsLook p (x, y) = true) (whole : s.wholeAt (x, y) p = true)
    (hc : p.payload = .clear row count run sm scale lanes src) (hg : s.group p.cx p.reqId = some g) :
    exec (.clearCombine x y i) s = .next (s.combineAt (x, y) i p g row count run sm scale lanes src) := by
  refine (onUnit_ok (okRouter_of hx hy)).trans (congrArg _ ?_)
  simp only [State.combine, hp, hc, hg, waits, whole, Bool.and_self, if_true]

/-- The buffer holds the row of the group that a CLEAR packet carries, in the same run (R164). -/
def Combine.sameRow (p : Packet) (row run : Nat) (b : Combine) : Bool :=
  b.cx == p.cx && b.tag == p.reqId && b.row == row && b.run == run

/-- A buffer once a contribution has been added to it (R164). -/
def Combine.plus (b : Combine) (count : Nat) (lanes : List Word) (src : List Nat) (poison : Bool) : Combine :=
  { b with lanes := addLanes b.lanes lanes, count := b.count + count, from_ := b.from_ ++ src, poison := b.poison || poison }

section
variable {s : State} {q : Nat × Nat} {p : Packet} {row run scale j : Nat} {sm : Bool} {b : Combine}
  (i : Nat) (g : ClearingRec) (count : Nat) (lanes : List Word) (src : List Nat)

section
variable (found : (s.combines (42 * q.2 + q.1)).findIdx? (Combine.sameRow p row run) = some j)
  (hb : (s.combines (42 * q.2 + q.1))[j]? = some b)
include found hb

/-- An equal scale is added to the buffer, which goes on once it holds the whole subtree (R164). -/
theorem combineAt_adds (same : sameClearScale sm scale b.sfmt16 b.scale = true) :
    s.combineAt q i p g row count run sm scale lanes src =
      let key := 42 * q.2 + q.1
      let sum := b.plus count lanes src p.poison
      let t := (s.dropPacket i).finc MSH_CLR_COMBINE.COUNT (partOfXY q)
      if t.subtree g q ≤ sum.count then (t.setCombines key ((s.combines key).eraseIdx j)).sendCombined q sum
      else t.setCombines key ((s.combines key).set j sum) := by
  unfold Combine.sameRow at found
  simp only [State.combineAt, found, hb, same, if_true]
  rfl

/-- Two valid scales that differ are a mismatch, counted where they meet and recorded at the group's root (R168). -/
theorem combineAt_mismatch (differ : sameClearScale sm scale b.sfmt16 b.scale = false)
    (valid : clearScaleOf sm scale ≠ .invalid) (valid' : clearScaleOf b.sfmt16 b.scale ≠ .invalid) :
    s.combineAt q i p g row count run sm scale lanes src =
      ((s.updPacket p.serial fun p => { p with looked := true }).finc MSH_CLR_ERROR.MISMATCH (partOfXY q)).clearCondition
        p.cx p.reqId 1 g.root := by
  unfold Combine.sameRow at found
  simp [State.combineAt, found, hb, differ, valid, valid']

end

/-- The first contribution of a row waits in a free buffer, unless it is the whole subtree's (R164). -/
theorem combineAt_waits (first : (s.combines (42 * q.2 + q.1)).findIdx? (Combine.sameRow p row run) = none)
    (free : (s.combines (42 * q.2 + q.1)).length < 4) (part : count < s.subtree g q)
    (hold : s.fget MSH_CLR_HOLD.HOLD (partOfXY q) ≠ 0) :
    s.combineAt q i p g row count run sm scale lanes src =
      (s.dropPacket i).setCombines (42 * q.2 + q.1)
        (s.combines (42 * q.2 + q.1) ++ [⟨p.cx, p.reqId, row, run, sm, scale, count, lanes, src, p.poison⟩]) := by
  unfold Combine.sameRow at first
  simp [State.combineAt, first, free, part, hold]

end

/-! ### A buffer whose hold ends (R164) -/

theorem exec_combineHoldExpire {s : State} {x y slot : Nat} {b : Combine} {rest : List Combine} (hx : x < 42) (hy : y < 8)
    (h : takeAt (s.combines (42 * y + x)) slot = some (b, rest)) :
    exec (.combineHoldExpire x y slot) s = .next ((s.setCombines (42 * y + x) rest).sendCombined (x, y) b) := by
  refine (onUnit_ok (okRouter_of hx hy)).trans (congrArg _ ?_)
  simp only [State.holdExpire, h]

/-- Settles O28: the look at a CLEAR packet splits by the buffer of its row, and by the scales that meet there. -/
theorem clearCombining : Obligations.ClearCombining := by
  unfold Obligations.ClearCombining
  intro s x y hx hy key
  refine ⟨?look, fun slot b rest h => exec_combineHoldExpire hx hy h⟩
  case look =>
    intro i p row count run sm scale lanes src g hp waits whole hc hg on same
    rw [exec_clearCombine hx hy hp waits whole hc hg]
    refine ⟨fun j b found hb differ valid valid' => congrArg _ ?_, fun j b found hb equal => congrArg _ ?_,
      fun first free part hold => congrArg _ ?_⟩
    · exact combineAt_mismatch (q := (x, y)) i g count lanes src found hb differ valid valid'
    · exact combineAt_adds (q := (x, y)) i g count lanes src found hb equal
    · exact combineAt_waits (q := (x, y)) i g count lanes src first free part hold

end Sys2Proof.Machine
end

section
/-! PROOFS. The image commands. -/
namespace Sys2Proof.Machine

open Sys2Proof

/-! ### A command that is written (R220) -/

section
variable {s : State}

theorem setJob_fset (j : ImageJob) (f : Fld) (i x : Nat) : (s.setJob j).fset f i x = (s.fset f i x).setJob j := rfl

/-- The job of a command is apart from what IMG_STATUS shows of it. -/
theorem imgBegin_eq (op c : Nat) (j : ImageJob) :
    s.imgBegin op c j
      = (((s.fset IMG_STATUS.OP 0 op).fset IMG_STATUS.CONTEXT 0 c).fset IMG_STATUS.BUSY 0 1).setJob j := by
  rw [State.imgBegin, setJob_fset, setJob_fset, setJob_fset]

@[simp] theorem imgBegin_imageJob (op c : Nat) (j : ImageJob) : (s.imgBegin op c j).imageJob = j := rfl

/-- While no command is in progress and after step 9 of bring-up, a command that nothing refuses starts (R220, R403). -/
theorem imgCommand_begins (op c : Nat) (j : ImageJob) (free : s.fon IMG_STATUS.BUSY 0 = false) (up : 9 ≤ s.bringUp.done) :
    s.imgCommand op c none j = s.imgBegin op c j := by
  have late : ¬ (s.imgBegin op c j).bringUp.done < 9 := Nat.not_lt.mpr up
  simp only [State.imgCommand, free, if_neg late, Bool.false_eq_true, if_false]

/-! ### LOAD (R214, R215, R216) -/

theorem load_begins {c : Nat} (free : s.fon IMG_STATUS.BUSY 0 = false) (up : 9 ≤ s.bringUp.done) (ok : s.loadRefusal c = none) :
    s.load c = s.imgBegin imgLoad c
      (.fetch c (s.fget IMG_SRC_ADDR.ADDR 0 * 64) (s.fget IMG_SRC_LEN.LENGTH 0) (s.security.policy.testBit 0)) := by
  rw [State.load, ok, imgCommand_begins _ _ _ free up]

section
variable {c addr n : Nat} {policy : Bool} (job : s.imageJob = .fetch c addr n policy)
include job

/-- An image that passes its checks and fits the package is held for step 7 (R216). -/
theorem fetchComplete_held (sound : s.imageRefusal c n policy (s.hostRead addr n) = none)
    (fits : s.packageRefusal c (Image.of (s.hostRead addr n) c) (s.hostRead addr n) = none) :
    s.fetchComplete true = s.setJob (.checked c (s.hostRead addr n)) := by
  simp only [State.fetchComplete, job, sound, fits, Bool.not_true, Bool.false_eq_true, if_false]

theorem fetchComplete_refused {r : ImgRefusal} (bad : s.imageRefusal c n policy (s.hostRead addr n) = some r) :
    s.fetchComplete true = s.imgRefuse r := by
  simp only [State.fetchComplete, job, bad, Bool.not_true, Bool.false_eq_true, if_false]

end

/-! ### ACTIVATE and UNLOAD (R217, R219) -/

/-- A LOADED image without fabric circuits has no binding to wait for. -/
theorem activate_begins {c : Nat} {im : Image} (free : s.fon IMG_STATUS.BUSY 0 = false) (idle : s.imageJob = .idle)
    (up : 9 ≤ s.bringUp.done) (loaded : s.imgState c = imgLoaded) (hi : s.image c = some im) (unbound : im.fabric = []) :
    s.activate c = s.imgBegin imgActivate c (.activate c) := by
  have begins : s.imgCommand imgActivate c (if s.imgState c ≠ imgLoaded then some 0x01 else none) (.activate c)
      = s.imgBegin imgActivate c (.activate c) := by
    rw [if_neg (not_not_intro loaded), imgCommand_begins _ _ _ free up]
  simp only [State.activate, begins, imgBegin_imageJob, hi, idle, unbound, List.zipIdx_nil, List.find?_nil, ne_eq,
    not_true_eq_false, or_self, if_false]

/-- An activation writes and fills the regions of the image's clusters, opens the rings and makes the context ACTIVE. -/
theorem activateComplete_known {c : Nat} {im : Image} (job : s.imageJob = .activate c) (hi : s.image c = some im) :
    s.activateComplete =
      let t := (s.updCx c fun x => { x with activatedAt := some s.tally.time }).forEach im.clusters fun r t =>
        (t.writeRegions r.cluster r.regions).initRegions c r.cluster
      ((t.updRing c fun r => { r with committed := 0 }).fset IMG_CX_STATE.STATE c imgActive).imgOk := by
  simp only [State.activateComplete, job, hi]

theorem unload_begins {c : Nat} (free : s.fon IMG_STATUS.BUSY 0 = false) (up : 9 ≤ s.bringUp.done)
    (allowed : s.unloadAllowed c = true) : s.unload c = s.imgBegin imgUnload c (.unload c) := by
  rw [State.unload, if_pos allowed, imgCommand_begins _ _ _ free up]

/-! ### ABORT (R220, R403) -/

theorem abort_fetch {c addr n : Nat} {policy : Bool} (up : 9 ≤ s.bringUp.done) (job : s.imageJob = .fetch c addr n policy) :
    s.abort = s.imgEnd 0x19 noOffset 0 := by
  simp only [State.abort, if_neg (Nat.not_lt.mpr up), job]

theorem abort_early (early : s.bringUp.done < 9) : s.abort = s.imgEnd 0x01 noOffset 0 := if_pos early

end

/-! ### The statement -/

/-- A command that reaches the register of a unit that exists answers the state that its effect gives. -/
theorem onUnit_writeTo_reached {s t : State} {r : Reg} {i : Nat} {ok : Bool} {act : State → State} (hok : ok = true)
    (hr : Reached s r i) (h : act s = t) : onUnit ok (s.writeTo r i act) = .next t := by
  rw [onUnit_ok hok, writeTo_reached hr, h]

/-- Settles O33: each command starts, ends or is refused as its premises decide. That an ABORT before step 9 is refused with
IMG_STATE is the model's reading of R403 (log entry 49). -/
theorem imageCommands : Obligations.ImageCommands := by
  unfold Obligations.ImageCommands
  intro s c hc
  dsimp only
  simp only [← imgBegin_eq]
  refine ⟨fun hr free up ok => ?load, fun addr n policy job sound fits => ?held, fun addr n policy r job bad => ?refused,
    fun im hr free idle up loaded hi unbound => ?activate, fun im job hi nobody => ?activeAlone,
    fun im k job hi only => ?active, fun hr free up allowed => ?unload, fun addr n policy hr up job => ?abort,
    fun hr early => ?early⟩
  case load => exact onUnit_writeTo_reached (okCx_of hc) hr (load_begins free up ok)
  case held => exact (onUnit_ok rfl).trans (congrArg _ (fetchComplete_held job sound fits))
  case refused => exact (onUnit_ok rfl).trans (congrArg _ (fetchComplete_refused job bad))
  case activate => exact onUnit_writeTo_reached (okCx_of hc) hr (activate_begins free idle up loaded hi unbound)
  case activeAlone =>
    refine (onUnit_ok rfl).trans (congrArg _ ((activateComplete_known job hi).trans ?_))
    rw [nobody]
    rfl
  case active =>
    refine (onUnit_ok rfl).trans (congrArg _ ((activateComplete_known job hi).trans ?_))
    rw [only]
    dsimp only
    rw [forEach_singleton]
  case unload => exact onUnit_writeTo_reached (okCx_of hc) hr (unload_begins free up allowed)
  case abort => exact onUnit_writeTo_reached rfl hr (abort_fetch up job)
  case early => exact onUnit_writeTo_reached rfl hr (abort_early early)

end Sys2Proof.Machine
end

section
/-! PROOFS. Remote memory at its target. -/
namespace Sys2Proof.Machine

open Sys2Proof

section
variable {s : State} {n : Nat} {c : PacketCell}

/-! ### A cell at a fabric port -/

section
variable (hn : n < 24) (hc : c.ok = true)
include hn hc

theorem okPort_and_cell : (okPort n && c.ok) = true := by rw [okPort_of hn, hc]; rfl

theorem exec_rreq : exec (.rreq n c) s = .next (s.rreq n c) := onUnit_ok (okPort_and_cell hn hc)

theorem exec_wreq : exec (.wreq n c) s = .next (s.wreq n c) := onUnit_ok (okPort_and_cell hn hc)

theorem exec_wdata : exec (.wdata n c) s = .next (s.wdata n c) := onUnit_ok (okPort_and_cell hn hc)

end

/-! ### RREQ (R264, R317) -/

theorem rreq_denied {st : Nat} (deny : (s.takeCell n c).windowCheck (Request.ofCell c) c.src false = .inl st) :
    s.rreq n c = ((s.takeCell n c).windowDeny (Request.ofCell c) st).answerRsp n c st := by
  simp only [State.rreq, deny]

/-- The answer to a read: the halves of the blocks that were read, in order, each with its block's mark (R263). -/
def State.answerBlocks (s : State) (n : Nat) (c : PacketCell) (blocks : List MemRead) : State :=
  s.forEach (List.range ((Request.ofCell c).length / 32)) fun i s =>
    let b := blocks.getD (i / 2) ⟨[], false, false⟩
    s.answerData n c i ((b.bytes.drop (32 * (i % 2))).take 32) b.poison

/-- A read that passes the window, whose channels work and none of whose blocks is refused, answers its data. -/
theorem rreq_performed {a : Nat} (pass : (s.takeCell n c).windowCheck (Request.ofCell c) c.src false = .inr a)
    (works : (s.takeCell n c).remoteOk n (Request.ofCell c).rcx a (Request.ofCell c).length = true)
    (served : ((s.takeCell n c).remoteBlocks (Request.ofCell c).rcx a ((Request.ofCell c).length / 64)).1.any (·.fenced)
      = false) :
    s.rreq n c =
      let m := (s.takeCell n c).remoteBlocks (Request.ofCell c).rcx a ((Request.ofCell c).length / 64)
      m.2.answerBlocks n c m.1 := by
  simp only [State.rreq, pass, works, served, Bool.not_true, Bool.false_eq_true, if_false]
  rfl

/-! ### WREQ (R264) -/

theorem wreq_denied {st : Nat} (deny : (s.takeCell n c).windowCheck (Request.ofCell c) c.src true = .inl st) :
    s.wreq n c = ((s.takeCell n c).windowDeny (Request.ofCell c) st).answerRsp n c st := by
  simp only [State.wreq, deny]

/-- A write under way at its target. -/
def State.holdWrite (s : State) (w : RemoteWrite) : State :=
  { s with fabric := { s.fabric with writes := s.fabric.writes ++ [w] } }

/-- An accepted write waits for its data, with the partitions in service that its range lies in (R381). -/
theorem wreq_held {a : Nat} (pass : (s.takeCell n c).windowCheck (Request.ofCell c) c.src true = .inr a) :
    s.wreq n c =
      let r := Request.ofCell c
      (s.takeCell n c).holdWrite { src := c.src, xid := c.xid, port := n, cell := c, cx := r.rcx, addr := a, len := r.length,
                                   bad := false, data := [], took := (s.takeCell n c).tookBy r.rcx a r.length } := by
  simp only [State.wreq, pass]
  rfl

/-! ### WDATA (R316, R317) -/

/-- A write once a data cell of it has come in; `refused` says whether the cell's block was refused (R317). -/
def RemoteWrite.gains (w : RemoteWrite) (c : PacketCell) (refused : Bool) : RemoteWrite :=
  { w with bad := w.bad || refused, data := w.data ++ [(c.index, c.payload)] }

/-- A write that has gained a cell is answered where the cell was its last, and waits on otherwise. -/
def State.goOnWrite (s : State) (w : RemoteWrite) : State :=
  if w.data.length = w.len / 32 then (s.dropWrite w).answerRsp w.port w.cell (if w.bad then 0x12 else 0)
  else (s.dropWrite w).holdWrite w

/-- A new data cell inside its write is stored as it arrives. -/
theorem wdata_new {w : RemoteWrite} (found : (s.fabric.writes.find? fun w => w.src == c.src && w.xid == c.xid) = some w)
    (new : (w.data.any fun e => e.1 == c.index) = false) (inside : 32 * c.index < w.len) :
    s.wdata n c =
      let m := (s.takeCell n c).acceptedWrite n w (w.addr + 32 * c.index) c.payload c.poison
      m.2.goOnWrite (w.gains c m.1) := by
  simp only [State.wdata, found, new, ge_iff_le, Nat.not_le.mpr inside, decide_false, Bool.or_self, Bool.false_eq_true, if_false]
  rfl

section
variable {w : RemoteWrite} {refused : Bool}

/-- The last cell of a write is answered with 0, or with 0x12 where a block of the write was refused (R317). -/
theorem goOnWrite_last (last : w.data.length + 1 = w.len / 32) :
    s.goOnWrite (w.gains c refused)
      = (s.dropWrite (w.gains c refused)).answerRsp w.port w.cell (if w.bad || refused then 0x12 else 0) :=
  if_pos (by simpa [RemoteWrite.gains] using last)

theorem goOnWrite_more (more : w.data.length + 1 ≠ w.len / 32) :
    s.goOnWrite (w.gains c refused) = (s.dropWrite (w.gains c refused)).holdWrite (w.gains c refused) :=
  if_neg (by simpa [RemoteWrite.gains] using more)

end

end

/-- Settles O38: a request splits by the check of its window, and a data cell by whether it is its write's last. -/
theorem remoteTarget : Obligations.RemoteTarget := by
  unfold Obligations.RemoteTarget
  intro s n c hn hc
  dsimp only
  rw [exec_rreq hn hc, exec_wreq hn hc, exec_wdata hn hc]
  refine ⟨fun st deny => ?readDenied, fun a pass works served => ?read, fun st deny => ?writeDenied, fun a pass => ?held,
    fun w found new inside => ⟨fun last => ?answered, fun more => ?waits⟩⟩
  case readDenied => exact congrArg _ (rreq_denied deny)
  case read => exact congrArg _ (rreq_performed pass works served)
  case writeDenied => exact congrArg _ (wreq_denied deny)
  case held => exact congrArg _ (wreq_held pass)
  case answered => exact congrArg _ ((wdata_new found new inside).trans (goOnWrite_last last))
  case waits => exact congrArg _ ((wdata_new found new inside).trans (goOnWrite_more more))

end Sys2Proof.Machine
end

section
/-! PROOFS. Blocks and channels of memory, and the aperture. -/
namespace Sys2Proof.Machine

open Sys2Proof

/-! ### A channel and a block that exist -/

theorem okMem_of {p ch : Nat} (hp : p < 12) (hch : ch < 32) : okMem p ch = true := by
  rw [okMem, okPart_of hp, okCh, decide_eq_true (show ch < Config.nChannels from hch)]
  rfl

theorem okBlock_of {b : Nat} (h : b < 16384 * 2048) : okBlock b = true := decide_eq_true h
theorem okBank_of {n : Nat} (h : n < 32) : okBank n = true := decide_eq_true h
theorem okPin_of {n : Nat} (h : n < 24) : okPin n = true := decide_eq_true h

section
variable {s : State} {p ch : Nat}

/-! ### What the block code makes of a read (R270) -/

/-- The wrong symbols of a read that are not those of a marked lane (R270, R285). -/
def State.farErrors (s : State) (p ch : Nat) (errors : List (Nat × Byte)) : Nat :=
  errors.countP fun e =>
    !(s.fon MEM_CH_STATE.LANE (chKey p ch) && pinOf e.1 == s.fget MEM_CH_STATE.PIN (chKey p ch))

/-- How many wrong symbols the code corrects, beside those of a marked lane (R270). -/
def State.codeLimit (s : State) (p ch : Nat) : Nat := if s.fon MEM_CH_STATE.LANE (chKey p ch) then 1 else 2

theorem two_codeLimit (s : State) (p ch : Nat) :
    2 * s.codeLimit p ch = if s.fon MEM_CH_STATE.LANE (chKey p ch) then 2 else 4 := by
  unfold State.codeLimit
  split <;> rfl

section
variable {b cx : Nat} {errors : List (Nat × Byte)}

theorem decodeBlock_corrects (few : s.farErrors p ch errors ≤ s.codeLimit p ch) :
    s.decodeBlock p ch b errors = some (s.blockBytes p ch b, errors.map fun e => pinOf e.1) := if_pos few

theorem decodeBlock_detects (many : s.codeLimit p ch < s.farErrors p ch errors)
    (most : s.farErrors p ch errors ≤ 2 * s.codeLimit p ch) : s.decodeBlock p ch b errors = none :=
  (if_neg (Nat.not_le.mpr many)).trans (if_pos (two_codeLimit s p ch ▸ most))

/-! ### What a read of a block meets (R271) -/

/-- A block that is held takes no write when it is written back as it is. -/
theorem writeBlockBack_held (s : State) (p ch b : Nat) : s.writeBlockBack p ch b (s.blockBytes p ch b) = s := if_pos rfl

section
variable {r : BlockErrors} (other : s.fget MEM_INJECT.CHANNEL p ≠ ch)
include other

/-- On a channel for which no injection is armed, a read that the code can correct delivers the block as it is held, and
counts an error where it met one (R271). -/
theorem readOutcome_corrects (few : s.farErrors p ch r.first ≤ s.codeLimit p ch) :
    (s.readOutcome p ch b cx r).2
      = if r.first.isEmpty then s else s.memCe p ch cx (r.first.map fun e => pinOf e.1) false := by
  simp only [State.readOutcome, beq_false_of_ne other, Bool.false_and, Bool.false_eq_true, if_false,
    decodeBlock_corrects few, State.readCorrected, writeBlockBack_held, List.isEmpty_map]

/-- On a channel for which no injection is armed, a block whose both reads the code detects is written back poisoned, as it
was read again (R271). -/
theorem readOutcome_detects (many : s.codeLimit p ch < s.farErrors p ch r.first)
    (most : s.farErrors p ch r.first ≤ 2 * s.codeLimit p ch) (manyAgain : s.codeLimit p ch < s.farErrors p ch r.again)
    (mostAgain : s.farErrors p ch r.again ≤ 2 * s.codeLimit p ch) :
    (s.readOutcome p ch b cx r).2
      = s.memUe p ch b cx (s.asRead p ch b r.again) (r.again.map fun e => pinOf e.1) false := by
  simp only [State.readOutcome, beq_false_of_ne other, Bool.false_and, Bool.false_eq_true, if_false,
    decodeBlock_detects many most, decodeBlock_detects manyAgain mostAgain]

end
end

/-! ### Blocks of a channel that works (R272, R279) -/

/-- The state once a block has been delivered: poison that it brings is counted and recorded (R272). -/
def State.delivered (s : State) (p ch b cx : Nat) : State :=
  if s.blockPoison p ch b then (s.finc MEM_POISON.READ p).poisonRead cx p ch b else s

section
variable {b cx : Nat} (serves : s.memServes p = true) (works : s.working p ch = true)
include serves works

theorem blockRead_delivered (r : BlockErrors) :
    (s.blockRead p ch b cx r).2 = (s.readOutcome p ch b cx r).2.delivered p ch b cx := by
  simp only [State.blockRead, serves, works, State.delivered, Bool.not_true, Bool.false_eq_true, if_false]
  split <;> rfl

/-- A part of a block is merged into what a read of the block gives, and keeps its POISON (R268, R272). -/
theorem blockWrite_part (off : Nat) {data : List Byte} (part : data.length < 64) :
    let t := (s.readOutcome p ch b cx .none).2
    (s.blockWrite p ch b cx off data false).2
      = t.setMem (t.memory.put (64 * blockKey p ch b + off) data (blockKey p ch b) (t.blockPoison p ch b)) := by
  have notWhole : (data.length == 64) = false := beq_false_of_ne part.ne
  simp only [State.blockWrite, serves, works, notWhole, Bool.not_true, Bool.not_false, Bool.false_eq_true, if_false,
    Bool.true_and, Bool.false_or]

theorem scrub_reads (on : s.fon MEM_SCRUB.ENABLE p = true)
    (inUse : chunkUsed s.memory (chunkKey p ch (b / 2048)) = true) (r : BlockErrors) :
    s.scrub p ch b r = (s.readOutcome p ch b 0 r).2 := by
  simp only [State.scrub, on, serves, works, inUse, Bool.and_self, if_true]

end

section
variable {b cx : Nat} (hp : p < 12) (hch : ch < 32)
include hp hch

section
variable (hb : b < 16384 * 2048)
include hb

theorem exec_blockRead (hcx : cx < 16) (serves : s.memServes p = true) (works : s.working p ch = true) {r : BlockErrors}
    (hr : r.ok = true) :
    exec (.blockRead p ch b cx r) s = .next ((s.readOutcome p ch b cx r).2.delivered p ch b cx) := by
  rw [← blockRead_delivered serves works]
  exact onUnit_ok (by rw [okMem_of hp hch, okBlock_of hb, okCx_of hcx, hr]; rfl)

theorem exec_blockWrite (hcx : cx < 16) {off : Nat} {data : List Byte} (fits : off + data.length ≤ 64) :
    exec (.blockWrite p ch b cx off data) s = .next (s.blockWrite p ch b cx off data false).2 := by
  have taken : data.take (64 - off) = data := List.take_of_length_le (by omega)
  refine (onUnit_ok (by rw [okMem_of hp hch, okBlock_of hb, okCx_of hcx]; rfl)).trans ?_
  rw [taken]

theorem exec_patrolScrub {r : BlockErrors} (hr : r.ok = true) :
    exec (.patrolScrub p ch b r) s = .next (s.scrub p ch b r) :=
  onUnit_ok (by rw [okMem_of hp hch, okBlock_of hb, hr]; rfl)

end

/-! ### Channels that go bad (R283, R284, R285) -/

theorem exec_ceLimitReached : exec (.ceLimitReached p ch) s = .next (s.ceLimit p ch 0) := onUnit_ok (okMem_of hp hch)

theorem exec_ueLimitReached : exec (.ueLimitReached p ch) s = .next (s.ueLimit p ch 0) := onUnit_ok (okMem_of hp hch)

theorem exec_laneMark {pin : Nat} (hpin : pin < 24) : exec (.laneMark p ch pin) s = .next (s.laneLimit p ch 0 pin) :=
  onUnit_ok (by rw [okMem_of hp hch, okPin_of hpin]; rfl)

theorem exec_channelCommandTimeout (serves : s.memServes p = true) (works : s.working p ch = true) :
    exec (.channelCommandTimeout p ch) s = .next (s.chFail p ch 3 0) :=
  (onUnit_ok (okMem_of hp hch)).trans (congrArg _ (if_pos (by rw [serves, works]; rfl)))

theorem exec_selfRefreshTimeout (entry : Bool) : exec (.selfRefreshTimeout p ⟨ch, entry⟩) s
    = .next (s.channelFault p ch (if entry then .entry else .check)) := onUnit_ok (okMem_of hp hch)

theorem exec_dramTemperatureRead (serves : s.memServes p = true) (works : s.working p ch = true) (report : Nat) :
    exec (.dramTemperatureRead p ch report) s = .next (s.fset MEM_CH_STATE.TEMP (chKey p ch) (report % 256)) :=
  (onUnit_ok (okMem_of hp hch)).trans (congrArg _ (if_pos (by rw [serves, works]; rfl)))

theorem exec_refresh {bank : Nat} (hbank : bank < 32) : exec (.refresh p ch bank) s = .next s :=
  onUnit_ok (by rw [okMem_of hp hch, okBank_of hbank]; rfl)

theorem exec_periodicCalibration : exec (.periodicCalibration p ch) s = .next s := onUnit_ok (okMem_of hp hch)

end

/-- A good channel whose corrected errors reach the limit degrades. -/
theorem ceLimit_reached {cx : Nat} (on : s.fget MEM_THRESH.CE_LIMIT p ≠ 0)
    (reached : s.fget MEM_THRESH.CE_LIMIT p ≤ s.ceCount p ch) (good : s.chState p ch = chGood) :
    s.ceLimit p ch cx = s.chChange p ch chDegrading 0 cx false :=
  (if_pos ⟨on, reached⟩).trans (if_pos good)

section
variable {cx : Nat} (works : s.working p ch = true)
include works

/-- A channel that works and fails is recorded in the ledger, loses its data, and takes no migration any more (R286). -/
theorem chFail_working (kind : Nat) : s.chFail p ch kind cx
    = (((s.chChange p ch chFailed kind cx false).ledgerAppend 3 8 (chKey p ch)).dataLost p ch).dropMigrations p ch := by
  have low : s.chState p ch ≤ 1 := of_decide_eq_true works
  exact if_neg fun failed : s.chState p ch = 2 => by omega

theorem ueLimit_reached (on : s.fget MEM_THRESH.UE_LIMIT p ≠ 0)
    (reached : s.fget MEM_THRESH.UE_LIMIT p ≤ s.ueCount p ch) : s.ueLimit p ch cx = s.chFail p ch 3 cx :=
  if_pos ⟨on, reached, works⟩

section
variable {pin : Nat} (many : 16 ≤ s.laneCount p ch pin)
include many

/-- The first pin with 16 errors marks its lane, and the channel degrades (R285). -/
theorem laneLimit_first (unmarked : s.fon MEM_CH_STATE.LANE (chKey p ch) = false) :
    let t := (((s.fbit MEM_CH_STATE.LANE (chKey p ch) true).fset MEM_CH_STATE.PIN (chKey p ch) pin).fset MEM_CH_STATE.STATE
      (chKey p ch) chDegrading).memLast p ch 2 cx pin
    s.laneLimit p ch cx pin = ((t.report sevWarning blkMEM 2 (chKey p ch) none
      [BitVec.ofNat 32 (chKey p ch), BitVec.ofNat 32 pin]).ledgerAppend 5 8 (pin * 2 ^ 16 + chKey p ch)).syncMem p :=
  (if_pos ⟨many, works⟩).trans (if_neg (Bool.not_eq_true _ ▸ unmarked))

/-- A second pin with 16 errors fails the channel (R285). -/
theorem laneLimit_second (marked : s.fon MEM_CH_STATE.LANE (chKey p ch) = true)
    (second : s.fget MEM_CH_STATE.PIN (chKey p ch) ≠ pin) : s.laneLimit p ch cx pin = s.chFail p ch 3 cx :=
  (if_pos ⟨many, works⟩).trans ((if_pos marked).trans (if_neg second))

end

theorem channelFault_stopped (stopped : s.memServes p = false) (f : ChannelFault) :
    s.channelFault p ch f = s.setMem { s.memory with fault := mput noFault s.memory.fault (chKey p ch) (some f) } :=
  if_pos (by rw [stopped, works]; rfl)

end

/-! ### The aperture (R332, R380) -/

section
variable {off n c a : Nat} {data : List Byte} (serving : s.aborting = false)
include serving

theorem apertureRead_unsupported (outside : s.aperture off n = none) :
    s.apertureRead off n = (s.finc PCI_ACCESS_ERR.UR 0).emit (.readData [] rdUnsupported) := by
  simp only [State.apertureRead, serving, outside, Bool.false_eq_true, if_false]

theorem apertureRead_lost (inside : s.aperture off n = some (c, a)) (lost : s.rangeDumb c a n = true) :
    s.apertureRead off n = (s.finc PCI_ACCESS_ERR.FENCED 0).emit (.readData [] rdAbort) := by
  simp only [State.apertureRead, serving, inside, lost, Bool.false_eq_true, if_false, if_true]

section
variable (inside : s.aperture off n = some (c, a)) (there : s.rangeDumb c a n = false)
include inside there

theorem apertureRead_clean (clean : (s.memRead c a n true).1.poison = false) :
    s.apertureRead off n = (s.memRead c a n true).2.emit (.readData (s.memRead c a n true).1.bytes rdOk) := by
  simp only [State.apertureRead, serving, inside, there, clean, Bool.false_eq_true, if_false]

theorem apertureRead_poisoned (poisoned : (s.memRead c a n true).1.poison = true) :
    s.apertureRead off n = ((s.memRead c a n true).2.finc PCI_ACCESS_ERR.POISON 0).emit
      (.readData (s.memRead c a n true).1.bytes rdPoisoned) := by
  simp only [State.apertureRead, serving, inside, there, poisoned, Bool.false_eq_true, if_false, if_true]

end

theorem apertureWrite_inside (inside : s.aperture off data.length = some (c, a))
    (there : s.rangeLost c a data.length = false) : s.apertureWrite off data = (s.memWrite c a data false).2 := by
  simp only [State.apertureWrite, serving, inside, there, Bool.false_eq_true, if_false]

theorem apertureWrite_unsupported (outside : s.aperture off data.length = none) :
    s.apertureWrite off data = s.finc PCI_ACCESS_ERR.UR 0 := by
  simp only [State.apertureWrite, serving, outside, Bool.false_eq_true, if_false]

end

theorem exec_apertureRead (s : State) (off n : Nat) : exec (.apertureRead off n) s = .next (s.apertureRead off n) :=
  onUnit_ok rfl

theorem exec_apertureWrite (s : State) (off : Nat) (data : List Byte) :
    exec (.apertureWrite off data) s = .next (s.apertureWrite off data) := onUnit_ok rfl

end

/-! ### The statements -/

/-- Settles O30: what a read meets decides what the block becomes; every read of a block then delivers it in one way. -/
theorem memoryBlocks : Obligations.MemoryBlocks := by
  unfold Obligations.MemoryBlocks
  intro s p ch b cx hp hch hb hcx serves works
  refine ⟨fun r hr => ?read, fun r hr other few => ?corrected, fun r hr other many most manyAgain mostAgain => ?poisoned,
    fun data whole => ?written, fun off data part fits => ?merged, fun r hr on inUse => ?scrubbed⟩
  case read => exact exec_blockRead hp hch hb hcx serves works hr
  case corrected =>
    rw [exec_blockRead hp hch hb hcx serves works hr, readOutcome_corrects other few]
    rfl
  case poisoned =>
    rw [exec_blockRead hp hch hb hcx serves works hr, readOutcome_detects other many most manyAgain mostAgain]
    rfl
  case written =>
    rw [exec_blockWrite hp hch hb hcx (by omega), blockWrite_whole p ch b cx data false serves works (beq_of_eq whole),
      Nat.add_zero]
    rfl
  case merged =>
    rw [exec_blockWrite hp hch hb hcx fits, blockWrite_part serves works off part]
    rfl
  case scrubbed => rw [exec_patrolScrub hp hch hb hr, scrub_reads serves works on inUse]

/-- Settles O31: each event that is due changes its channel as its limit, count or time-out decides. That refreshes and
calibrations have no effect, and the kind that a command time-out shows, are the model's (log entry 26). -/
theorem channelsDegradeAndFail : Obligations.ChannelsDegradeAndFail := by
  unfold Obligations.ChannelsDegradeAndFail
  refine ⟨fun s p ch hp hch => ⟨fun on reached good => ?degrades, fun on reached works => ?fails,
      fun pin hpin many works unmarked => ?laneMarked, fun pin hpin many works marked second => ?laneSecond,
      fun serves works => ?timedOut, fun entry stopped works => ?held⟩,
    fun s p ch bank report hp hch hbank => ⟨fun serves works => ?temperature, ?refreshed, ?calibrated,
      fun reached => ⟨?injectsCe, ?injectsUe⟩⟩⟩
  case degrades => rw [exec_ceLimitReached hp hch, ceLimit_reached on reached good]
  case fails => rw [exec_ueLimitReached hp hch, ueLimit_reached works on reached, chFail_working works]
  case laneMarked => rw [exec_laneMark hp hch hpin, laneLimit_first works many unmarked]
  case laneSecond => rw [exec_laneMark hp hch hpin, laneLimit_second works many marked second, chFail_working works]
  case timedOut => rw [exec_channelCommandTimeout hp hch serves works, chFail_working works]
  case held => rw [exec_selfRefreshTimeout hp hch, channelFault_stopped works stopped]
  case temperature => exact exec_dramTemperatureRead hp hch serves works report
  case refreshed => exact exec_refresh hp hch hbank
  case calibrated => exact exec_periodicCalibration hp hch
  case injectsCe => exact onUnit_writeTo_reached (okMem_of hp hch) reached rfl
  case injectsUe => exact onUnit_writeTo_reached (okMem_of hp hch) reached rfl

/-- Settles O45: an access completes as its range lies inside or outside a window, on memory that is there or lost, and
poisoned or not. -/
theorem aperture : Obligations.Aperture := by
  unfold Obligations.Aperture
  intro s off n data serving
  simp only [exec_apertureRead, exec_apertureWrite]
  refine ⟨fun outside => ?unsupported, fun c a inside lost => ?lost, fun c a inside there => ⟨fun clean => ?clean,
    fun poisoned => ?poisoned⟩, fun c a inside there => ?written, fun outside => ?refused⟩
  case unsupported => exact congrArg _ (apertureRead_unsupported serving outside)
  case lost => exact congrArg _ (apertureRead_lost serving inside lost)
  case clean => exact congrArg _ (apertureRead_clean serving inside there clean)
  case poisoned => exact congrArg _ (apertureRead_poisoned serving inside there poisoned)
  case written => exact congrArg _ (apertureWrite_inside serving inside there)
  case refused => exact congrArg _ (apertureWrite_unsupported serving outside)

end Sys2Proof.Machine
end

section
/-! PROOFS. Links of fabric ports, and the packet cells of their input queues. -/
namespace Sys2Proof.Machine

open Sys2Proof

/-! ### Training and link blocks (R289 to R292) -/

section
variable {s : State} {n : Nat}

theorem trained_training (h : s.portState n = portTraining) (licensed : s.portLicensed n = true) (m peer delay features : Nat) :
    s.trained n m peer delay features =
      let t := ((s.fset FAB_PORT_NEIGHBOUR.VALID n 1).fset FAB_PORT_NEIGHBOUR.PORT n peer).fset FAB_PORT_NEIGHBOUR.MODULE n m
      (((t.fset FAB_PORT_DELAY.DELAY n (min delay 0xFFFF)).setPort n portUp 0).updFp n fun p =>
        { p with expect := 0, awaiting := false, nakDue := false, naks := 0, nakAck := none, credit := [], nextSeq := 0
                 blocks := [], resendAt := 0, partner := features }).advertise n :=
  if_pos (by simp [h, licensed])

theorem retrained_retraining (h : s.portState n = portRetraining) (ok : Bool) :
    s.retrained n ok = if ok then ((s.setPort n portUp 0).resend n).advertise n else s.portLeaves n portDown 6 := if_pos h

theorem linkDown_trained (h : s.portState n = portUp ∨ s.portState n = portRetraining ∨ s.portState n = portTraining) :
    s.linkDown n = s.portLeaves n portDown 0 := if_pos h

theorem exec_trainFailed (hn : n < 24) (h : s.portState n = portTraining) :
    exec (.trainFailed n) s = .next (s.setPort n portIdle 4) := by
  have he : exec (.trainFailed n) s = .next (if s.portState n = portTraining then s.setPort n portIdle 4 else s) :=
    onUnit_ok (okPort_of hn)
  rw [he, if_pos h]

theorem exec_linkBlock {b : LinkBlock} (hn : n < 24) (hb : b.ok = true) : exec (.linkBlock n b) s = .next (s.linkBlock n b) :=
  onUnit_ok (by rw [okPort_of hn, hb]; rfl)

/-- What a port that is UP counts of a block, whatever the block is (R292, R323). -/
def State.countBlock (s : State) (n : Nat) (b : LinkBlock) : State :=
  (s.fadd FAB_PORT_FEC.CORRECTED n b.corrected).tableCorrected n b.tableError

/-- A block that is bad, or is not the one awaited, makes a NAK due (R292). -/
def State.wantsNak (s : State) (n : Nat) : State := s.updFp n fun p => { p with awaiting := true, nakDue := true }

section
variable {b : LinkBlock} (h : s.portState n = portUp)
include h

theorem linkBlock_fill (ht : b.btype = 2) : s.linkBlock n b = s.countBlock n b := by
  rw [State.linkBlock, if_pos h, State.countBlock]
  exact if_pos ht

theorem linkBlock_expected (ht : b.btype ≠ 2) (good : b.good = true) (hs : b.seq = ((s.countBlock n b).fp n).expect) :
    s.linkBlock n b = (s.countBlock n b).acceptBlock n b := by
  rw [State.linkBlock, if_pos h]
  exact (if_neg ht).trans (if_pos (Bool.and_eq_true_iff.2 ⟨good, beq_iff_eq.2 hs⟩))

theorem linkBlock_awaiting (ht : b.btype ≠ 2) (good : b.good = true) (hs : b.seq ≠ ((s.countBlock n b).fp n).expect)
    (ha : ((s.countBlock n b).fp n).awaiting = true) : s.linkBlock n b = s.countBlock n b := by
  rw [State.linkBlock, if_pos h]
  exact (if_neg ht).trans ((if_neg fun e => hs (eq_of_beq (Bool.and_eq_true_iff.1 e).2)).trans
    (if_pos (Bool.and_eq_true_iff.2 ⟨good, ha⟩)))

theorem linkBlock_bad (ht : b.btype ≠ 2) (bad : b.good = false) : s.linkBlock n b = (s.countBlock n b).wantsNak n := by
  rw [State.linkBlock, if_pos h]
  exact (if_neg ht).trans ((if_neg (by simp [bad])).trans (if_neg (by simp [bad])))

theorem linkBlock_unexpected (ht : b.btype ≠ 2) (hs : b.seq ≠ ((s.countBlock n b).fp n).expect)
    (ha : ((s.countBlock n b).fp n).awaiting = false) : s.linkBlock n b = (s.countBlock n b).wantsNak n := by
  rw [State.linkBlock, if_pos h]
  refine (if_neg ht).trans ((if_neg fun e => ?_).trans (if_neg fun e => ?_))
  · exact hs (eq_of_beq (Bool.and_eq_true_iff.1 e).2)
  · exact Bool.false_ne_true (ha.symm.trans (Bool.and_eq_true_iff.1 e).2)

end

/-! ### The blocks that go out (R290 to R292) -/

/-- Filling a block adds one cell position at each step. -/
theorem fillBlock_length (s : State) (n : Nat) (first : Option Nat) : (s.fillBlock n first).1.length = 26 := by
  have grow : ∀ (l : List Nat) (acc : List Cell × State),
      (l.foldl (fun (acc : List Cell × State) i =>
        if acc.2.linkOpen n then
          let (c, s) := acc.2.cellAt n (first.map (· + i))
          (acc.1 ++ [c], s)
        else (acc.1 ++ [.idle], acc.2)) acc).1.length = acc.1.length + l.length := by
    intro l
    induction l with
    | nil => intro acc; rfl
    | cons i l ih =>
      intro acc
      rw [List.foldl_cons, ih]
      split <;> simp <;> omega
  exact (grow _ _).trans (by simp)

theorem cellBytes_length {c : Cell} (hp : ∀ p, c = .packet p → p.payload.length = 32)
    (hc : ∀ k, c = .circuit k → k.payload.length = 44) : (cellBytes c).length = 48 := by
  cases c with
  | packet p => simp [cellBytes, leBytes_length, hp p rfl]
  | circuit k => simp [cellBytes, leBytes_length, hc k rfl]
  | idle => rfl
  | reserved => rfl

theorem blockBytes_length (ack : Nat) (nak ready : Bool) {o : OutBlock} (ho : o.cells.length = 26)
    (hp : ∀ c, .packet c ∈ o.cells → c.payload.length = 32) (hc : ∀ c, .circuit c ∈ o.cells → c.payload.length = 44) :
    (blockBytes ack nak ready o).length = 1285 := by
  have cells : (o.cells.flatMap cellBytes).length = 48 * o.cells.length := by
    rw [List.length_flatMap, List.map_congr_left (g := fun _ => 48) fun c h =>
      cellBytes_length (fun p e => hp p (e ▸ h)) fun k e => hc k (e ▸ h)]
    simp [Nat.mul_comm]
  simp [blockBytes, cells, ho, leBytes_length]

/-- Counting in one register leaves the flags of another as they were. -/
theorem fon_finc_other (s : State) {f g : Fld} {i j : Nat} (hi : i < 2 ^ 20) (hj : j < 2 ^ 20) (h : g.reg ≠ f.reg) :
    (s.finc f i).fon g j = s.fon g j := by
  have hk : regKey g.reg j ≠ regKey f.reg i := fun e => h (regKey_inj hj hi e).1
  simp only [State.fon, State.finc, State.fadd, fget_fset_other _ hk]

/-- A block of the replay buffer goes out again, and is counted (R292). -/
theorem sendBlock_again (hn : n < 24) (h : s.portState n = portUp) (k : Nat) {o : OutBlock}
    (ho : (s.fp n).blocks[(s.fp n).resendAt]? = some o) : s.sendBlock n k =
      ((s.finc FAB_PORT_LINK_ERR.RETRIES n).setFp n
        { s.fp n with nakDue := false, resendAt := (s.fp n).resendAt + 1 }).emit
          (.linkBlock n (((s.fp n).expect + 4095) % 4096) (s.fp n).nakDue (s.fon FAB_PORT_STATUS.READY n) o) := by
  have ready : (s.finc FAB_PORT_LINK_ERR.RETRIES n).fon FAB_PORT_STATUS.READY n = s.fon FAB_PORT_STATUS.READY n :=
    fon_finc_other s (by omega) (by omega) (by decide)
  have out : s.sendBlock n k = (s.finc FAB_PORT_LINK_ERR.RETRIES n).emitBlock n o := by
    simp only [State.sendBlock, h, ho, ne_eq, not_true_eq_false, if_false]
  rw [out, State.emitBlock, ready]
  rfl

end

end Sys2Proof.Machine

namespace Sys2Proof

open Machine

/-- Settles O36: each event of a link is due by the state of its port, and a link block splits by its type, its goodness and
its number. -/
theorem portTraining : Obligations.PortTraining := by
  unfold Obligations.PortTraining
  refine ⟨fun s n hn => ⟨fun m peer delay features h licensed => ?_, exec_trainFailed hn, fun h => ⟨?_, ?_⟩, fun h => ?_⟩,
    fun s n b hn hb h => ?_⟩
  · exact (onUnit_ok (okPort_of hn)).trans (congrArg _ (trained_training h licensed m peer delay features))
  · exact (onUnit_ok (okPort_of hn)).trans (congrArg _ (retrained_retraining h true))
  · exact (onUnit_ok (okPort_of hn)).trans (congrArg _ (retrained_retraining h false))
  · exact (onUnit_ok (okPort_of hn)).trans (congrArg _ (linkDown_trained h))
  · rw [exec_linkBlock hn hb]
    exact ⟨fun ht => congrArg _ (linkBlock_fill h ht), fun ht good hs => congrArg _ (linkBlock_expected h ht good hs),
      fun ht good hs ha => congrArg _ (linkBlock_awaiting h ht good hs ha), fun ht bad => congrArg _ (linkBlock_bad h ht bad),
      fun ht hs ha => congrArg _ (linkBlock_unexpected h ht hs ha), fillBlock_length s n,
      fun ack nak ready o => blockBytes_length ack nak ready, fun k o => sendBlock_again hn h k⟩

end Sys2Proof
end

section
/-! PROOFS. The packet cells of an input queue. -/
namespace Sys2Proof.Machine

open Sys2Proof

section
variable {s : State} {n vc : Nat} {c : PacketCell} {rest : List PacketCell}

theorem okVc_of (h : vc < 4) : okVc vc = true := decide_eq_true h

theorem exec_packetCellForward (hn : n < 24) (hv : vc < 4) : exec (.packetCellForward n vc) s = .next (s.forwardCell n vc) :=
  onUnit_ok (by rw [okPort_of hn, okVc_of hv]; rfl)

theorem exec_escapeTimeout (hn : n < 24) (hv : vc < 4) : exec (.escapeTimeout n vc) s = .next (s.escape n vc) :=
  onUnit_ok (by rw [okPort_of hn, okVc_of hv]; rfl)

/-! ### PACKET_CELL_FORWARD (R299 to R301) -/

section
variable (head : mget (fun _ => []) (s.fp n).inputs (inputQueue (s.fp n) vc) = c :: rest) (gone : s.waitsAt n vc = none)
include head gone

/-- A cell that is not malformed goes where its field says. -/
theorem forwardCell_named (from_ : c.ptr ≠ 1 ∨ c.src = s.fget FAB_PORT_NEIGHBOUR.MODULE n) (plain : c.esc = false)
    (kind : kindVc c.kind = some c.vc) {out : Nat} (named : s.nextOutput c = some out) : s.forwardCell n vc
    = (s.leaveQueue n (inputQueue (s.fp n) vc)).toOutput n (queueVc (inputQueue (s.fp n) vc)) out (consumeField c n) := by
  have fits : (c.ptr == 1 && c.src != s.fget FAB_PORT_NEIGHBOUR.MODULE n) = false := by
    rcases from_ with h | h <;> simp [h]
  simp [State.forwardCell, head, gone, kind, plain, fits, named]

/-- One that has no field left is discarded. -/
theorem forwardCell_unnamed (named : s.nextOutput c = none) : s.forwardCell n vc
    = (s.popInput n (inputQueue (s.fp n) vc)).discardCell n FAB_PORT_DISCARD.ROUTE c := by
  simp [State.forwardCell, head, gone, named]

/-- One of a reserved kind is discarded (R301). -/
theorem forwardCell_reserved (kind : kindVc c.kind = none) : s.forwardCell n vc
    = (s.popInput n (inputQueue (s.fp n) vc)).discardCell n FAB_PORT_DISCARD.ROUTE c := by
  simp [State.forwardCell, head, gone, kind]

end

/-! ### Where a cell goes (R299, R302, R322) -/

theorem consumeField_esc (c : PacketCell) (n : Nat) : (consumeField c n).esc = c.esc := by
  unfold consumeField
  split <;> rfl

section
variable (plain : c.esc = false) (buf : Nat)
include plain

theorem toOutput_here : s.toOutput n buf 24 c
    = (s.freeInput n buf).updFp n fun p => { p with delivered := p.delivered ++ [c] } := by
  simp [State.toOutput, plain]

theorem toOutput_waits {out : Nat} (ho : out < 24) (up : s.portState out = portUp) : s.toOutput n buf out c
    = s.updFp out fun p => { p with outq := p.outq ++ [⟨n, buf, c⟩] } := by
  have h : ¬ 24 < out := by omega
  simp [State.toOutput, plain, up, h, ho.ne]

theorem toOutput_none {out : Nat} (ho : out ≠ 24) (none_ : 24 < out ∨ s.portState out ≠ portUp) : s.toOutput n buf out c
    = ((s.finc FAB_PORT_DISCARD.ROUTE n).freeInput n buf).answerQueued n ⟨n, buf, c⟩ := by
  have h : (decide (out > 24) || s.portState out != portUp) = true := by simpa using none_
  simp [State.toOutput, plain, ho, h]

end

/-! ### ESCAPE_TIMEOUT (R303) -/

theorem escape_atInput (head : mget (fun _ => []) (s.fp n).inputs vc = c :: rest) (gone : s.waitsAt n vc = none) (hv : vc < 3) :
    s.escape n vc = ((s.updFp n fun p => { p with
      inputs := mput (fun _ => []) (mput (fun _ => []) p.inputs vc rest) (4 + vc)
        (mget (fun _ => []) p.inputs (4 + vc) ++ [escaped c]) }).finc FAB_PORT_ESCAPED.COUNT n) := by
  rw [State.escape, if_neg (by omega), gone, head]

theorem escape_atOutput {m out : Nat} {q : QueuedCell} (waits : s.waitsAt n vc = some m) (hv : vc < 3)
    (found : ((s.fp m).outq.find? fun q => q.input == n && q.cell.vc == vc) = some q)
    (next : ((s.updFp m fun p => { p with outq := p.outq.erase q }).finc FAB_PORT_ESCAPED.COUNT n).nextOutput (escaped q.cell)
      = some out) : s.escape n vc =
      ((s.updFp m fun p => { p with outq := p.outq.erase q }).finc FAB_PORT_ESCAPED.COUNT n).toOutput n q.buf out
        (escaped q.cell) := by
  rw [State.escape, if_neg (by omega), waits]
  simp only [State.escapeWaiting, found, next]

end

/-- Settles O37: a head cell that is sound splits by the output found for it, and one whose time-out ends by where it waits. -/
theorem packetCells : Obligations.PacketCells := by
  unfold Obligations.PacketCells
  intro s n vc c rest hn hv
  dsimp only
  rw [exec_packetCellForward hn hv, exec_escapeTimeout hn hv]
  refine ⟨fun head gone from_ plain kind => ?_, fun head gone kind => congrArg _ (forwardCell_reserved head gone kind),
    fun head gone hv => congrArg _ (escape_atInput head gone hv),
    fun m q out waits hv found next => congrArg _ (escape_atOutput waits hv found next)⟩
  have kept : (consumeField c n).esc = false := (consumeField_esc c n).trans plain
  have named := fun {out} h => forwardCell_named (out := out) head gone from_ plain kind h
  exact ⟨fun here => congrArg _ ((named here).trans (toOutput_here kept _)),
    fun out ho found up => congrArg _ ((named found).trans (toOutput_waits kept _ ho up)),
    fun out ho found none_ => congrArg _ ((named found).trans (toOutput_none kept _ ho none_)),
    fun unnamed => congrArg _ (forwardCell_unnamed head gone unnamed)⟩

end Sys2Proof.Machine
end

section
/-! PROOFS. Remote memory at its source. -/
namespace Sys2Proof.Machine

open Sys2Proof

/-! ### Requests that send their transactions (R298, R316, R139) -/

section
variable {s : State} {L tag op cx : Nat} {q : DmaReq} {route : List Nat}

/-- RREAD is operation 9, RWRITE operation 10. -/
theorem exec_remote (hL : L < 288) (ht : tag < 128) (hop : op = 9 ∨ op = 10) :
    exec (if op = 9 then .rread L tag else .rwrite L tag) s = .next (s.remote L tag op) := by
  rcases hop with rfl | rfl
  · exact onDmaUnit_ok hL ht rfl
  · exact onDmaUnit_ok hL ht rfl

variable (next : s.remoteNext L tag op = some (cx, q))
include next

theorem remote_noRoute (none_ : s.routeFor q.module = none) : s.remote L tag op = s.movedNone L tag 0x12 := by
  simp only [State.remote, next, none_]

variable (found : s.routeFor q.module = some route)
include found

theorem remote_refused (refused : s.askRefusal (.cluster L 2) (.port (s.portNear L)) ≠ none) : s.remote L tag op
    = (s.countRefused (.cluster L 2) (.port (s.portNear L))).movedNone L tag 0x12 := by
  simp only [State.remote, next, found, Option.isSome_iff_ne_none.2 refused, if_true]

/-- A request that has started, or whose range of its own vault may be used, goes on. -/
theorem remote_sends (asked : s.askRefusal (.cluster L 2) (.port (s.portNear L)) = none)
    (allowed : q.started = true ∨ q.lvault = false
      ∨ (if op = 9 then s.writeOk L q.dst q.length .dma else s.readOk L q.src q.length) = true) :
    s.remote L tag op
      = (s.updReq L tag fun q => { q with started := true }).sendTxs L cx (s.portNear L) tag route (q.length / 64 + 2) := by
  have free : (!q.started && !(!q.lvault || (if op = 9 then s.writeOk L (if op = 9 then q.dst else q.src) q.length .dma
      else s.readOk L (if op = 9 then q.dst else q.src) q.length))) = false := by
    rcases allowed with h | h | h
    · simp [h]
    · simp [h]
    · split at h <;> simp [*]
  simp only [State.remote, next, found, asked, Option.isSome_none, free, Bool.false_eq_true, if_false]

end

/-! ### Data and answers that come back (R316) -/

section
variable {s : State} {n : Nat} {c : PacketCell} {t : RemoteTx}

section
variable (hn : n < 24) (hc : c.ok = true)
include hn hc

theorem exec_rdata : exec (.rdata n c) s = .next (s.rdata n c) := onUnit_ok (okPort_and_cell hn hc)

theorem exec_rsp : exec (.rsp n c) s = .next (s.rsp n c) := onUnit_ok (okPort_and_cell hn hc)

end

/-- Data for a vault that can be reached is stored there, that of a poisoned block as zeros (R263). -/
theorem placeRemote_vault {a : Nat} {b : List Byte} {poison : Bool} {q : DmaReq} {cx : Nat}
    (late : s.lateAt (s.hostPart t.cluster) = false) (req : s.dmaReq t.cluster t.tag = some q) (owned : s.owner t.cluster = some cx)
    (vault : q.lvault = true) (reach : s.transit (s.unitXY (.port n) (s.clusterXY t.cluster)) (s.clusterXY t.cluster) = none) :
    s.placeRemote n t a b poison
      = (false, s.vstore t.cluster a (if poison then List.replicate b.length 0 else b) .dma) := by
  simp [State.placeRemote, late, req, owned, vault, reach]

/-- A read whose new cell has been stored, no longer listed. -/
def State.storeCell (s : State) (n : Nat) (c : PacketCell) (t : RemoteTx) : State :=
  (((s.takeCell n c).vstore t.cluster (t.addr + 32 * c.index)
    (if c.poison then List.replicate c.payload.length 0 else c.payload) .dma).updReq t.cluster t.tag fun q =>
      { q with fenced := q.fenced || false, poison := q.poison || c.poison }).dropTx fun x =>
        x.toModule == t.toModule && x.xid == t.xid

/-- A new data cell inside its read is stored; the last one ends the transaction, which is listed again otherwise. -/
theorem rdata_new {q : DmaReq} {cx : Nat}
    (found : (s.fabric.tx.find? fun t => t.toModule == c.src && t.xid == c.xid && t.read) = some t)
    (new : t.got.contains c.index = false) (inside : 32 * c.index < t.len) (req : s.dmaReq t.cluster t.tag = some q)
    (owned : s.owner t.cluster = some cx) (vault : q.lvault = true) (late : s.lateAt (s.hostPart t.cluster) = false)
    (reach : s.transit (s.unitXY (.port n) (s.clusterXY t.cluster)) (s.clusterXY t.cluster) = none) :
    s.rdata n c =
      let u := s.storeCell n c t
      if t.got.length + 1 = t.len / 32 then u.updReq t.cluster t.tag fun q => { q with waiting := q.waiting - 1 }
      else { u with fabric := { u.fabric with tx := u.fabric.tx ++ [{ t with got := t.got ++ [c.index] }] } } := by
  have found' : ((s.takeCell n c).fabric.tx.find? fun t => t.toModule == c.src && t.xid == c.xid && t.read) = some t := found
  have placed := placeRemote_vault (s := s.takeCell n c) (n := n) (a := t.addr + 32 * c.index) (b := c.payload)
    (poison := c.poison) late req owned vault reach
  simp only [State.rdata, found', new, ge_iff_le, Nat.not_le.mpr inside, decide_false, Bool.or_self, Bool.false_eq_true,
    if_false, placed, List.length_append, List.length_singleton]
  rfl

theorem txOf_found (st : Nat) (found : (s.fabric.tx.find? fun t => t.toModule == c.src && t.xid == c.xid) = some t) :
    s.txOf c st = some t := by
  simp [State.txOf, found]

section
variable (found : (s.fabric.tx.find? fun t => t.toModule == c.src && t.xid == c.xid) = some t)
  (late : s.lateAt (s.hostPart t.cluster) = false)
include found late

theorem rsp_good (good : leNat (c.payload.take 1) = 0) : s.rsp n c
    = ((s.takeCell n c).dropTx fun x => x.toModule == t.toModule && x.xid == t.xid).updReq t.cluster t.tag fun q =>
        { q with waiting := q.waiting - 1 } := by
  have late' : (s.takeCell n c).lateAt ((s.takeCell n c).hostPart t.cluster) = false := late
  simp only [State.rsp, txOf_found (s := s.takeCell n c) _ found, late', good, true_or, Bool.false_eq_true, if_true, if_false]

theorem rsp_failed (bad : leNat (c.payload.take 1) ≠ 0) (kept : t.tag ≠ abandonedTag) : s.rsp n c
    = ((s.takeCell n c).dropTx fun x => x.cluster == t.cluster && x.tag == t.tag).updReq t.cluster t.tag fun q =>
        { q with waiting := 0, issued := true, poison := q.poison || leNat (c.payload.take 1) == 0x11
                 status := if q.status = 0 then leNat (c.payload.take 1) else q.status } := by
  have late' : (s.takeCell n c).lateAt ((s.takeCell n c).hostPart t.cluster) = false := late
  simp only [State.rsp, txOf_found (s := s.takeCell n c) _ found, late', bad, kept, or_self, Bool.false_eq_true, if_false]

end

end

/-- Settles O39: a request splits by its route and by its port's answer, a data cell by whether it is the last of its
transaction, and an answer by its status. -/
theorem remoteSource : Obligations.RemoteSource := by
  unfold Obligations.RemoteSource
  refine fun s => ⟨fun L tag op cx q route hL ht hop next found asked allowed => ?sends,
    fun L tag op cx q route hL ht hop next found refused => ?refused, fun L tag op cx q hL ht hop next none_ => ?noRoute,
    fun n c t q cx hn hc found new inside req owned vault late reach => ?data, fun n c t hn hc found late => ?answer⟩
  case sends => rw [exec_remote hL ht hop, remote_sends next found asked allowed]
  case refused => rw [exec_remote hL ht hop, remote_refused next found refused]
  case noRoute => rw [exec_remote hL ht hop, remote_noRoute next none_]
  case data =>
    rw [exec_rdata hn hc, rdata_new found new inside req owned vault late reach]
    exact ⟨fun more => congrArg _ (if_neg more), fun last => congrArg _ (if_pos last)⟩
  case answer =>
    rw [exec_rsp hn hc]
    refine ⟨fun good => congrArg _ (rsp_good found late good), fun st hst bad kept => ?_⟩
    subst hst
    exact congrArg _ (rsp_failed found late bad kept)

end Sys2Proof.Machine
end

section
/-! PROOFS. The cells that carry the credit of bindings and snapshot triggers. -/
namespace Sys2Proof.Machine

open Sys2Proof

/-! ### CREDIT cells (R312, R313, R315) -/

section
variable {s : State} {n : Nat} {c : PacketCell}

section
variable (hn : n < 24) (hc : c.ok = true)
include hn hc

theorem exec_grant : exec (.grant n c) s = .next (s.grantCell n c) := onUnit_ok (okPort_and_cell hn hc)

theorem exec_ack : exec (.ack n c) s = .next (s.ackCell n c) := onUnit_ok (okPort_and_cell hn hc)

theorem exec_revoke : exec (.revoke n c) s = .next (s.revokeCell n c) := onUnit_ok (okPort_and_cell hn hc)

theorem exec_revoked : exec (.revoked n c) s = .next (s.revokedCell n c) := onUnit_ok (okPort_and_cell hn hc)

theorem exec_trigger : exec (.trigger n c) s = .next (s.triggerIn n c) := onUnit_ok (okPort_and_cell hn hc)

end

section
variable {k sseq : Nat}

theorem grantCell_bound (h : s.creditCell c false = some (k, sseq)) : s.grantCell n c
    = (s.takeCell n c).setBinding k { s.binding k with grants := (s.binding k).grants ++ [sseq] } := by
  simp only [State.grantCell, h]

theorem ackCell_bound (h : s.creditCell c false = some (k, sseq)) : s.ackCell n c
    = ((s.takeCell n c).setBinding k { s.binding k with
        sealed := (s.binding k).sealed.filter fun h => h.sseq != sseq
        grants := (s.binding k).grants.filter (· != sseq) }).openHalf k := by
  simp only [State.ackCell, h]

theorem revokeCell_waiting (h : s.creditCell c false = some (k, sseq))
    (waits : ((s.takeCell n c).binding k).started sseq = false) : s.revokeCell n c
    = ((s.takeCell n c).setBinding k { (s.takeCell n c).binding k with
        grants := ((s.takeCell n c).binding k).grants.filter (· != sseq) }).sendCredit k 3 sseq 0 := by
  simp only [State.revokeCell, h, waits, Bool.false_eq_true, if_false]

theorem revokeCell_started (h : s.creditCell c false = some (k, sseq))
    (started : ((s.takeCell n c).binding k).started sseq = true) : s.revokeCell n c = s.takeCell n c := by
  simp only [State.revokeCell, h, started, if_true]

theorem revokedCell_bound (h : s.creditCell c true = some (k, sseq)) : s.revokedCell n c
    = (s.takeCell n c).setBinding k { s.binding k with granted := (s.binding k).granted.filter (· != sseq) } := by
  simp only [State.revokedCell, h]

end

/-! ### TRIGGER cells (R438, R440) -/

/-- The pair of ORIGIN and ID that a TRIGGER cell carries. -/
def triggerPair (c : PacketCell) : Nat × Nat := (bitsOf (leNat c.payload) 95 80, bitsOf (leNat c.payload) 79 64)

/-- The state in which a trigger from the fabric waits for its tally, or for the next one where it is late, and its pair is
remembered. -/
def State.awaitTrigger (s : State) (c : PacketCell) : State :=
  let tally := bitsOf (leNat c.payload) 63 0
  State.rememberPair { s with nose := { s.nose with triggers := s.nose.triggers ++
    [{ tally := if tally ≤ s.tally.count then s.tally.count + 1 else tally, source := 4,
       late := decide (tally ≤ s.tally.count), origin := (triggerPair c).1, id := (triggerPair c).2 }] } } (triggerPair c)

theorem triggerIn_seen (h : (s.takeCell n c).nose.pairs.contains (triggerPair c) = true) : s.triggerIn n c = s.takeCell n c := if_pos h

theorem triggerIn_new (h : (s.takeCell n c).nose.pairs.contains (triggerPair c) = false) : s.triggerIn n c =
    let u := (s.takeCell n c).awaitTrigger c
    if u.fget SNP_FWD.PORTS 0 = 0 then u else u.sendTriggers (bitsOf (leNat c.payload) 63 0) (triggerPair c).2 (triggerPair c).1 := by
  have first : s.triggerIn n c =
      let u := (s.takeCell n c).awaitTrigger c
      if u.fget SNP_FWD.PORTS 0 != 0 then u.sendTriggers (bitsOf (leNat c.payload) 63 0) (triggerPair c).2 (triggerPair c).1 else u := by
    refine (if_neg (by rw [← triggerPair, h]; exact Bool.false_ne_true)).trans ?_
    simp only [State.awaitTrigger, decide_eq_true_eq]
    rfl
  rw [first]
  simp only [bne_iff_ne, ne_eq, ite_not]

end

/-- Settles O40: each CREDIT cell acts on the binding that it addresses, and a trigger splits by whether its pair is known. -/
theorem bindingCredit : Obligations.BindingCredit := by
  unfold Obligations.BindingCredit
  refine ⟨fun s n k sseq c hn hc => ⟨fun h => ?credit, fun h => ?revoked⟩, fun s n c hn hc => ⟨fun seen => ?seen, fun new => ?new⟩⟩
  case credit =>
    rw [exec_grant hn hc, exec_ack hn hc, exec_revoke hn hc]
    exact ⟨congrArg _ (grantCell_bound h), congrArg _ (ackCell_bound h), fun waits => congrArg _ (revokeCell_waiting h waits),
      fun started => congrArg _ (revokeCell_started h started)⟩
  case revoked => rw [exec_revoked hn hc, revokedCell_bound h]
  case seen => rw [exec_trigger hn hc, triggerIn_seen seen]
  case new =>
    rw [exec_trigger hn hc, triggerIn_new new]
    exact ⟨fun none_ => congrArg _ (if_pos none_), fun some_ => congrArg _ (if_neg some_)⟩

end Sys2Proof.Machine
end

section
/-! PROOFS. Circuit cells, sealed halves and clearing on the fabric. -/
namespace Sys2Proof.Machine

open Sys2Proof

/-! ### CIRCUIT_CELL (R306, R309, R323) -/

section
variable {s : State} {n : Nat} {c : CircuitCell}

theorem exec_circuitCell (hn : n < 24) (hc : c.ok = true) : exec (.circuitCell n c) s = .next (s.circuitCell n c) :=
  onUnit_ok (by rw [okPort_of hn, hc]; rfl)

/-- The cell leaves the input at which it stood. -/
def State.takeCircuitCell (s : State) (n : Nat) (c : CircuitCell) : State :=
  s.updFp n fun p => { p with circuitIn := p.circuitIn.erase c }

/-- What the action of a circuit table entry does with a cell (R306). -/
def State.circuitAction (s : State) (n e : Nat) (c : CircuitCell) : State :=
  let k := n * 256 + entBind e
  match entAction e with
  | 1 => s.forwardCircuit n e c
  | 2 => s.deliverCircuit n k c
  | 3 => (s.deliverCircuit n k c).forwardCircuit n e c
  | 4 => s.passCircuit n k c
  | 5 => s.passCircuit n (k + 1) c
  | 6 => s.passCircuit n (k + 1) c
  | _ => s.finc FAB_PORT_DISCARD.TABLE n

theorem circuitCell_noBank (h : (s.takeCircuitCell n c).bankFor n c.phase = none) :
    s.circuitCell n c = (s.takeCircuitCell n c).finc FAB_PORT_DISCARD.LATE n := by
  rw [State.takeCircuitCell] at h ⊢
  simp only [State.circuitCell, h]

section
variable {bank : NMap Nat} (h : (s.takeCircuitCell n c).bankFor n c.phase = some bank)
include h

theorem circuitCell_entryRefused (refused : ((s.takeCircuitCell n c).fp n).badCircuit.contains c.circuit = true
      ∨ (4 ≤ entAction (mget zeroNat bank c.circuit) ∧ (s.takeCircuitCell n c).clearingLicensed = false)) :
    s.circuitCell n c = (s.takeCircuitCell n c).finc FAB_PORT_DISCARD.TABLE n := by
  rw [State.takeCircuitCell] at h refused ⊢
  simp only [State.circuitCell, h]
  exact if_pos (by simpa using refused)

theorem circuitCell_entryUsed (readable : ((s.takeCircuitCell n c).fp n).badCircuit.contains c.circuit = false)
    (licensed : entAction (mget zeroNat bank c.circuit) < 4 ∨ (s.takeCircuitCell n c).clearingLicensed = true) :
    s.circuitCell n c = (s.takeCircuitCell n c).circuitAction n (mget zeroNat bank c.circuit) c := by
  have used : (((s.takeCircuitCell n c).fp n).badCircuit.contains c.circuit
      || (decide (4 ≤ entAction (mget zeroNat bank c.circuit)) && !(s.takeCircuitCell n c).clearingLicensed)) = false := by
    rw [readable, Bool.false_or]
    rcases licensed with l | l
    · simp [Nat.not_le.2 l]
    · simp [l]
  rw [State.takeCircuitCell] at h used ⊢
  simp only [State.circuitCell, h, used]
  rfl

end

end

/-- Settles O41: a circuit cell splits by the bank for its phase, by whether its entry may be used, and by its action. -/
theorem circuitCells : Obligations.CircuitCells := by
  unfold Obligations.CircuitCells
  intro s n c hn hc
  dsimp only
  rw [exec_circuitCell hn hc]
  refine ⟨fun none_ => congrArg _ (circuitCell_noBank none_), fun bank h =>
    ⟨fun refused => congrArg _ (circuitCell_entryRefused h refused), fun readable licensed => ?_⟩⟩
  rw [circuitCell_entryUsed h readable licensed, State.circuitAction]
  refine ⟨fun a => ?forward, fun a => ?deliver, fun a => ?both, fun a => ?add, fun a => ?addBeside, fun a => ?unused⟩
  case forward => rw [a]; rfl
  case deliver => rw [a]; rfl
  case both => rw [a]; rfl
  case add => rw [a]; rfl
  case addBeside => rcases a with a | a <;> rw [a] <;> rfl
  case unused => rcases a with a | a <;> rw [a] <;> rfl

/-! ### Halves that go out (R312, R313, R318) -/

section
variable {s : State} {n b k : Nat} {h : OutHalf}

theorem okPort_and_binding (hn : n < 24) (hb : b < 256) : (okPort n && okBinding b) = true := by
  rw [okPort_of hn, okBinding, decide_eq_true hb]; rfl

theorem halfTransmit_due (due : s.halfToSend n b = some h) : s.halfTransmit n b = s.startHalf (n * 256 + b) h.sseq := by
  simp only [State.halfTransmit, due]

theorem halfRetransmit_due (due : s.halfToResend n b = some h) : s.halfRetransmit n b = s.startHalf (n * 256 + b) h.sseq := by
  simp only [State.halfRetransmit, due]

/-- A cell of a half carries the phase of the tally and its place in the half. -/
theorem halfCell_place {circuit : Nat} {c : CircuitCell} (out : s.halfCell k circuit h = some c) :
    c.phase = s.tally.count % 4 ∧ c.circuit = circuit ∧ c.part = h.next % 8 ∧ h.next / 8 < h.tokens.length := by
  obtain ⟨t, ht, rfl⟩ := Option.map_eq_some_iff.1 out
  exact ⟨rfl, rfl, rfl, (List.getElem?_eq_some_iff.1 ht).1⟩

theorem halfSent_last (clearing : s.fon FAB_BIND_A.CLEARING k = true) (last : h.next + 1 = 8 * h.tokens.length) :
    s.halfSent k h = (s.setBinding k { s.binding k with
      sealed := (s.binding k).sealed.filter fun y => y.sseq != h.sseq
      grants := (s.binding k).grants.filter (· != h.sseq) }).openHalf k :=
  if_pos (by rw [clearing, last, beq_self_eq_true]; rfl)

theorem halfSent_plain (plain : s.fon FAB_BIND_A.CLEARING k = false) :
    s.halfSent k h = s.setBinding k { s.binding k with
      sealed := (s.binding k).sealed.map fun y =>
        if y.sseq = h.sseq then { y with next := h.next + 1, lastAt := s.tally.time } else y } :=
  if_neg (by rw [plain]; exact Bool.false_ne_true)

/-! ### CLEARING_ADD (R318, R319) -/

/-- The token at place `idx` of half `q` leaves the pass buffer; the half has contributed it, and is free once it has
contributed all. -/
def State.contributed (s : State) (k q idx total : Nat) (rest : List (Nat × Nat × Nat × Token)) (h : OutHalf) : State :=
  let used := if h.used.contains idx then h.used else h.used ++ [idx]
  (s.setBinding k { s.binding k with
    pass := rest
    sealed := if used.length ≥ total then (s.binding k).sealed.filter fun y => y.sseq != q
      else (s.binding k).sealed.map fun y => if y.sseq = q then { y with used := used } else y }).openHalf k

section
variable {i q idx total e : Nat} {tok o : Token} {rest : List (Nat × Nat × Nat × Token)}
  (taken : takeAt (s.binding (n * 256 + b)).pass i = some ((q, idx, total, tok), rest)) (entry : s.addEntry n b = some e)
  (half : ((s.binding (n * 256 + b)).sealed.find? fun h => h.sseq == q) = some h) (logs : s.logsReached n = true)
  (own : h.tokens[idx]? = some o) (action : entAction e = 5)
include taken entry half logs own action

theorem clearingAdd_agree (agree : scalesAgree tok o = true) : s.clearingAdd n b i
    = (s.contributed (n * 256 + b) q idx total rest h).logToken (n * 256 + entBind e) q idx total (addTokens tok o) := by
  simp only [State.clearingAdd, taken, entry, half, logs, own, agree, action]
  rfl

theorem clearingAdd_mismatch (differ : scalesAgree tok o = false) : s.clearingAdd n b i
    = (((s.finc FAB_CLR_ERROR.MISMATCH 0).clearingError (n * 256 + b) 1).contributed (n * 256 + b) q idx total rest h).logToken
        (n * 256 + entBind e) q idx total (spoilToken (addTokens tok o)) := by
  simp only [State.clearingAdd, taken, entry, half, logs, own, differ, action]
  rfl

end

end

/-- Settles O42: a half that is due starts, its last cell frees it where it clears, and a contribution splits by whether its
scales agree. -/
theorem halvesAndClearing : Obligations.HalvesAndClearing := by
  unfold Obligations.HalvesAndClearing
  intro s n b hn hb
  have unit := okPort_and_binding hn hb
  refine ⟨fun h due => ?transmit, fun h due => ?retransmit, fun circuit h c out => halfCell_place out,
    fun h clearing last => halfSent_last clearing last, fun h plain => halfSent_plain plain,
    fun i q idx total tok rest e h o taken entry half logs own action => ⟨fun agree => ?agree, fun differ => ?differ⟩⟩
  case transmit => exact (onUnit_ok unit).trans (congrArg _ (halfTransmit_due due))
  case retransmit => exact (onUnit_ok unit).trans (congrArg _ (halfRetransmit_due due))
  case agree => exact (onUnit_ok unit).trans (congrArg _ (clearingAdd_agree taken entry half logs own action agree))
  case differ => exact (onUnit_ok unit).trans (congrArg _ (clearingAdd_mismatch taken entry half logs own action differ))

end Sys2Proof.Machine
end

section
/-! PROOFS. The tables of the fabric, and cartridges. -/
namespace Sys2Proof.Machine

open Sys2Proof

section
variable {s : State} {n : Nat}

/-! ### Tables (R298, R304, R308, R321, R323) -/

theorem exec_routeEntryWrite (h : Reached s .FAB_ROUTE_HIGH 0) (v : Nat) :
    exec (.routeEntryWrite v) s = .next (s.routeWrite v) :=
  (onUnit_ok rfl).trans (congrArg _ (writeTo_reached h _))

theorem exec_escapeEntryWrite (h : Reached s .FAB_ESCAPE 0) (v : Nat) :
    exec (.escapeEntryWrite v) s = .next (s.escapeWrite v) :=
  (onUnit_ok rfl).trans (congrArg _ (writeTo_reached h _))

theorem exec_routeValidWrite (h : Reached s .FAB_ROUTE_VALID 0) (v : Nat) :
    exec (.routeValidWrite v) s = .next (s.routeValidWrite v) :=
  (onUnit_ok rfl).trans (congrArg _ (writeTo_reached h _))

/-- From step 8 of bring-up on ROUTE_VALID is not held (R401). -/
theorem routeValidWrite_late (done : 8 ≤ s.bringUp.done) (v : Nat) : s.routeValidWrite v = s.setRouteValid v :=
  if_neg fun h => Nat.not_lt.2 done h.1

theorem copyComplete_copying (h : s.fon FAB_TABLE_COMMIT.COPYING n = true) : s.copyComplete n
    = (s.fset FAB_TABLE_COMMIT.COPYING n 0).updFp n fun p =>
        { p.heldWrites.foldl FabPort.stage { p with cstag := p.ccur, sstag := p.scur } with heldWrites := [] } := if_pos h

theorem exec_tableEntryUncorrectable (hn : n < 24) {t : FabTable} {i : Nat} (hi : okEntry t i = true) :
    exec (.tableEntryUncorrectable n t i) s = .next (s.tableBad n t i) := onUnit_ok (by rw [okPort_of hn, hi]; rfl)

/-- An entry that is not yet noted joins the list. -/
theorem noted_new {l : List Nat} {i : Nat} (h : i ∉ l) : (if l.contains i then l else i :: l) = i :: l :=
  if_neg (by simpa using h)

section
variable {i : Nat}

theorem tableBad_route (new : i ∉ (s.fp n).badRoute) :
    s.tableBad n .route i = s.updFp n fun p => { p with badRoute := i :: p.badRoute } := by
  simp only [State.tableBad, State.updFp, noted_new new]

theorem tableBad_escape (new : i ∉ (s.fp n).badEscape) :
    s.tableBad n .escape i = s.updFp n fun p => { p with badEscape := i :: p.badEscape } := by
  simp only [State.tableBad, State.updFp, noted_new new]

theorem tableBad_circuit (new : i ∉ (s.fp n).badCircuit) :
    s.tableBad n .circuit i = s.updFp n fun p => { p with badCircuit := i :: p.badCircuit } := by
  simp only [State.tableBad, State.updFp, noted_new new]

theorem tableBad_slot (new : i ∉ (s.fp n).badSlot) :
    s.tableBad n .slot i = s.updFp n fun p => { p with badSlot := i :: p.badSlot } := by
  simp only [State.tableBad, State.updFp, noted_new new]

end

/-! ### Cartridges (R327, R328) -/

section
variable {c : Cartridge} (present : (s.fp n).cartridge = some c)
include present

theorem cartridgeVerified_present : s.cartridgeVerified n
    = (if Cartridge.genuine c then s.fset CRT_STATUS.VERIFIED n 1 else s.fset CRT_STATUS.COUNTERFEIT n 1).tryTrain n := by
  simp only [State.cartridgeVerified, present]

theorem cartridgeOut_present : s.cartridgeOut n =
    let t := s.forEach [.CRT_STATUS, .CRT_USE, .CRT_RATING, .CRT_SERIAL] fun r s => s.rset r n 0
    (t.updFp n fun p => { p with cartridge := none }).portLeaves n portDown (if t.fon FAB_PORT_CTRL.ENABLE n then 2 else 0) := by
  simp only [State.cartridgeOut, present]

theorem countHours_present (more : Nat) : s.countHours n more =
    let t := s.litTime n
    let used := (s.fp n).onAt.isSome || t != 0
    let c' := { c with hours := min (c.hours + t / hourSteps + if used then more else 0) (2 ^ 32 - 1) }
    (s.updFp n fun p => { p with
      cartridge := some c', onFor := t % hourSteps, onAt := p.onAt.map fun _ => s.tally.time }).showCartridge n c' := by
  simp only [State.countHours, present]

end

end

/-- Settles O43: each write and each event has its effect on the tables of its port, and those of a cartridge do so while it is
present. -/
theorem fabricTables : Obligations.FabricTables := by
  unfold Obligations.FabricTables
  refine ⟨fun s v => ⟨fun h => exec_routeEntryWrite h v, fun h => exec_escapeEntryWrite h v, fun h done => ?valid,
      fun n hn copying => ?copied, fun n i hn hi => ⟨fun new => ?route, fun new => ?escape⟩,
      fun n i hn => ⟨fun hi new => ?circuit, fun hi new => ?slot⟩⟩,
    fun s n hn => ⟨fun r => onUnit_ok (okPort_of hn), fun c present => ?verified, fun c present => ?removed,
      fun c more present => ?usage⟩⟩
  case valid => rw [exec_routeValidWrite h, routeValidWrite_late done]
  case copied => exact (onUnit_ok (okPort_of hn)).trans (congrArg _ (copyComplete_copying copying))
  case route => rw [exec_tableEntryUncorrectable hn hi, tableBad_route new]
  case escape => rw [exec_tableEntryUncorrectable hn (t := .escape) hi, tableBad_escape new]
  case circuit => rw [exec_tableEntryUncorrectable hn hi, tableBad_circuit new]
  case slot => rw [exec_tableEntryUncorrectable hn hi, tableBad_slot new]
  case verified => exact (onUnit_ok (okPort_of hn)).trans (congrArg _ (cartridgeVerified_present present))
  case removed => exact (onUnit_ok (okPort_of hn)).trans (congrArg _ (cartridgeOut_present present))
  case usage =>
    have hours : s.usageWrite n more = (s.countHours n more).writeUsage n := rfl
    rw [countHours_present present] at hours
    exact (onUnit_ok (okPort_of hn)).trans (congrArg _ hours)

end Sys2Proof.Machine
end

section
/-! PROOFS. The PCI Express function and its DOE mailbox. -/
namespace Sys2Proof.Machine

open Sys2Proof

section
variable {s : State}

/-! ### Reset and configuration (R329, R330, R343, R450) -/

theorem pcieOff_iff : s.pcieOff = true ↔ s.domain domPcie = .off := beq_iff_eq

theorem perst_asserted : s.perst true =
    let t := s.setHost { s.host.unconfigured with
      ready := false, perst := true, doeRequest := none, doeResponse := none, doeError := false }
    (if s.domain domPcie = .off then t else t.setDomain domPcie .reset).resetRegs blockPCI :=
  congrArg (State.resetRegs · blockPCI) (if_congr pcieOff_iff rfl rfl)

theorem perst_released (on : s.domain domPcie ≠ .off) : s.perst false
    = ((s.setHost { s.host with perst := false }).setDomain domPcie .on).fbit PCI_LINK.READY 0 (decide (9 ≤ s.bringUp.done)) :=
  if_neg fun h => on (pcieOff_iff.1 h)

theorem perst_released_off (off : s.domain domPcie = .off) : s.perst false = s.setHost { s.host with perst := false } :=
  if_pos (pcieOff_iff.2 off)

/-- What a configuration request does to an endpoint that is ready (R329, R330). -/
def State.configured (s : State) : ConfigRequest → State
  | .memorySpace on => s.setHost { s.host with memorySpace := on }
  | .resizeBar2 n => if s.host.memorySpace || decide (n > 10) then s else s.setHost { s.host with bar2Log := n }
  | .powerState d3 => s.setHost { s.host with d3 := d3 }
  | .msixEnable on => s.setHost { s.host with msixOn := on }
  | .bar i a => if i < 4 then s.setHost { s.host with bars := mput (fun _ => 0) s.host.bars i (a % 2 ^ 32) } else s
  | .read off => s.emit (.readData (leBytes 4 (s.host.configWord off)) 0)

theorem functionReset_ready (ready : s.host.ready = true) : s.functionReset =
    (((s.setHost s.host.unconfigured).fset SUB_ERR_RING.ENABLE 0 0).dropEnable .SUB_ERR_RING 0).forEach contexts fun c s =>
      let t := (((((s.fset SUB_CX_SQ.ENABLE c 0).fset SUB_CX_CQ.ENABLE c 0).fset PCI_WINDOW.ENABLE c 0).dropEnable .SUB_CX_SQ
        c).dropEnable .SUB_CX_CQ c).updRing c fun r => { r with queue := r.queue.filter fun k => !k.isCopy }
      if t.imageActive c then t.updCx c fun x => { x with hostReset := true } else t :=
  if_neg (by rw [ready]; decide)

section
variable (perst : s.host.perst = false) (up : s.up domPcie = true)
include perst up

theorem pcie_serves : (s.host.perst || !s.up domPcie) = false := by rw [perst, up]; rfl

theorem configReady_up : s.configReady = s.setHost { s.host with ready := true } :=
  if_neg (by rw [pcie_serves perst up]; decide)

theorem configRequest_early (r : ConfigRequest) (early : s.host.ready = false) : s.configRequest r = s.emit .retryStatus := by
  simp only [State.configRequest, pcie_serves perst up, early, Bool.not_false, Bool.false_eq_true, if_true, if_false]

/-- Once the endpoint is ready, a request has the effect that it names. -/
theorem configRequest_ready (r : ConfigRequest) (ready : s.host.ready = true) : s.configRequest r = s.configured r := by
  have first : ¬ (s.host.perst || !s.up domPcie) = true := by rw [pcie_serves perst up]; decide
  have second : ¬ (!s.host.ready) = true := by rw [ready]; decide
  cases r <;> exact (if_neg first).trans (if_neg second)

end

/-! ### The DOE mailbox (R342, R424) -/

/-- The mailbox with object `b` in it. -/
def State.doeTakes (s : State) (b : List Byte) : State :=
  s.setHost { s.host with doeRequest := some b, doeResponse := none, doeError := false }

/-- The mailbox answers with an error. -/
def State.doeFails (s : State) : State := s.setHost { s.host with doeRequest := none, doeError := true }

/-- A data object of the device's own type, by its body: an attestation request (R424). -/
def State.doeAttest (s : State) (body : List Byte) : State :=
  if s.lifeCommand then s.attAnswer .doe 0 1 []
  else if rd body 4 4 ≠ 0 then s.attAnswer .doe 0 5 []
  else match rd body 0 4 with
    | 1 => s.attestReport (body.drop 8) .doe 0
    | 2 => if body.length = 8 then s.attestKey .doe 0 else s.attAnswer .doe 0 5 []
    | 3 => if body.length = 8 then s.attestLog .doe 0 else s.attAnswer .doe 0 5 []
    | _ => s.attAnswer .doe 0 5 []

theorem doeAbort_ready (ready : s.host.ready = true) : s.doeAbort
    = (s.setHost { s.host with doeRequest := none, doeResponse := none, doeError := false }).setSec
      { s.security with waiting := s.security.waiting.filter fun e => e.source != .doe } := if_pos ready

theorem doeObject_wellFormed {b : List Byte} (short : b.length ≤ 4096) (long : 12 ≤ b.length)
    (whole : 4 * (rd b 4 4 % 2 ^ 18) = b.length) :
    ¬ (b.length > 4096 ∨ b.length < 12 ∨ 4 * (rd b 4 4 % 2 ^ 18) ≠ b.length) := by
  rintro (h | h | h)
  · exact Nat.not_lt.2 short h
  · exact Nat.not_lt.2 long h
  · exact h whole

section
variable {b : List Byte} (ready : s.host.ready = true) (empty : s.host.doeRequest = none)
include ready empty

/-- An object that arrives while none is in the mailbox is taken up. -/
theorem doeRequest_taken : s.doeRequest b =
    let t := s.doeTakes b
    if b.length > 4096 ∨ b.length < 12 ∨ 4 * (rd b 4 4 % 2 ^ 18) ≠ b.length then t.doeFails
    else if rd b 0 2 = 1 ∧ rd b 2 1 = 0 then t.doeRespond (doeDiscovery (rd (b.drop 8) 0 1))
    else if rd b 0 2 = Config.doeVendor.toNat ∧ rd b 2 1 = Config.doeType.toNat then t.doeAttest (b.drop 8)
    else t.doeFails :=
  if_neg (by rw [ready, empty]; decide)

theorem doeRequest_malformed (bad : b.length < 12 ∨ 4096 < b.length ∨ 4 * (rd b 4 4 % 2 ^ 18) ≠ b.length) :
    s.doeRequest b = (s.doeTakes b).doeFails := by
  rw [doeRequest_taken ready empty]
  exact if_pos (or_left_comm.1 bad)

variable (short : b.length ≤ 4096) (long : 12 ≤ b.length) (whole : 4 * (rd b 4 4 % 2 ^ 18) = b.length)
include short long whole

theorem doeRequest_discovery (vendor : rd b 0 2 = 1) (type : rd b 2 1 = 0) :
    s.doeRequest b = (s.doeTakes b).doeRespond (doeDiscovery (rd (b.drop 8) 0 1)) := by
  rw [doeRequest_taken ready empty]
  exact (if_neg (doeObject_wellFormed short long whole)).trans (if_pos ⟨vendor, type⟩)

/-- Another object is an attestation request where it is of the device's own type, and an error otherwise. -/
theorem doeRequest_other (other : ¬ (rd b 0 2 = 1 ∧ rd b 2 1 = 0)) : s.doeRequest b
    = if rd b 0 2 = Config.doeVendor.toNat ∧ rd b 2 1 = Config.doeType.toNat then (s.doeTakes b).doeAttest (b.drop 8)
      else (s.doeTakes b).doeFails := by
  rw [doeRequest_taken ready empty]
  exact (if_neg (doeObject_wellFormed short long whole)).trans (if_neg other)

end

section
variable {body : List Byte}

theorem doeAttest_busy (busy : s.lifeCommand = true) : s.doeAttest body = s.attAnswer .doe 0 1 [] := if_pos busy

section
variable (free : s.lifeCommand = false)
include free

theorem doeAttest_unknown (bad : rd body 4 4 ≠ 0 ∨ rd body 0 4 = 0 ∨ 3 < rd body 0 4) :
    s.doeAttest body = s.attAnswer .doe 0 5 [] := by
  rw [State.doeAttest, if_neg (by rw [free]; exact Bool.false_ne_true)]
  split
  · rfl
  · next version =>
    split
    · next kind => rw [kind] at bad; omega
    · next kind => rw [kind] at bad; omega
    · next kind => rw [kind] at bad; omega
    · rfl

variable (version : rd body 4 4 = 0)
include version

theorem doeAttest_report (kind : rd body 0 4 = 1) : s.doeAttest body = s.attestReport (body.drop 8) .doe 0 := by
  simp [State.doeAttest, free, version, kind]

theorem doeAttest_key (kind : rd body 0 4 = 2) (bare : body.length = 8) : s.doeAttest body = s.attestKey .doe 0 := by
  simp [State.doeAttest, free, version, kind, bare]

theorem doeAttest_log (kind : rd body 0 4 = 3) (bare : body.length = 8) : s.doeAttest body = s.attestLog .doe 0 := by
  simp [State.doeAttest, free, version, kind, bare]

end

end

end

/-- Settles O44: a configuration request splits by whether the endpoint is ready and by what it names, and a DOE object by its
length, its type and its request. -/
theorem pcieFunction : Obligations.PcieFunction := by
  unfold Obligations.PcieFunction
  refine ⟨fun s => ⟨?asserted, fun on => ?released, fun off => ?stillOff, fun perst up => ?ready, fun r perst up early => ?early,
      fun perst up ready => ?configured, fun ready => ?functionReset⟩,
    fun s b ready => ⟨?aborted, fun empty => ⟨fun bad => ?malformed, fun short long whole vendor type => ?discovery,
      fun short long whole other => ?request⟩⟩⟩
  case asserted => exact (onUnit_ok rfl).trans (congrArg _ perst_asserted)
  case released => exact (onUnit_ok rfl).trans (congrArg _ (perst_released on))
  case stillOff => exact (onUnit_ok rfl).trans (congrArg _ (perst_released_off off))
  case ready => exact (onUnit_ok rfl).trans (congrArg _ (configReady_up perst up))
  case early => exact (onUnit_ok rfl).trans (congrArg _ (configRequest_early perst up r early))
  case configured =>
    have done := fun r => (onUnit_ok (ok := true) rfl).trans
      (congrArg Host.Outcome.next (configRequest_ready perst up r ready))
    refine ⟨fun on => done _, fun n off small => (done _).trans (congrArg _ (if_neg ?_)), fun d3 => done _, fun on => done _,
      fun off => done _, fun i a hi => (done _).trans (congrArg _ (if_pos hi))⟩
    rw [off, decide_eq_false (Nat.not_lt.2 small)]
    decide
  case functionReset => exact (onUnit_ok rfl).trans (congrArg _ (functionReset_ready ready))
  case aborted => exact (onUnit_ok rfl).trans (congrArg _ (doeAbort_ready ready))
  case malformed => exact (onUnit_ok rfl).trans (congrArg _ (doeRequest_malformed ready empty bad))
  case discovery =>
    exact (onUnit_ok rfl).trans (congrArg _ (doeRequest_discovery ready empty short long whole vendor type))
  case request =>
    have asks : ∀ {u}, (s.doeTakes b).doeAttest (b.drop 8) = u → exec (.doeRequest b) s
        = .next (if rd b 0 2 = Config.doeVendor.toNat ∧ rd b 2 1 = Config.doeType.toNat then u else (s.doeTakes b).doeFails) :=
      fun e => (onUnit_ok rfl).trans (congrArg _ (e ▸ doeRequest_other ready empty short long whole other))
    have bare : b.length = 16 → (b.drop 8).length = 8 := fun h => by rw [List.length_drop, h]
    exact ⟨fun busy => asks (doeAttest_busy busy), fun free bad => asks (doeAttest_unknown free bad),
      fun free version => ⟨fun kind => asks (doeAttest_report free version kind),
        fun kind h => asks (doeAttest_key free version kind (bare h)),
        fun kind h => asks (doeAttest_log free version kind (bare h))⟩⟩

end Sys2Proof.Machine
end

section
/-! PROOFS. Commands of the submission rings, and overload. -/
namespace Sys2Proof.Machine

open Sys2Proof

section
variable {s : State} {cx op i st w : Nat} {c : Command}

/-! ### Commands that act as they arrive (R336) -/

section
variable (next : (s.ring cx).nextInTally = some (i, c)) (ready : c.waits i = false) (hop : c.op = op)
include next ready hop

/-- The next command of a ring, where it is an `op` that need not wait and is not refused, starts. -/
theorem startCmd_starts (ok : s.cmdRefusal cx c = none) (start : Nat → State → State) :
    s.startCmd cx op start = (start i s).sweepReserved cx := by
  simp only [State.startCmd, next, hop, ready, ok, ne_eq, not_true_eq_false, Bool.false_eq_true, or_self, if_false]

theorem startCmd_refused (bad : s.cmdRefusal cx c = some (st, w)) (start : Nat → State → State) :
    s.startCmd cx op start = (s.finishCmd cx i st w).sweepReserved cx := by
  simp only [State.startCmd, next, hop, ready, bad, ne_eq, not_true_eq_false, Bool.false_eq_true, or_self, if_false]

end

/-- A copy in progress whose object still holds its range finishes with what its blocks met (R263). -/
theorem copyEnds_moved {k : Nat} (going : ((s.ring cx).queue.zipIdx.filter fun e => e.1.isCopy && e.1.started)[k]? = some (c, i))
    (inside : (s.objectOf cx c.dev c.arg).isSome = true) : s.copyEnds cx k =
      let r := s.copyBlocks cx c
      (r.2.2.finishCmd cx i (if r.1 then stCmdFenced else if r.2.1 then stCmdPoison else 0) 0).sweepReserved cx := by
  have there : ¬ (s.objectOf cx c.dev c.arg).isNone = true := by
    rw [Option.isNone_eq_false_iff.2 inside]; exact Bool.false_ne_true
  simp only [State.copyEnds, going, if_neg there]

/-- A boundary command is taken over as it arrives (log entry 40). -/
theorem takeOver_taken (next : (s.ring cx).nextBoundary = some (i, c)) (ready : c.waits i = false) (ok : s.cmdRefusal cx c = none)
    (hop : c.op = op) : s.takeOver cx op = s.updRing cx (markStarted i) := by
  simp only [State.takeOver, next, hop, ready, ok, ne_eq, not_true_eq_false, Bool.false_eq_true, or_self, if_false]

/-! ### Overload (R341) -/

theorem ring_updRing_other (f : Rings → Rings) {d : Nat} (h : d ≠ cx) : (s.updRing cx f).ring d = s.ring d :=
  mget_mput_other _ _ h

/-- A ring that is declared overloaded reads so, whatever the form of the map: an unlisted one is not. -/
theorem ring_updRing_overloaded :
    ((s.updRing cx fun r => { r with overloaded := true }).ring cx).overloaded = true := by
  have other : ({ s.ring cx with overloaded := true } : Rings) ≠ Rings.init := fun e => by
    simpa [Rings.init] using congrArg Rings.overloaded e
  exact congrArg Rings.overloaded (mget_mput_ne s.host.rings cx other)

theorem fget_lt (s : State) (f : Fld) (i : Nat) : s.fget f i < 2 ^ (f.hi + 1 - f.lo) := Nat.mod_lt _ (Nat.two_pow_pos _)

/-- Marking a context in SUB_OVERLOAD keeps the marks that stand there. -/
theorem fget_overload_marked (hcx : cx < 16) (canonical : mwf regDefault s.regs = true) :
    (s.fset SUB_OVERLOAD.CONTEXTS 0 (s.fget SUB_OVERLOAD.CONTEXTS 0 ||| 2 ^ cx)).fget SUB_OVERLOAD.CONTEXTS 0
      = s.fget SUB_OVERLOAD.CONTEXTS 0 ||| 2 ^ cx := by
  rw [fget_fset _ _ _ (by decide) (by decide) canonical]
  exact Nat.mod_eq_of_lt (Nat.or_lt_two_pow (fget_lt s _ 0) (Nat.pow_lt_pow_right (by decide) hcx))

theorem overload_due (enabled : s.fget SUB_POLL.OVERLOAD 0 ≠ 0)
    (backlog : s.fget SUB_POLL.OVERLOAD 0 ≤ (s.ring cx).backlogged) (onset : (s.ring cx).overloaded = false) :
    s.overload cx =
      let t := s.updRing cx fun r => { r with overloaded := true }
      let u := t.fset SUB_OVERLOAD.CONTEXTS 0 (t.fget SUB_OVERLOAD.CONTEXTS 0 ||| 2 ^ cx)
      u.setHost { u.host with overloadMessage := true } :=
  if_pos (by simp [State.overloadDue, enabled, backlog, onset])

end

/-- Settles O46: a command splits by its operation and by its refusal, and an onset marks its ring alone. -/
theorem hostCommands : Obligations.HostCommands := by
  unfold Obligations.HostCommands
  refine ⟨fun s cx hcx => ⟨fun i c next ready ok => ⟨fun hop => ?nop, fun hop => ?copyIn, fun hop => ?copyOut⟩,
      fun i c st w next ready bad => ⟨fun hop => ?nopRefused, fun hop => ?copyInRefused, fun hop => ?copyOutRefused⟩,
      fun k i c going inside => ?copied⟩,
    fun s cx i c hcx next ready ok => ?boundary, fun s cx hcx canonical enabled backlog onset => ?overload⟩
  case nop => exact (onUnit_ok (okCx_of hcx)).trans (congrArg _ (startCmd_starts next ready hop ok _))
  case copyIn => exact (onUnit_ok (okCx_of hcx)).trans (congrArg _ (startCmd_starts next ready hop ok _))
  case copyOut => exact (onUnit_ok (okCx_of hcx)).trans (congrArg _ (startCmd_starts next ready hop ok _))
  case nopRefused => exact (onUnit_ok (okCx_of hcx)).trans (congrArg _ (startCmd_refused next ready hop bad _))
  case copyInRefused => exact (onUnit_ok (okCx_of hcx)).trans (congrArg _ (startCmd_refused next ready hop bad _))
  case copyOutRefused => exact (onUnit_ok (okCx_of hcx)).trans (congrArg _ (startCmd_refused next ready hop bad _))
  case copied => exact (onUnit_ok (okCx_of hcx)).trans (congrArg _ (copyEnds_moved going inside))
  case boundary =>
    have taken : ∀ {op}, c.op = op → onUnit (okCx cx) (s.takeOver cx op) = .next (s.updRing cx (markStarted i)) :=
      fun hop => (onUnit_ok (okCx_of hcx)).trans (congrArg _ (takeOver_taken next ready ok hop))
    exact ⟨fun hop => taken hop, fun hop => taken hop, fun hop => taken hop, fun hop => taken hop⟩
  case overload =>
    refine ⟨_, (onUnit_ok (okCx_of hcx)).trans (congrArg _ (overload_due enabled backlog onset)), ?_, rfl,
      ring_updRing_overloaded, fun d hd => ring_updRing_other (s := s) (fun r => { r with overloaded := true }) hd, rfl, rfl⟩
    exact fget_overload_marked (s := s.updRing cx _) hcx canonical

end Sys2Proof.Machine
end

section
/-! PROOFS. Power states, operating points and the inner loop. -/
namespace Sys2Proof.Machine

open Sys2Proof

section
variable {s : State} {p n : Nat}

/-! ### Transitions that end (R345, R346) -/

theorem exec_powerTransitionComplete (hp : p < 12) : exec (.powerTransitionComplete p) s = .next (s.transitionEnd p) :=
  onUnit_ok (okPart_of hp)

/-- A partition that has reached state `goal` shows it, and its transition is over. -/
def State.reaches (s : State) (p goal : Nat) : State :=
  (s.updPw p fun w => { w with goal := none }).fset PWR_PART_STATUS.STATE p goal

/-- The package's Hold ends with a partition in another state, unless a command to Hold waits for it. -/
def State.holdGoesOn (s : State) (p goal : Nat) : State :=
  if goal = pwHold ∨ ((s.reaches p goal).pw p).held = some pwHold then s.reaches p goal else (s.reaches p goal).leaveHold

/-- Sleep and Hold: the array is off already, the memory goes off (R282, R346). -/
theorem transitionEnd_off {goal : Nat} (going : (s.pw p).goal = some goal) (off : goal = pwSleep ∨ goal = pwHold)
    (arr : (s.holdGoesOn p goal).up (domArr p) = false) : s.transitionEnd p =
      let u := (((s.holdGoesOn p goal).setDomain (domMem p) .off).fset MEM_STATUS.SR p 2).syncFloor p
      if u.power.portsHeld && nat12.all fun q => u.pwState q == pwHold then u.fset PWR_STATUS.HOLD 0 1 else u := by
  have h : s.transitionEnd p =
      let t := s.holdGoesOn p goal
      if goal = pwSleep ∨ goal = pwHold then
        let t := if t.up (domArr p) then t.arrOff p else t
        let u := ((t.setDomain (domMem p) .off).fset MEM_STATUS.SR p 2).syncFloor p
        if u.power.portsHeld && nat12.all fun q => u.pwState q == pwHold then u.fset PWR_STATUS.HOLD 0 1 else u
      else
        let t := if t.up (domArr p) then t else t.setDomain (domArr p) .on
        let t := if t.up (domMem p) then t else t.memReturn p
        (t.syncFloor p).startWaiting p := by
    simp only [State.transitionEnd, going]
    rfl
  rw [h]
  simp only [off, if_true, arr, Bool.false_eq_true, if_false]

/-- Active, where array and memory are up: no command to Hold waits for the partition that the transition leaves. -/
theorem transitionEnd_active (going : (s.pw p).goal = some pwActive) (free : ((s.reaches p pwActive).pw p).held ≠ some pwHold)
    (arr : (s.reaches p pwActive).leaveHold.up (domArr p) = true) (mem : (s.reaches p pwActive).leaveHold.up (domMem p) = true) :
    s.transitionEnd p = ((s.reaches p pwActive).leaveHold.syncFloor p).startWaiting p := by
  have left : s.holdGoesOn p pwActive = (s.reaches p pwActive).leaveHold :=
    if_neg fun h => h.elim (by decide) free
  have h : s.transitionEnd p =
      let t := s.holdGoesOn p pwActive
      let t := if t.up (domArr p) then t else t.setDomain (domArr p) .on
      let t := if t.up (domMem p) then t else t.memReturn p
      (t.syncFloor p).startWaiting p := by
    simp only [State.transitionEnd, going]
    rfl
  rw [h, left]
  simp only [arr, mem, if_true]

/-- The map of the partitions is in canonical form: keys strictly rising, no entry equal to what an unlisted one reads as. -/
def State.partsCanonical (s : State) : Prop := mwf (fun _ => PartPower.init) s.power.parts = true

/-- There a transition that ends leaves the command that the partition holds. -/
theorem pw_reaches (canonical : s.partsCanonical) (goal : Nat) : (s.reaches p goal).pw p = { s.pw p with goal := none } :=
  mget_mput_same p _ canonical

/-! ### Operating points and the inner loop (R349, R352) -/

section
variable (hp : p < 12)
include hp

theorem exec_voltageSettled : exec (.voltageSettled p) s = .next (s.voltageSettled p) := onUnit_ok (okPart_of hp)

theorem exec_clockSwitchComplete : exec (.clockSwitchComplete p) s = .next (s.clockSwitched p) := onUnit_ok (okPart_of hp)

theorem exec_voltageLowered : exec (.voltageLowered p) s = .next (s.voltageLowered p) := onUnit_ok (okPart_of hp)

end

theorem voltageSettled_raise (change : (s.pw p).change = .raise n) :
    s.voltageSettled p = ((s.fset PWR_PART_STATUS.POINT p n).endChange p).startWaiting p := by
  simp only [State.voltageSettled, change]

theorem voltageSettled_trim (change : (s.pw p).change = .trim) :
    s.voltageSettled p = ((s.addTrim p).endChange p).startWaiting p := by
  simp only [State.voltageSettled, change]

theorem clockSwitched_lower (change : (s.pw p).change = .lower n false) : s.clockSwitched p
    = ((s.fset PWR_PART_STATUS.POINT p n).updPw p fun w => { w with change := .lower n true }).startWaiting p := by
  simp only [State.clockSwitched, change]

theorem voltageLowered_lower (change : (s.pw p).change = .lower n true) : s.voltageLowered p = s.endChange p := by
  simp only [State.voltageLowered, change]

theorem innerLoop_up (up : s.up (domPlat 0) = true) (f m c : Nat) (w : List Nat) : s.innerLoop f m c w =
    (s.setPower { s.power with
      loops := s.power.loops + 1
      hotLoops := s.power.hotLoops + (s.fon PWR_STATUS.CAP_UNMET 0 || decide (s.fget PWR_SHARE.COMPUTE 0 < c)).toNat
      watts := [s.power.watts.getD 0 0 + f, s.power.watts.getD 1 0 + m, s.power.watts.getD 2 0 + c]
      partWatts := nat12.foldl (fun x p => mput zeroNat x p (mget zeroNat x p + w.getD p 0)) s.power.partWatts }).throttle c :=
  if_neg (by rw [up]; decide)

end

/-- What O47 says, with the premise that its clause on Active needs: the map of the partitions is in canonical form (R344, R345,
R346, R349, R350, R352, R357). -/
theorem powerStates_of_partsCanonical (s : State) (p n : Nat) (hp : p < 12) (canonical : s.partsCanonical) :
    (∀ mask, Reached s .PWR_STATE_CTRL 0 →
      exec (.powerActive mask) s = .next (s.stateWrite mask pwActive)
      ∧ exec (.powerIdle mask) s = .next (s.stateWrite mask pwIdle)
      ∧ exec (.powerSleep mask) s = .next (s.stateWrite mask pwSleep)
      ∧ exec .powerHold s = .next (s.stateWrite 0 pwHold))
    ∧ (∀ goal, (s.pw p).goal = some goal → goal = pwSleep ∨ goal = pwHold → (s.holdGoesOn p goal).up (domArr p) = false →
      let u := (((s.holdGoesOn p goal).setDomain (domMem p) .off).fset MEM_STATUS.SR p 2).syncFloor p
      exec (.powerTransitionComplete p) s = .next
        (if u.power.portsHeld && nat12.all fun q => u.pwState q == pwHold then u.fset PWR_STATUS.HOLD 0 1 else u))
    ∧ ((s.pw p).goal = some pwActive → (s.pw p).held ≠ some pwHold →
      let t := (s.reaches p pwActive).leaveHold
      t.up (domArr p) = true → t.up (domMem p) = true →
      exec (.powerTransitionComplete p) s = .next ((t.syncFloor p).startWaiting p))
    ∧ ((s.pw p).change = .raise n → exec (.voltageSettled p) s
      = .next (((s.fset PWR_PART_STATUS.POINT p n).endChange p).startWaiting p))
    ∧ ((s.pw p).change = .trim → exec (.voltageSettled p) s = .next (((s.addTrim p).endChange p).startWaiting p))
    ∧ ((s.pw p).change = .lower n false → exec (.clockSwitchComplete p) s = .next
      (((s.fset PWR_PART_STATUS.POINT p n).updPw p fun w => { w with change := .lower n true }).startWaiting p))
    ∧ ((s.pw p).change = .lower n true → exec (.voltageLowered p) s = .next (s.endChange p))
    ∧ (∀ f m c w, s.up (domPlat 0) = true → exec (.powerInnerLoop f m c w) s = .next ((s.setPower { s.power with
        loops := s.power.loops + 1
        hotLoops := s.power.hotLoops + (s.fon PWR_STATUS.CAP_UNMET 0 || decide (s.fget PWR_SHARE.COMPUTE 0 < c)).toNat
        watts := [s.power.watts.getD 0 0 + f, s.power.watts.getD 1 0 + m, s.power.watts.getD 2 0 + c]
        partWatts := nat12.foldl (fun x p => mput zeroNat x p (mget zeroNat x p + w.getD p 0)) s.power.partWatts }).throttle c)) := by
  refine ⟨fun mask h => ⟨?_, ?_, ?_, ?_⟩, fun goal going off arr => ?off, fun going free arr mem => ?active,
    fun change => ?raised, fun change => ?trimmed, fun change => ?switched, fun change => ?lowered,
    fun f m c w up => (onUnit_ok rfl).trans (congrArg _ (innerLoop_up up f m c w))⟩
  case off => rw [exec_powerTransitionComplete hp, transitionEnd_off going off arr]
  case active =>
    have left : ((s.reaches p pwActive).pw p).held ≠ some pwHold := by rwa [pw_reaches canonical]
    rw [exec_powerTransitionComplete hp, transitionEnd_active going left arr mem]
  case raised => rw [exec_voltageSettled hp, voltageSettled_raise change]
  case trimmed => rw [exec_voltageSettled hp, voltageSettled_trim change]
  case switched => rw [exec_clockSwitchComplete hp, clockSwitched_lower change]
  case lowered => rw [exec_voltageLowered hp, voltageLowered_lower change]
  all_goals exact (onUnit_ok rfl).trans (congrArg _ (writeTo_reached h _))

/-- A device whose package is held, with a map of partitions that lists partition 0 twice: first on its way to Active, holding no
command, then with a command to Hold. A write of the initial value takes the first entry away, and the second shows. -/
def twiceListed : State :=
  { State.reset with
    domains := [(domArr 0, .on), (domMem 0, .on)]
    power := { Power.init with
      portsHeld := true
      parts := [(0, { PartPower.init with goal := some pwActive }), (0, { PartPower.init with held := some pwHold })] } }

/-- The transition ends, and the package stays in Hold. -/
theorem twiceListed_stays : (twiceListed.transitionEnd 0).power.portsHeld = true := by decide +kernel

theorem twiceListed_leaves :
    (((twiceListed.reaches 0 pwActive).leaveHold.syncFloor 0).startWaiting 0).power.portsHeld = false := by decide +kernel

/-- Refutes O47: its clause on Active asks of the partition before the transition that it hold no command to Hold, and in a map
that is not in canonical form the partition may hold one after it; in `twiceListed` the package then stays in Hold. On the states
whose map has that form every clause holds (`powerStates_of_partsCanonical`). -/
theorem not_powerStates : ¬ Obligations.PowerStates := by
  unfold Obligations.PowerStates
  rintro ⟨transitions, -⟩
  obtain ⟨-, -, active⟩ := transitions twiceListed 0 0
  have leaves : exec (.powerTransitionComplete 0) twiceListed
      = .next (((twiceListed.reaches 0 pwActive).leaveHold.syncFloor 0).startWaiting 0) := active (by decide) (by decide +kernel)
    (by decide +kernel) (by decide +kernel) (by decide +kernel)
  rw [exec_powerTransitionComplete (by decide)] at leaves
  have stays := twiceListed_stays
  rw [Host.Outcome.next.inj leaves, twiceListed_leaves] at stays
  exact Bool.false_ne_true stays

end Sys2Proof.Machine
end

section
/-! PROOFS. Droops, the brake and the thermal trip. -/
namespace Sys2Proof.Machine

open Sys2Proof

section
variable {s : State} {p d : Nat}

/-! ### Detectors (R353 to R355) -/

/-- A detector that asserts is counted, shown and stretches the clock (R353). -/
def State.asserts (s : State) (p d : Nat) : State :=
  let t := s.finc DRP_COUNT.COUNT p
  ((t.fset DRP_STATUS.ASSERTED p (t.detectors p ||| 2 ^ d)).fset DRP_STATUS.LAST p d).updPw p fun w => { w with stretched := true }

theorem okPart_and_detector (hp : p < 12) (hd : d < 16) : (okPart p && okDetector d) = true := by
  rw [okPart_of hp, okDetector, decide_eq_true hd]; rfl

theorem exec_droopAssert (hp : p < 12) (hd : d < 16) : exec (.droopAssert p d) s = .next (s.droop p d) :=
  onUnit_ok (okPart_and_detector hp hd)

theorem droop_up (up : s.up (domArr p) = true) : s.droop p d
    = if ((s.asserts p d).pw p).change = .none then s.asserts p d else ((s.asserts p d).stopChange p).countAbort p :=
  if_neg (by rw [up]; decide)

theorem abandon_due (due : (s.pw p).abandonDue = true) : s.abandon p =
    let t := (s.updPw p fun w => { w with abandonDue := false, lowering := false }).fset PWR_PART_STATUS.ABANDONED p 1
    (t.fset PWR_PART_STATUS.HOLDOFF p (t.fget DRP_CTRL.HOLDOFF p)).report sevWarning blkPWR Uncoded.abandoned.code p none [] :=
  if_pos due

/-! ### The brake and the thermal floor (R358, R359) -/

theorem brake_falls (high : s.power.brakeLow = false) (started : s.started = true) (off : s.fon PWR_STATUS.BRAKE 0 = false) :
    s.brake =
      let t := ((s.setPower { s.power with brakeLow := true, brakeHigh := false }).fset PWR_STATUS.BRAKE 0 1).finc
        PWR_STATUS.BRAKES 0
      t.forEach (nat12.filter fun p => t.pwState p == pwActive) fun p s => (s.stopChange p).syncFloor p := by
  have off' : (s.setPower { s.power with brakeLow := true, brakeHigh := false }).fon PWR_STATUS.BRAKE 0 = false := off
  simp only [State.brake, high, started, off', Bool.not_true, Bool.false_eq_true, if_false]

theorem thermalTrip_first (up : s.up (domArr p) = true) (cool : (s.pw p).hot = false) : s.thermalTrip p =
    let t := ((((s.updPw p fun w => { w with hot := true }).stopChange p).syncFloor p).fset PWR_STATUS.THERMAL 0 1)
    ({ t with nose := { t.nose with floorTimes := t.tally.time :: t.nose.floorTimes } } : State).report sevFatal blkPWR
      Uncoded.thermalTrip.code p none [] :=
  if_neg (by rw [up, cool]; decide)

end

/-- Settles O48: a detector splits by whether a change is in progress, and each other event is due by its premises. -/
theorem droopsAndTrips : Obligations.DroopsAndTrips := by
  unfold Obligations.DroopsAndTrips
  intro s p d hp hd
  refine ⟨fun up calm => ?calm, fun up busy => ?busy, onUnit_ok (okPart_of hp), fun due => ?abandoned,
    fun high started off => ?brake, onUnit_ok rfl, fun up cool => ?tripped⟩
  case calm => rw [exec_droopAssert hp hd, droop_up up]; exact congrArg _ (if_pos calm)
  case busy => rw [exec_droopAssert hp hd, droop_up up]; exact congrArg _ (if_neg busy)
  case abandoned => exact (onUnit_ok (okPart_of hp)).trans (congrArg _ (abandon_due due))
  case brake => exact (onUnit_ok rfl).trans (congrArg _ (brake_falls high started off))
  case tripped => exact (onUnit_ok (okPart_of hp)).trans (congrArg _ (thermalTrip_first up cool))

end Sys2Proof.Machine
end

section
/-! PROOFS. Slices of the test engines. -/
namespace Sys2Proof.Machine

open Sys2Proof

section
variable {s : State} {p e : Nat}

section
variable (hp : p < 12) (he : e < 8)
include hp he

theorem okPart_and_engine : (okPart p && okEngine e) = true := by rw [okPart_of hp, okEngine, decide_eq_true he]; rfl

theorem exec_marchSliceEnd (r : SliceResult) : exec (.marchSliceEnd p e r) s = .next (s.marchEnd p e r) :=
  onUnit_ok (okPart_and_engine hp he)

theorem exec_scanSliceEnd (ok : Bool) : exec (.scanSliceEnd p e ok) s = .next (s.scanEnd p e ok) :=
  onUnit_ok (okPart_and_engine hp he)

theorem exec_sliceAbort : exec (.sliceAbort p e) s = .next (s.sliceAbort p e) := onUnit_ok (okPart_and_engine hp he)

end

/-! ### Slices that end in the open window (R363, R365, R367, R369) -/

/-- A march slice that ends in time leaves its background, and its site's sequence and the turn of the sites go on, but for a
repeat (R366). -/
def State.marched (s : State) (p n u b g : Nat) (again : Bool) : State :=
  let w := Work.march n u b g
  if again then s.leaveBackground w else ((s.leaveBackground w).advanceMarch n w).setTurn p n

section
variable {n u b g : Nat} {again : Bool} (work : s.engine p e = some (.march n u b g, again)) (open_ : s.test.window = true)
include work open_

theorem marchEnd_pass (timely : s.sliceLate = false) : s.marchEnd p e .pass
    = ((s.marched p n u b g again).slicePassed p (.march n u b g) again).nextWork p e (.march n u b g) again := by
  simp only [State.marchEnd, work, open_, timely, Bool.not_true, Bool.false_eq_true, if_false, State.marched]

theorem marchEnd_fail (timely : s.sliceLate = false) (row el : Nat) : s.marchEnd p e (.fail row el)
    = ((s.marched p n u b g again).sliceFailed p (.march n u b g) again row el).nextWork p e (.march n u b g) again := by
  simp only [State.marchEnd, work, open_, timely, Bool.not_true, Bool.false_eq_true, if_false, State.marched]

theorem sliceAbort_march : s.sliceAbort p e = (s.setEngine p e none).finc BST_STATUS.ABORTS 0 := by
  simp [State.sliceAbort, work, open_, Work.isScan]

theorem marchEnd_late (late : s.sliceLate = true) (r : SliceResult) :
    s.marchEnd p e r = (s.setEngine p e none).finc BST_STATUS.ABORTS 0 := by
  simp only [State.marchEnd, work, open_, late, Bool.not_true, Bool.false_eq_true, if_false, if_true, sliceAbort_march work open_]

end

section
variable {n : Nat} {again : Bool} (work : s.engine p e = some (.scan n, again)) (open_ : s.test.window = true)
include work open_

theorem scanEnd_timely (timely : s.sliceLate = false) (clean : s.slicePoison p = []) (ok : Bool) : s.scanEnd p e ok
    = (if ok then s.slicePassed p (.scan n) again else s.sliceFailed p (.scan n) again 0 0).nextWork p e (.scan n) again := by
  simp only [State.scanEnd, work, open_, timely, clean, List.isEmpty_nil, Bool.not_true, Bool.or_self, Bool.false_eq_true,
    if_false]

theorem scanEnd_spoilt (spoilt : s.sliceLate = true ∨ s.slicePoison p ≠ []) (ok : Bool) :
    s.scanEnd p e ok = s.sliceAbort p e := by
  have h : (s.sliceLate || !(s.slicePoison p).isEmpty) = true := by simpa using spoilt
  simp only [State.scanEnd, work, open_, h, Bool.not_true, Bool.false_eq_true, if_false, if_true]

end

/-- Outside the window no slice runs. -/
theorem sliceAbort_closed (closed : s.test.window = false) : s.sliceAbort p e = s := by
  unfold State.sliceAbort
  split
  · rfl
  · simp [closed]

/-! ### The window, results and the pattern store (R362, R368, R374) -/

theorem windowStart_due (closed : s.test.window = false) (due : s.windowDue = true) : s.windowStart
    = (s.setTest { s.test with window := true }).forEach nat12 fun p s =>
        s.forEach (List.range 8) fun e s => s.startEngine p e :=
  if_neg (by rw [closed, due]; decide)

theorem windowStart_early (early : s.windowDue = false) : s.windowStart = s := if_pos (by rw [early]; simp)

theorem storeCopied_good (done : 5 ≤ s.bringUp.done) : s.storeCopied true = s.fset SCN_STATUS.STORED 0 1 :=
  if_neg (Nat.not_lt.2 done)

theorem storeCopied_bad (done : 5 ≤ s.bringUp.done) (first : s.test.invalidReported = false) : s.storeCopied false =
    let t := s.fset SCN_STATUS.PATTERNS_INVALID 0 1
    (t.setTest { t.test with invalidReported := true }).report sevWarning blkSCN Uncoded.patternsInvalid.code 0xFFFF none [] :=
  (if_neg (Nat.not_lt.2 done)).trans (if_neg (show ¬ s.test.invalidReported = true by rw [first]; decide))

end

/-- Settles O49: a slice that ends splits by its work, by whether it ends in time and, for a scan, by whether its patterns were
good. -/
theorem testSlices : Obligations.TestSlices := by
  unfold Obligations.TestSlices
  intro s p e hp he
  refine ⟨fun n u b g again work open_ timely => ⟨?marchPass, fun row el => ?marchFail⟩,
    fun n again work open_ timely clean => ⟨?scanPass, ?scanFail⟩,
    fun n u b g again work open_ => ⟨?aborted, fun late r => ?late⟩, fun n again ok work open_ spoilt => ?spoilt,
    fun closed => ?closed, fun closed due => (onUnit_ok rfl).trans (congrArg _ (windowStart_due closed due)),
    fun early => (onUnit_ok rfl).trans (congrArg _ (windowStart_early early)),
    fun h => (onUnit_ok rfl).trans (congrArg _ (writeTo_reached h _)),
    fun done => (onUnit_ok rfl).trans (congrArg _ (storeCopied_good done)),
    fun done first => (onUnit_ok rfl).trans (congrArg _ (storeCopied_bad done first))⟩
  case marchPass => exact (exec_marchSliceEnd hp he _).trans (congrArg _ (marchEnd_pass work open_ timely))
  case marchFail => exact (exec_marchSliceEnd hp he _).trans (congrArg _ (marchEnd_fail work open_ timely row el))
  case scanPass => exact (exec_scanSliceEnd hp he _).trans (congrArg _ (scanEnd_timely work open_ timely clean true))
  case scanFail => exact (exec_scanSliceEnd hp he _).trans (congrArg _ (scanEnd_timely work open_ timely clean false))
  case aborted => rw [exec_sliceAbort hp he, sliceAbort_march work open_]
  case late => rw [exec_marchSliceEnd hp he, marchEnd_late work open_ late]
  case spoilt => rw [exec_scanSliceEnd hp he, exec_sliceAbort hp he, scanEnd_spoilt work open_ spoilt]
  case closed => rw [exec_sliceAbort hp he, sliceAbort_closed closed]

end Sys2Proof.Machine
end

section
/-! PROOFS. The named plans of self-test, and raw access. -/
namespace Sys2Proof.Machine

open Sys2Proof

section
variable {s : State}

/-! ### Plans that start (R372, R373) -/

/-- A plan that runs outside the window waits for its start, and shows BUSY (R372). -/
def State.planBegun (s : State) (n mask : Nat) : State :=
  (((s.setTest { s.test with plan := some ⟨n, mask, s.planSites n mask, false⟩ }).fset
    BST_PLAN_STATUS.PLAN 0 n).fset BST_PLAN_STATUS.CODE 0 0).fset BST_PLAN_STATUS.BUSY 0 1

section
variable {plan mask L : Nat}

theorem planWrite_begins (ok : s.planRefusal plan mask L = 0) (h0 : plan ≠ 0) (h3 : plan ≠ 3) (h6 : plan ≠ 6) :
    s.planWrite plan mask L = s.planBegun plan mask := by
  simp only [State.planWrite, ok, h0, h3, h6, if_false, State.planBegun]

/-- SCAN_NEXT is done at once. -/
theorem planWrite_scanNext (ok : s.planRefusal 3 mask L = 0) {n : Nat} (site : (s.cl L).site = some n) :
    s.planWrite 3 mask L = ((State.planEnd { s with placer := { s.placer with
      rotateNext := mput zeroNat s.placer.rotateNext (partOfSite n) (localIndex n) } } 3 0).planSummary 3 outPass 0) := by
  simp only [State.planWrite, ok, site, Option.getD_some, if_true]
  rfl

/-- RAW is on at once. -/
theorem planWrite_raw (ok : s.planRefusal 6 mask L = 0) :
    s.planWrite 6 mask L = ((s.setTest { s.test with raw := true }).planEnd 6 0).planSummary 6 outPass 0 := by
  simp only [State.planWrite, ok, if_true]
  rfl

end

section
variable (h : Reached s .BST_PLAN_CTRL 0)
include h

theorem exec_vaultFull (mask : Nat) : exec (.vaultFull mask) s = .next (s.planWrite 1 mask 0) :=
  (onUnit_ok rfl).trans (congrArg _ (writeTo_reached h _))

theorem exec_scanFull (mask : Nat) : exec (.scanFull mask) s = .next (s.planWrite 2 mask 0) :=
  (onUnit_ok rfl).trans (congrArg _ (writeTo_reached h _))

theorem exec_retest (mask : Nat) : exec (.retest mask) s = .next (s.planWrite 4 mask 0) :=
  (onUnit_ok rfl).trans (congrArg _ (writeTo_reached h _))

theorem exec_ledgerClear : exec .ledgerClear s = .next (s.planWrite 5 0 0) :=
  (onUnit_ok rfl).trans (congrArg _ (writeTo_reached h _))

theorem exec_scanNext {L : Nat} (hL : L < 288) : exec (.scanNext L) s = .next (s.planWrite 3 0 L) :=
  (onUnit_ok (okCluster_of hL)).trans (congrArg _ (writeTo_reached h _))

theorem exec_raw : exec .raw s = .next (s.planWrite 6 0 0) := (onUnit_ok rfl).trans (congrArg _ (writeTo_reached h _))

end

/-! ### Plans that end (R365, R372, R374) -/

section
variable {t : TestPlan} {found : List UnitFailure} (plan : s.test.plan = some t) (started : t.started = true)
include plan started

/-- What ends with a plan, whichever it is. -/
theorem planComplete_started : s.planComplete found =
    let failed := found.filter (s.planFinds t)
    let bad := failedSites failed
    let v := s.forEach failed fun f s => s.planFailure t.plan f
    let u := if t.plan = 1 ∨ t.plan = 4 then v.forEach t.sites fun n s => s.marchedWhole n else v
    let w := u.setTest { u.test with plan := none, clearDue := u.test.clearDue || t.plan == 5 }
    let x :=
      if t.plan = 4 then
        let good := if w.fon SCN_STATUS.PATTERNS_INVALID 0 then [] else t.sites.filter fun n => !bad.contains n
        let x := w.forEach good fun n s => s.forgetDefects n
        x.setTest { x.test with restored := x.test.restored ++ good }
      else if t.plan = 5 then w
      else w.setTest { w.test with confirmed := w.test.confirmed ++ failed.map fun f => ⟨f.site, f.unit, f.row⟩ }
    (x.planEnd t.plan 0).planSummary t.plan (if bad.isEmpty then outPass else outFailed) bad.length := by
  simp only [State.planComplete, plan, started, Bool.not_true, Bool.false_eq_true, if_false]

/-- VAULT_FULL and SCAN_FULL confirm what they found; the march of the vaults leaves its background (R365). -/
theorem planComplete_full (full : t.plan = 1 ∨ t.plan = 2) : s.planComplete found =
    let failed := found.filter (s.planFinds t)
    let v := s.forEach failed fun f s => s.planFailure t.plan f
    let u := if t.plan = 1 then v.forEach t.sites fun n s => s.marchedWhole n else v
    let n := (failedSites failed).length
    ((u.setTest { u.test with
      plan := none, confirmed := u.test.confirmed ++ failed.map fun f => ⟨f.site, f.unit, f.row⟩ }).planEnd t.plan 0).planSummary
        t.plan (if n = 0 then outPass else outFailed) n := by
  rw [planComplete_started plan started]
  rcases full with e | e
  · simp [e, State.setTest]
  · simp [e, State.setTest]

/-- RETEST takes the sites that it found good out of the ledger (R372). -/
theorem planComplete_retest (retest : t.plan = 4) : s.planComplete found =
    let failed := found.filter (s.planFinds t)
    let bad := failedSites failed
    let v := (s.forEach failed fun f s => s.planFailure 4 f).forEach t.sites fun n s => s.marchedWhole n
    let w := v.setTest { v.test with plan := none }
    let good := if w.fon SCN_STATUS.PATTERNS_INVALID 0 then [] else t.sites.filter fun n => !bad.contains n
    let x := w.forEach good fun n s => s.forgetDefects n
    ((x.setTest { x.test with restored := x.test.restored ++ good }).planEnd 4 0).planSummary 4
      (if bad = [] then outPass else outFailed) bad.length := by
  rw [planComplete_started plan started]
  simp [retest]

/-- LEDGER_CLEAR is due at the next bring-up (R372). -/
theorem planComplete_clear (clear : t.plan = 5) : s.planComplete found =
    let failed := found.filter (s.planFinds t)
    let v := s.forEach failed fun f s => s.planFailure 5 f
    let bad := failedSites failed
    ((v.setTest { v.test with plan := none, clearDue := true }).planEnd 5 0).planSummary 5
      (if bad = [] then outPass else outFailed) bad.length := by
  rw [planComplete_started plan started]
  simp [clear]

end

/-! ### Raw access (R373, R427) -/

section
variable {n u row : Nat} (hn : n < 336) (h : Reached s .SCN_RAW_CTRL 0)
include hn h

theorem exec_rawApplyPatterns : exec (.rawApplyPatterns n) s = .next (s.rawWrite 1 n 0 0 id) :=
  (onUnit_ok (okSite_of hn)).trans (congrArg _ (writeTo_reached h _))

theorem exec_rawReadWord : exec (.rawReadWord n u row) s
    = .next (s.rawWrite 2 n u row fun s => s.hostWrite s.rawAddr (s.rawWord n u row)) :=
  (onUnit_ok (okSite_of hn)).trans (congrArg _ (writeTo_reached h _))

theorem exec_rawWriteWord : exec (.rawWriteWord n u row) s
    = .next (s.rawWrite 3 n u row fun s => s.setRawWord n u row (s.hostRead s.rawAddr (unitWidth u))) :=
  (onUnit_ok (okSite_of hn)).trans (congrArg _ (writeTo_reached h _))

end

/-- SCN_RAW_CTRL shows the command that was written. -/
def State.rawShown (s : State) (op n u row : Nat) : State :=
  (((s.fset SCN_RAW_CTRL.OP 0 op).fset SCN_RAW_CTRL.UNIT 0 u).fset SCN_RAW_CTRL.ROW 0 row).fset SCN_RAW_CTRL.SITE 0 n

section
variable {op n u row : Nat} {act : State → State}

theorem rawWrite_allowed (raw : s.test.raw = true) (open_ : s.rwlOpen = true)
    (spare : (s.site n).state = .SPARE ∨ (s.site n).state = .DEFECTIVE) (up : s.up (domArr (partOfSite n)) = true)
    (row_ : op = 1 ∨ row < unitRows u) : s.rawWrite op n u row act = act (s.rawShown op n u row) := by
  have here : (((s.rawShown op n u row).site n).state == .SPARE || ((s.rawShown op n u row).site n).state == .DEFECTIVE)
      = true := by
    change ((s.site n).state == .SPARE || (s.site n).state == .DEFECTIVE) = true
    simpa using spare
  have fits : (op == 1 || decide (row < unitRows u)) = true := by simpa using row_
  rw [State.rawWrite, if_pos (by rw [raw, open_]; rfl)]
  exact if_pos (Bool.and_eq_true_iff.2 ⟨Bool.and_eq_true_iff.2 ⟨here, up⟩, fits⟩)

theorem rawWrite_denied (shut : s.test.raw = false ∨ s.rwlOpen = false) :
    s.rawWrite op n u row act = s.finc SEC_STATUS.DENIED 0 :=
  if_neg (by rcases shut with h | h <;> simp [h])

end

end

/-- Settles O50: a plan that is not refused starts or is done, one that ends splits by its number, and raw access by whether it
is on. -/
theorem testPlans : Obligations.TestPlans := by
  unfold Obligations.TestPlans
  refine ⟨fun s mask h => ⟨fun ok => ?vaultFull, fun ok => ?scanFull, fun ok => ?retest, fun ok => ?ledgerClear,
      fun L n hL ok site => ?scanNext, fun ok => ?raw, fun t found plan started full ok => ?full,
      fun t found plan started retest ok => ?retested, fun t found plan started clear ok => ?cleared⟩,
    fun s n u row hn h => ⟨fun raw open_ spare up => ⟨?apply, fun fits => ?read, fun fits => ?write⟩, fun shut c hc => ?denied⟩⟩
  case vaultFull => exact (exec_vaultFull h mask).trans (congrArg _ (planWrite_begins ok (by decide) (by decide) (by decide)))
  case scanFull => exact (exec_scanFull h mask).trans (congrArg _ (planWrite_begins ok (by decide) (by decide) (by decide)))
  case retest => exact (exec_retest h mask).trans (congrArg _ (planWrite_begins ok (by decide) (by decide) (by decide)))
  case ledgerClear => exact (exec_ledgerClear h).trans (congrArg _ (planWrite_begins ok (by decide) (by decide) (by decide)))
  case scanNext => exact (exec_scanNext h hL).trans (congrArg _ (planWrite_scanNext ok site))
  case raw => exact (exec_raw h).trans (congrArg _ (planWrite_raw ok))
  case full => exact (onUnit_ok ok).trans (congrArg _ (planComplete_full plan started full))
  case retested => exact (onUnit_ok ok).trans (congrArg _ (planComplete_retest plan started retest))
  case cleared => exact (onUnit_ok ok).trans (congrArg _ (planComplete_clear plan started clear))
  case apply => exact (exec_rawApplyPatterns hn h).trans (congrArg _ (rawWrite_allowed raw open_ spare up (.inl rfl)))
  case read => exact (exec_rawReadWord hn h).trans (congrArg _ (rawWrite_allowed raw open_ spare up (.inr fits)))
  case write => exact (exec_rawWriteWord hn h).trans (congrArg _ (rawWrite_allowed raw open_ spare up (.inr fits)))
  case denied =>
    rcases hc with rfl | rfl | rfl
    · exact (exec_rawApplyPatterns hn h).trans (congrArg _ (rawWrite_denied shut))
    · exact (exec_rawReadWord hn h).trans (congrArg _ (rawWrite_denied shut))
    · exact (exec_rawWriteWord hn h).trans (congrArg _ (rawWrite_denied shut))

end Sys2Proof.Machine
end

section
/-! PROOFS. Resets of partitions, of a die and of the package. -/
namespace Sys2Proof.Machine

open Sys2Proof

section
variable {s : State} {p d : Nat}

/-! ### Partition resets (R381, R383) -/

theorem fenceTimeout_draining (draining : s.fon FNC_PART_STATUS.DRAINING p = true) : s.fenceTimeout p
    = (({ s with fabric := { s.fabric with
        writes := s.fabric.writes.map fun w => if s.writesTo p w then { w with bad := true } else w } } : State).fadd
          FNC_PART_STATUS.ANSWERED p ((s.fabric.writes.countP fun w => !w.bad && s.writesTo p w) + (s.waitAt p).length)).fset
            FNC_PART_STATUS.DRAINING p 0 := if_pos draining

theorem fenceDrainEnd_drained {r : PartReset} (reset : s.partReset p = some r) (new : r.ready = false)
    (die : s.dieReset (dieOfPart p) = false) (drained : s.fon FNC_PART_STATUS.DRAINING p = false ∨ s.outstanding p = false) :
    s.fenceDrainEnd p = (((s.fset FNC_PART_STATUS.DRAINING p 0).resetDomains p).fset RST_PART_STATUS.STEP p 6).setPartReset p
      (some { r with ready := true }) := by
  have ended : (r.ready || s.dieReset (dieOfPart p) || (s.fon FNC_PART_STATUS.DRAINING p && s.outstanding p)) = false := by
    rcases drained with h | h <;> simp [new, die, h]
  simp only [State.fenceDrainEnd, reset, ended, Bool.false_eq_true, if_false]

/-! ### Resets of a die and critical trips (R360, R376, R389, R390) -/

theorem okDie_of (h : d < 4) : okDie d = true := decide_eq_true h

theorem exec_diePlatformReset (hd : d < 4) (h : Reached s .RST_DIE_CTRL 0) :
    exec (.diePlatformReset d) s = .next (s.resetDie d).settleAll :=
  (onUnit_ok (okDie_of hd)).trans (congrArg _ (writeTo_reached h _))

theorem exec_dieResetComplete (hd : d < 4) : exec (.dieResetComplete d) s = .next (s.dieComplete d).settleAll :=
  onUnit_ok (okDie_of hd)

theorem resetDie_starts (out : s.dieReset d = false) : s.resetDie d
    = ((if d = 0 then s.dieZeroDown else s.dieDown d).fset RST_STATUS.LAST_DIE 0 d).fset RST_STATUS.DIE_RESET 0 1 :=
  if_neg (by rw [out]; decide)

theorem resetDie_lasting (in_ : s.dieReset d = true) : s.resetDie d = s.finc RST_STATUS.IGNORED 0 := if_pos in_

theorem dieComplete_other (in_ : s.dieReset d = true) (other : d ≠ 0) : s.dieComplete d = s.dieUp d :=
  (if_neg (by rw [in_]; decide)).trans (if_neg other)

theorem dieComplete_zero (in_ : s.dieReset 0 = true) : s.dieComplete 0
    = ((s.setRecovery { s.recovery with dies := mput noBool s.recovery.dies 0 false }).setDomain (domPlat 0)
        .on).rebase.startTime :=
  (if_neg (by rw [in_]; decide)).trans rfl

theorem exec_criticalTrip {n : Nat} (hn : n < 684) :
    exec (.criticalTrip n) s = .next (if n < 96 then s.criticalTrip .criticalTrip n else s) :=
  onUnit_ok (decide_eq_true hn)

theorem regulatorFault_running {n : Nat} (running : s.fon NOS_STATUS.RUNNING 0 = true) :
    s.regulatorFault n = s.criticalTrip .regulatorFault n := if_pos running

end

/-- Settles O52: a request waits in its register, and a drain that is over lets its partition be reset. -/
theorem partitionResets : Obligations.PartitionResets := by
  unfold Obligations.PartitionResets
  refine fun s mask p => ⟨fun replay h => ?requested, fun h => ?context, fun hp draining => ?timeout,
    fun r hp reset new die drained => ?drained⟩
  case requested => exact (onUnit_ok rfl).trans (congrArg _ (writeTo_reached h _))
  case context => exact (onUnit_ok rfl).trans (congrArg _ (writeTo_reached h _))
  case timeout => exact (onUnit_ok (okPart_of hp)).trans (congrArg _ (fenceTimeout_draining draining))
  case drained => exact (onUnit_ok (okPart_of hp)).trans (congrArg _ (fenceDrainEnd_drained reset new die drained))

/-- Settles O53: a reset of a die splits by whether it is in reset already and by whether it is CD0, a trip by its sensor. -/
theorem dieAndPackageResets : Obligations.DieAndPackageResets := by
  unfold Obligations.DieAndPackageResets
  refine fun s d hd => ⟨fun h => ⟨fun out => ?starts, fun in_ => ?lasts⟩, fun in_ other => ?returns, fun in_ => ?zero,
    fun h => ?cold, onUnit_ok rfl, onUnit_ok rfl, onUnit_ok rfl, fun n hn => ?trip, fun n low hn => ?noTrip,
    fun n hn running => ?regulator⟩
  case starts => rw [exec_diePlatformReset hd h, resetDie_starts out]
  case lasts => rw [exec_diePlatformReset hd h, resetDie_lasting in_]
  case returns => rw [exec_dieResetComplete hd, dieComplete_other in_ other]
  case zero => rw [exec_dieResetComplete (by decide), dieComplete_zero in_]
  case cold => exact (onUnit_ok rfl).trans (congrArg _ (writeTo_reached h _))
  case trip => rw [exec_criticalTrip (by omega), if_pos hn]
  case noTrip => rw [exec_criticalTrip hn, if_neg (Nat.not_lt.2 low)]
  case regulator => exact (onUnit_ok (decide_eq_true hn)).trans (congrArg _ (regulatorFault_running running))

end Sys2Proof.Machine
end

section
/-! PROOFS. The steps of bring-up. -/
namespace Sys2Proof.Machine

open Sys2Proof

/-! ### Starting a step (R394, R405) -/

/-- BRG_STATUS as step `n` shows it when it begins, and the total, which the first step starts anew. -/
def State.brgBegun (s : State) (n : Nat) : State :=
  let t := ((s.fset BRG_STATUS.BUSY 0 1).fset BRG_STATUS.STEP 0 n).fset BRG_STATUS.CODE 0 0
  if n = 1 then t.fset BRG_TOTAL.TOTAL 0 0 else t

/-- Step `n` in progress, with the outcome and the state `r` of its actions. -/
def stepRunning (n : Nat) (r : StepOutcome × State) : State :=
  r.2.setBringUp { r.2.bringUp with running := some (n, r.1.code, r.1.notes, r.1.budget) }

section
variable {s : State} {n : Nat}

theorem nextStep_succ {d : Nat} (done : s.bringUp.done = d) (inRange : d < 9) (retry : s.mayRetry = true) :
    s.nextStep (d + 1) = true := by
  have le : decide (d + 1 ≤ 9) = true := decide_eq_true (by omega)
  simp only [State.nextStep, done, retry, le, beq_self_eq_true, Bool.and_self]

theorem nextStep_outOfOrder (other : n ≠ s.bringUp.done + 1) : s.nextStep n = false := by
  simp only [State.nextStep, beq_false_of_ne other, Bool.false_and]

theorem brgStart_next (idle : s.bringUp.running = none) (next : s.nextStep n = true) (run : State → StepOutcome × State) :
    s.brgStart n run = stepRunning n (run (s.brgBegun n)) :=
  (if_neg (by rw [idle]; decide)).trans (if_neg (by rw [next]; decide))

theorem brgStart_outOfOrder (idle : s.bringUp.running = none) (order : s.nextStep n = false)
    (run : State → StepOutcome × State) : s.brgStart n run = s.fset BRG_STATUS.CODE 0 brgOrder :=
  (if_neg (by rw [idle]; decide)).trans (if_pos (by rw [order]; decide))

/-- A write of the next step, where BRG_STEP takes it and nothing keeps the step from being tried. -/
theorem brgWrite_next {d : Nat} (h : Reached s .BRG_STEP 0) (idle : s.bringUp.running = none) (retry : s.mayRetry = true)
    (inRange : d < 9) (done : s.bringUp.done = d) (run : State → StepOutcome × State) :
    onUnit true (s.brgWrite (d + 1) run) = .next (stepRunning (d + 1) (run (s.brgBegun (d + 1)))) :=
  (onUnit_ok rfl).trans (congrArg _ ((writeTo_reached h _).trans
    (brgStart_next idle (nextStep_succ done inRange retry) run)))

theorem brgWrite_outOfOrder (h : Reached s .BRG_STEP 0) (idle : s.bringUp.running = none) (other : n ≠ s.bringUp.done + 1)
    (run : State → StepOutcome × State) :
    onUnit true (s.brgWrite n run) = .next (s.fset BRG_STATUS.CODE 0 brgOrder) :=
  (onUnit_ok rfl).trans (congrArg _ ((writeTo_reached h _).trans
    (brgStart_outOfOrder idle (nextStep_outOfOrder other) run)))

theorem exec_brgStepVaultTest {u : List UnitFailure} (ok : u.all UnitFailure.ok = true) :
    exec (.brgStepVaultTest u) s = onUnit true (s.brgWrite 6 (stepVaultTest u)) :=
  (onUnit_ok ok).trans (onUnit_ok rfl).symm

/-! ### The end of a step (R394, R397, R405) -/

/-- The registers and the notes at the end of a step. -/
def State.stepShown (s : State) (us code notes budget : Nat) : State :=
  let t := (((s.fset BRG_STATUS.BUSY 0 0).fset BRG_STATUS.DONE 0 1).fset BRG_STATUS.CODE 0 code)
  let t := (t.fset BRG_TIME.BUDGET 0 budget).fset BRG_TIME.ELAPSED 0 (min 65535 (us / 1000))
  (t.fset BRG_TOTAL.TOTAL 0 ((t.fget BRG_TOTAL.TOTAL 0 + us) % 2 ^ 32)).addNotes
    (notes ||| if 1000 * budget < us then noteOver else 0)

theorem stepEnd_good {us code notes budget : Nat} (running : s.bringUp.running = some (n, code, notes, budget))
    (good : code = 0) :
    s.stepEnd us = ((s.stepShown us code notes budget).setBringUp { (s.stepShown us code notes budget).bringUp with
      running := none, done := n, failures := 0, failCode := 0 }).stepDone n := by
  simp only [State.stepEnd, running]
  exact if_pos good

theorem stepEnd_failed {us code notes budget : Nat} (running : s.bringUp.running = some (n, code, notes, budget))
    (failed : code ≠ 0) :
    s.stepEnd us = ((s.stepShown us code notes budget).setBringUp { (s.stepShown us code notes budget).bringUp with
      running := none
      failures := if code = brgLedger ∨ code = brgThermal then (s.stepShown us code notes budget).bringUp.failures
        else (s.stepShown us code notes budget).bringUp.failures + 1
      failCode := code }).report sevFatal blkBRG code 0xFFFF none [] := by
  simp only [State.stepEnd, running]
  exact if_neg failed

end

/-- Settles O54: the step that the write names is the next one, or it is out of order; its end goes by its code. -/
theorem bringUpSteps : Obligations.BringUpSteps := by
  unfold Obligations.BringUpSteps
  constructor
  · intro s ok rebuild fuses l m u h idle retry begun ran
    have beginning : begun = s.brgBegun := rfl
    have inProgress : ran = stepRunning := rfl
    clear_value begun ran
    subst beginning inProgress
    have next (run : State → StepOutcome × State) (d : Nat) (inRange : d < 9) (done : s.bringUp.done = d) :=
      brgWrite_next h idle retry inRange done run
    exact ⟨fun done => next stepFirmware 0 (by decide) done,
      fun done => ⟨next (stepFuses rebuild fuses) 1 (by decide) done, next (stepFuses true ⟨true, []⟩) 1 (by decide) done⟩,
      fun done => next (stepPower ok) 2 (by decide) done,
      fun done => next (stepLock ok) 3 (by decide) done,
      fun done => ⟨next (stepTrain l) 4 (by decide) done, next (stepRestore m l) 4 (by decide) done⟩,
      fun done fine => (exec_brgStepVaultTest fine).trans (next (stepVaultTest u) 5 (by decide) done),
      fun done => next stepPlace 6 (by decide) done,
      fun done => next stepFabric 7 (by decide) done,
      fun done => next (fun s => (⟨0, 0, 5⟩, s)) 8 (by decide) done,
      fun later => brgWrite_outOfOrder h idle (fun first => later (Nat.succ.inj first).symm) stepFirmware⟩
  · intro s us n code notes budget running t₀ t₁ t
    exact ⟨fun good => (onUnit_ok rfl).trans (congrArg _ (stepEnd_good running good)),
      fun failed => (onUnit_ok rfl).trans (congrArg _ (stepEnd_failed running failed))⟩

end Sys2Proof.Machine
end

section
/-! PROOFS. The commands of the security engine. -/
namespace Sys2Proof.Machine

open Sys2Proof

section
variable {s : State} {k : Nat}

/-! ### An envelope that was fetched (R409, R413) -/

/-- The engine runs a command, or can take one. -/
def State.secRuns (s : State) : Prop := s.secServes = true ∨ s.security.command.isSome = true

/-- The submitted envelope is one of KIND `k`, or its form names none. -/
def State.submitsKind (s : State) (k : Nat) : Prop := s.submitted.badFormat = true ∨ s.submitted.kind = k

/-- A challenge that the command carried is used up. -/
def State.drawnAfter (s : State) (e : Env) (t : State) : State := if s.carries e then t.drawChallenge else t

/-- The end of a command of KIND `k` whose envelope could be fetched. -/
def State.commandEnds (s : State) (e : Env) (k : Nat) (apply : Env → State → State) (written : Bool) : State :=
  s.drawnAfter e (match s.envRefusal true e with
    | some code => s.secEnd (e.kind % 16) code
    | none => if written && e.fits then (apply e s).secEnd k 0 else s.secEnd k 0x0B)

theorem not_secIdle (runs : s.secRuns) : (!s.secServes && s.security.command.isNone) = false := by
  rcases runs with h | h
  · simp [h]
  · simp [Option.isNone_eq_false_iff.2 h]

theorem envRefusal_badFormat {e : Env} (bad : e.badFormat = true) : s.envRefusal true e = some 0x03 :=
  (if_neg (by decide)).trans (if_pos bad)

theorem envRefusal_unchallenged {e : Env} (form : e.badFormat = false) (device : e.deviceId = s.deviceId) (kind : 5 ≤ e.kind)
    (stale : s.carries e = false) : s.envRefusal true e = some 0x05 := by
  have elsewhere : ¬ (e.deviceId ≠ s.deviceId ∧ (!decide (e.kind ≤ 3 ∧ e.deviceId = zeros 32)) = true) :=
    fun h => h.1 device
  have unchallenged : e.kind ≥ 5 ∧ (!(s.security.challengeValid && e.challenge == s.challengeBytes)) = true :=
    ⟨kind, by rw [← State.carries, stale]; rfl⟩
  exact (if_neg (by decide)).trans ((if_neg (by rw [form]; decide)).trans ((if_neg elsewhere).trans (if_pos unchallenged)))

/-- A command ends as its envelope's checks say; one of a bad format ends so under any row. -/
theorem secCommand_fetched (runs : s.secRuns) (kind : s.submitsKind k) (written : Bool) (apply : Env → State → State) :
    s.secCommand k true written apply = s.commandEnds s.submitted k apply written := by
  have mine : (true && !s.submitted.badFormat && s.submitted.kind != k) = false := by
    rcases kind with h | h <;> simp [h]
  have taken : ¬ ((!s.secServes && s.security.command.isNone)
      || (true && !s.submitted.badFormat && s.submitted.kind != k)) = true := by
    rw [not_secIdle runs, mine]; decide
  refine (if_neg taken).trans ?_
  rcases kind with bad | same
  · simp only [envRefusal_badFormat bad, State.commandEnds, State.drawnAfter, State.afterCommand, Bool.true_and, if_true]
  · subst same
    rfl

/-- An envelope that cannot be fetched carries no challenge. -/
theorem secCommand_notFetched (runs : s.secRuns) (written : Bool) (apply : Env → State → State) :
    s.secCommand k false written apply = s.secEnd 0 0x02 := by
  have taken : ¬ ((!s.secServes && s.security.command.isNone)
      || (false && !s.submitted.badFormat && s.submitted.kind != k)) = true := by
    rw [not_secIdle runs]; simp
  exact (if_neg taken).trans rfl

/-! ### GO (R413) -/

/-- SEC_CMD_CTRL takes writes where the engine serves and PD_AON, its own domain, is in service. -/
theorem reached_secCtrl (serves : s.secServes = true) (aon : s.up domAon = true) : Reached s .SEC_CMD_CTRL 0 := by
  obtain ⟨bars, up⟩ := (Bool.and_eq_true _ _).mp serves
  have firmware : s.firmwareServes .SEC_CMD_CTRL = true := by
    rw [State.firmwareServes, show Reg.info .SEC_CMD_CTRL = ⟨.G, 0x4000, 0x14, [], false, 0, [⟨0, 0, .WO⟩]⟩ from rfl]
    simp
  have served : s.served .SEC_CMD_CTRL 0 true = true := by
    rw [State.served, firmware, show s.regDomain .SEC_CMD_CTRL 0 = domAon from rfl, aon]
    rfl
  exact ⟨bars, up, rfl, served⟩

theorem exec_go (serves : s.secServes = true) (aon : s.up domAon = true) :
    exec (.registerWrite 0x4014 4 1) s = .next s.secGo := by
  have found : bar0Reg 0x4014 = some (.SEC_CMD_CTRL, 0, false) := by decide
  refine (onUnit_ok rfl).trans (congrArg _ ((regWrite_reached 1 (reached_secCtrl serves aon) (by decide) rfl (by decide)
    (by decide) found (by decide)).trans ?_))
  rw [putWord_narrow (by decide) (by decide)]
  rfl

theorem secGo_busy (serves : s.secServes = true) (busy : s.security.command.isSome = true) :
    s.secGo = s.fset SEC_CMD_STATUS.CODE 0 0x01 :=
  (if_neg (by rw [serves]; decide)).trans (if_pos busy)

theorem secGo_idle (serves : s.secServes = true) (idle : s.security.command = none) :
    s.secGo = (s.setSec { s.security with
      command := some (s.fget SEC_CMD_ADDR.ADDR 0 * 64, s.fget SEC_CMD_LEN.LENGTH 0) }).fset SEC_CMD_STATUS.BUSY 0 1 :=
  (if_neg (by rw [serves]; decide)).trans (if_neg (by rw [idle]; decide))

end

/-- What O55 says, with the premise that its clauses on GO need: PD_AON is in service. Every row is the engine's one command, for
its own KIND and what that KIND sets (R409, R410, R412, R413, R416, R417, R418, R425). -/
theorem securityCommands_of_aonUp (s : State) (runs : s.secRuns) (aon : s.up domAon = true) :
    let e := s.submitted
    (∀ w,
      (s.submitsKind 1 → exec (.platformFirmware true w) s = .next (s.commandEnds e 1 State.storePending w))
      ∧ (s.submitsKind 2 → exec (.noseFirmware true w) s = .next (s.commandEnds e 2 State.storePending w))
      ∧ (s.submitsKind 3 → exec (.scanPatterns true w) s = .next (s.commandEnds e 3 State.storePending w))
      ∧ (s.submitsKind 4 → exec (.licence true w) s = .next (s.commandEnds e 4 State.storeLicence w))
      ∧ (s.submitsKind 5 → exec (.ownerKey true w) s = .next (s.commandEnds e 5 State.storeOwner w))
      ∧ (s.submitsKind 6 → exec (.policy true w) s = .next (s.commandEnds e 6 State.storePolicy w))
      ∧ (s.submitsKind 7 → exec (.lifeCycleToken true w) s = .next (s.commandEnds e 7 State.transition w))
      ∧ exec (.licence false w) s = .next (s.secEnd 0 0x02))
    ∧ (s.submitsKind 8 → exec (.unlockToken true) s = .next (s.commandEnds e 8 State.unlock true))
    ∧ (e.badFormat = true → s.envRefusal true e = some 0x03)
    ∧ (e.badFormat = false → e.deviceId = s.deviceId → 5 ≤ e.kind → s.carries e = false → s.envRefusal true e = some 0x05)
    ∧ (s.secServes = true →
      (s.security.command.isSome = true →
        exec (.registerWrite 0x4014 4 1) s = .next (s.fset SEC_CMD_STATUS.CODE 0 0x01))
      ∧ (s.security.command = none → exec (.registerWrite 0x4014 4 1) s = .next ((s.setSec { s.security with
          command := some (s.fget SEC_CMD_ADDR.ADDR 0 * 64, s.fget SEC_CMD_LEN.LENGTH 0) }).fset SEC_CMD_STATUS.BUSY 0 1))) := by
  intro e
  have row (k : Nat) (written : Bool) (apply : Env → State → State) (kind : s.submitsKind k) :
      onUnit true (s.secCommand k true written apply) = .next (s.commandEnds e k apply written) :=
    (onUnit_ok rfl).trans (congrArg _ (secCommand_fetched runs kind written apply))
  refine ⟨fun w => ⟨row 1 w State.storePending, row 2 w State.storePending, row 3 w State.storePending,
      row 4 w State.storeLicence, row 5 w State.storeOwner, row 6 w State.storePolicy, row 7 w State.transition,
      (onUnit_ok rfl).trans (congrArg _ (secCommand_notFetched runs w State.storeLicence))⟩,
    row 8 true State.unlock, envRefusal_badFormat, envRefusal_unchallenged, fun serves => ⟨fun busy => ?busy, fun idle => ?idle⟩⟩
  case busy => rw [exec_go serves aon, secGo_busy serves busy]
  case idle => rw [exec_go serves aon, secGo_idle serves idle]

/-! ### Without PD_AON -/

/-- A device whose endpoint and first platform are in service, and PD_AON, the domain of the SEC registers, is not. -/
def aonOff : State :=
  { State.reset with
    domains := [(domAon, .off), (domPcie, .on), (domPlat 0, .on)]
    host := { HostIf.init with ready := true, perst := false, memorySpace := true } }

/-- There no write reaches SEC_CMD_CTRL, and no command starts. -/
theorem aonOff_startsNone : (aonOff.regWrite 0x4014 4 1).security.command = none := by decide +kernel

/-- Refutes O55: its clauses on GO ask that the endpoint and PD_PLAT0 be in service and not PD_AON, in which the SEC registers
answer; in `aonOff` the write of GO starts nothing. Where PD_AON is in service every clause holds (`securityCommands_of_aonUp`). -/
theorem not_securityCommands : ¬ Obligations.SecurityCommands := by
  unfold Obligations.SecurityCommands
  intro h
  have serves : aonOff.secServes = true := by decide +kernel
  obtain ⟨-, -, -, -, go⟩ := h aonOff (Or.inl serves)
  obtain ⟨-, started⟩ := go serves
  have next : onUnit true (aonOff.regWrite 0x4014 4 1) = _ := started rfl
  have none_ := aonOff_startsNone
  rw [onUnit_ok rfl] at next
  rw [Host.Outcome.next.inj next] at none_
  cases none_

end Sys2Proof.Machine
end

section
/-! PROOFS. Requests that are taken up; attestation, keys and entropy. -/
namespace Sys2Proof.Machine

open Sys2Proof

section
variable {s : State} {src : Requester} {xid : Nat}

/-! ### Requests that are taken up (R424, R435, R436) -/

/-- A request that is taken up names its path itself: only a datagram as it comes from the port is not yet one. -/
theorem seen_of_admits (admitted : admits s src = true) : s.seen src = src := by
  cases src with
  | udp a port whole => cases admitted
  | aihar a | malformed a | mctp | doe => rfl

theorem admitTo_of_admits (admitted : admits s src = true) (act : State → State) : s.admitTo src act = act (counted s src) := by
  cases src with
  | doe => rfl
  | mctp => exact if_pos admitted
  | malformed a => cases admitted
  | udp a port whole => cases admitted
  | aihar a =>
    obtain ⟨h, outstanding⟩ := (Bool.and_eq_true _ _).mp admitted
    obtain ⟨h, recent⟩ := (Bool.and_eq_true _ _).mp h
    obtain ⟨h, allowed⟩ := (Bool.and_eq_true _ _).mp h
    obtain ⟨running, aihar⟩ := (Bool.and_eq_true _ _).mp h
    have recent := of_decide_eq_true recent
    have outstanding := of_decide_eq_true outstanding
    have allowed := (Bool.not_eq_true' _).mp allowed
    have within : ¬ (64 ≤ s.requestsOf a ∨ 16 ≤ s.outstandingOf a) := by omega
    have open_ : (!(s.fon NOS_STATUS.RUNNING 0 || s.fon NOS_STATUS.MINIMAL 0) || !s.aiharOn) = false := by
      rw [running, aihar]; rfl
    exact (if_neg (by rw [open_]; decide)).trans ((if_neg (Bool.eq_false_iff.mp allowed)).trans (if_neg within))

/-! ### Attestation requests (R422 to R424) -/

/-- An attestation request that is taken up is answered or, while a KIND 7 command runs, told so. -/
theorem asked_of_admits (admitted : admits s src = true) (act : State → State) :
    s.asked ⟨src, xid⟩ act = (counted s src).unlessBusy src xid act := admitTo_of_admits admitted _

theorem unlessBusy_busy (busy : s.lifeCommand = true) (act : State → State) :
    s.unlessBusy src xid act = s.attAnswer src xid 1 [] := if_pos busy

theorem unlessBusy_free (free : s.lifeCommand = false) (act : State → State) : s.unlessBusy src xid act = act s :=
  if_neg (by rw [free]; decide)

theorem seenAsker_of_admits (admitted : admits s src = true) : s.seenAsker ⟨src, xid⟩ = ⟨src, xid⟩ :=
  congrArg (Asker.mk · xid) (seen_of_admits admitted)

section
variable (ok : src.ok = true) (admitted : admits s src = true)
include ok admitted

theorem exec_attestReport (nonce : List Byte) : exec (.attestReport nonce ⟨src, xid⟩) s
    = .next ((counted s src).unlessBusy src xid fun t => t.attestReport nonce src xid) := by
  refine (onUnit_ok ok).trans (congrArg _ ?_)
  rw [seenAsker_of_admits admitted, asked_of_admits admitted]

theorem exec_attestPublicKey : exec (.attestPublicKey ⟨src, xid⟩) s
    = .next ((counted s src).unlessBusy src xid fun t => t.attestKey src xid) := by
  refine (onUnit_ok ok).trans (congrArg _ ?_)
  rw [seenAsker_of_admits admitted, asked_of_admits admitted]

theorem exec_attestLog : exec (.attestLog ⟨src, xid⟩) s
    = .next ((counted s src).unlessBusy src xid fun t => t.attestLog src xid) := by
  refine (onUnit_ok ok).trans (congrArg _ ?_)
  rw [seenAsker_of_admits admitted, asked_of_admits admitted]

end

section
variable {nonce : List Byte} (len : nonce.length = 32)
include len

theorem attestReport_exhausted (used : s.fon SEC_STATUS.KEY_EXHAUSTED 0 = true) :
    s.attestReport nonce src xid = s.attAnswer src xid 2 [] :=
  (if_neg (not_not.2 len)).trans (if_pos used)

section
variable (left : s.fon SEC_STATUS.KEY_EXHAUSTED 0 = false)
include left

theorem attestReport_stateFailed (failed : s.fon SEC_STATUS.KEY_STATE_FAIL 0 = true) :
    s.attestReport nonce src xid = s.attAnswer src xid 3 [] :=
  (if_neg (not_not.2 len)).trans ((if_neg (by rw [left]; decide)).trans (if_pos failed))

variable (state : s.fon SEC_STATUS.KEY_STATE_FAIL 0 = false)
include state

theorem attestReport_signed (ready : s.fon SEC_STATUS.KEY_READY 0 = true) :
    s.attestReport nonce src xid = (s.signReport nonce).2.attAnswer src xid 0 (s.signReport nonce).1 :=
  (if_neg (not_not.2 len)).trans ((if_neg (by rw [left]; decide)).trans ((if_neg (by rw [state]; decide)).trans (if_pos ready)))

theorem attestReport_waits (notReady : s.fon SEC_STATUS.KEY_READY 0 = false) : s.attestReport nonce src xid
    = s.setSec { s.security with waiting := s.security.waiting ++ [⟨1, nonce, src, xid⟩] } :=
  (if_neg (not_not.2 len)).trans ((if_neg (by rw [left]; decide)).trans ((if_neg (by rw [state]; decide)).trans
    (if_neg (by rw [notReady]; decide))))

end

end

theorem attestKey_made (made : s.security.keyMade = true) :
    s.attestKey src xid = s.attAnswer src xid 0 (s.deviceId ++ s.identityBytes) := if_pos made

theorem attestKey_none (blank : s.security.keyMade = false) :
    s.attestKey src xid = s.attAnswer src xid Config.noKeyStatus.toNat [] := if_neg (by rw [blank]; decide)

/-! ### Bottom trees (R420, R421) -/

/-- A part with a key, a healthy source and no tree that is ready, which can take a new one. -/
structure State.WantsTree (s : State) : Prop where
  notReady : s.fon SEC_STATUS.KEY_READY 0 = false
  epochsLeft : s.fon SEC_STATUS.KEY_EXHAUSTED 0 = false
  stateGood : s.fon SEC_STATUS.KEY_STATE_FAIL 0 = false
  healthy : s.unhealthy = false
  keyMade : s.security.keyMade = true

theorem bottomTree_written (wants : s.WantsTree) {n F : Nat}
    (next : nextLeaf s.security.keyCopies (s.fget ATT_EPOCH.EPOCHS 0) = some (n, F)) :
    s.bottomTree true = (let t := s.fset ATT_EPOCH.EPOCHS 0 F
      ((((t.setSec { t.security with keyCopies := [some (n + 1), some (n + 1)] }).fset
        ATT_KEY.TOP_LEAF 0 n).fset ATT_KEY.BOTTOM_USED 0 0).fset SEC_STATUS.KEY_READY 0 1).answerWaiting) := by
  simp only [State.bottomTree, wants.notReady, wants.epochsLeft, wants.stateGood, wants.healthy, wants.keyMade, next,
    Bool.or_false, Bool.not_true, Bool.false_eq_true, if_false, if_true]

theorem bottomTree_notWritten (wants : s.WantsTree) {n F : Nat}
    (next : nextLeaf s.security.keyCopies (s.fget ATT_EPOCH.EPOCHS 0) = some (n, F)) :
    s.bottomTree false = ((s.fset ATT_EPOCH.EPOCHS 0 F).fset SEC_STATUS.KEY_STATE_FAIL 0 1).answerWaiting := by
  simp only [State.bottomTree, wants.notReady, wants.epochsLeft, wants.stateGood, wants.healthy, wants.keyMade, next,
    Bool.or_false, Bool.not_true, Bool.false_eq_true, if_false]

/-! ### Entropy and unlock tokens (R419, R427) -/

section
variable (failed : s.unhealthy = true)
include failed

theorem entropyPass_noChallenge (none_ : s.security.challengeDue = false) :
    s.entropyPass = (s.setSec { s.security with startTest := false }).fset SEC_STATUS.ENTROPY_FAIL 0 0 :=
  (if_pos failed).trans (if_neg (Bool.eq_false_iff.mp none_))

theorem entropyPass_challengeDue (due : s.security.challengeDue = true) :
    s.entropyPass = ((s.setSec { s.security with startTest := false }).fset SEC_STATUS.ENTROPY_FAIL 0 0).drawChallenge :=
  (if_pos failed).trans (if_pos due)

theorem attEntropy_first {r : AttRequest} {rest : List AttRequest} (first : s.security.waiting = r :: rest) :
    s.attEntropy = (s.setSec { s.security with waiting := rest }).attAnswer r.source r.xid 4 [] := by
  simp only [State.attEntropy, first, failed, if_true]

end

theorem unlockExpire_inForce (inForce : s.unlocked = true) : s.unlockExpire = s :=
  if_pos (by rw [inForce, Bool.or_true])

theorem unlockExpire_over (some_ : s.security.unlockEnd.isSome = true) (over_ : s.unlocked = false) :
    s.unlockExpire = s.unlockOver :=
  if_neg (by rw [over_, Option.isNone_eq_false_iff.2 some_]; decide)

end

/-- Settles O56: a request by whether it is taken up and what the key is, a tree by whether it is written. -/
theorem attestation : Obligations.Attestation := by
  unfold Obligations.Attestation
  refine ⟨fun s src xid nonce ok admitted => ⟨fun busy => ?busy, fun free => ?free⟩, fun s => ⟨?tree, onUnit_ok rfl,
    fun failed => ⟨fun none_ => ?passes, fun due => ?draws, fun r rest first => ?waited⟩, fun inForce => ?inForce,
    fun some_ over_ => ?over_⟩⟩
  case busy =>
    rw [exec_attestReport ok admitted, exec_attestPublicKey ok admitted, exec_attestLog ok admitted]
    exact ⟨congrArg _ (unlessBusy_busy busy _), congrArg _ (unlessBusy_busy busy _), congrArg _ (unlessBusy_busy busy _)⟩
  case free =>
    rw [exec_attestReport ok admitted, exec_attestPublicKey ok admitted, exec_attestLog ok admitted, unlessBusy_free free,
      unlessBusy_free free, unlessBusy_free free]
    exact ⟨fun len => ⟨fun used => congrArg _ (attestReport_exhausted len used),
        fun left => ⟨fun bad => congrArg _ (attestReport_stateFailed len left bad),
          fun good => ⟨fun ready => congrArg _ (attestReport_signed len left good ready),
            fun wait => congrArg _ (attestReport_waits len left good wait)⟩⟩⟩,
      fun made => congrArg _ (attestKey_made made), fun blank => congrArg _ (attestKey_none blank), rfl⟩
  case tree =>
    intro n F notReady left good healthy made next t
    have wants : s.WantsTree := ⟨notReady, left, good, healthy, made⟩
    exact ⟨(onUnit_ok rfl).trans (congrArg _ (bottomTree_written wants next)),
      (onUnit_ok rfl).trans (congrArg _ (bottomTree_notWritten wants next))⟩
  case passes => exact (onUnit_ok rfl).trans (congrArg _ (entropyPass_noChallenge failed none_))
  case draws => exact (onUnit_ok rfl).trans (congrArg _ (entropyPass_challengeDue failed due))
  case waited => exact (onUnit_ok rfl).trans (congrArg _ (attEntropy_first failed first))
  case inForce => exact (onUnit_ok rfl).trans (congrArg _ (unlockExpire_inForce inForce))
  case over_ => exact (onUnit_ok rfl).trans (congrArg _ (unlockExpire_over some_ over_))

end Sys2Proof.Machine
end

section
/-! PROOFS. Sensors and error records. -/
namespace Sys2Proof.Machine

open Sys2Proof

section
variable {s : State} {i p k seq : Nat} {x : Option Int}

/-! ### The value of a sample (R428) -/

theorem sampleOf_off (off : s.sensorOn i = false) (x : Option Int) : s.sampleOf i x = none := if_pos (by rw [off]; rfl)

section
variable (on : s.sensorOn i = true)
include on

theorem sampleOf_bus (noDroops : i < 96 ∨ 108 ≤ i) (noChannel : i < 300) (x : Option Int) : s.sampleOf i x = x := by
  have noDroops : ¬ (96 ≤ i ∧ i < 108) := by omega
  exact (if_neg (by rw [on]; decide)).trans ((if_neg noDroops).trans (if_neg (by omega)))

theorem sampleOf_channel (channel : 300 ≤ i) (x : Option Int) :
    s.sampleOf i x = some (s.fget MEM_CH_STATE.TEMP (i - 300) : Int) := by
  have noDroops : ¬ (96 ≤ i ∧ i < 108) := by omega
  exact (if_neg (by rw [on]; decide)).trans ((if_neg noDroops).trans (if_pos channel))

end

/-- The sensor of a partition's droops answers while the platform of its die is in service. -/
theorem sensorOn_droops (hp : p < 12) : s.sensorOn (96 + p) = s.up (domPlat (dieOfPart p)) :=
  (if_neg (by omega)).trans ((if_pos (by omega)).trans (by rw [Nat.add_sub_cancel_left]))

theorem sampleOf_droops (hp : p < 12) (up : s.up (domPlat (dieOfPart p)) = true)
    (since : mget zeroNat s.nose.droops p ≤ s.fget DRP_COUNT.COUNT p) (x : Option Int) : s.sampleOf (96 + p) x
      = some ((s.fget DRP_COUNT.COUNT p - mget zeroNat s.nose.droops p : Nat) : Int) := by
  have on : s.sensorOn (96 + p) = true := (sensorOn_droops hp).trans up
  have droops : 96 ≤ 96 + p ∧ 96 + p < 108 := by omega
  refine (if_neg (by rw [on]; decide)).trans ((if_pos droops).trans ?_)
  simp only [Nat.add_sub_cancel_left, if_pos since]

/-! ### A sample joins those of its sensor (R429, R430) -/

/-- The monitor of a critical path acts on its own sample (R356). -/
def State.monitored (s : State) (i : Nat) (x : Int) : State :=
  if 108 ≤ i ∧ i < 120 ∧ s.up (domArr (i - 108)) then s.monitor (i - 108) (x / 1000).toNat else s

/-- A sample joins the last eight of its sensor, and the request is found anew. -/
def State.joinSample (s : State) (i : Nat) (y : Int) : State :=
  (s.setNose { s.nose with
    absent := mput noBool s.nose.absent i false
    samples := mput (fun _ => []) s.nose.samples i ((y :: mget (fun _ => []) s.nose.samples i).take 8) }).findRequest

/-- A sensor whose source is off has no sample, and the request is found anew. -/
def State.dropSamples (s : State) (i : Nat) : State :=
  (s.setNose { s.nose with
    absent := mput noBool s.nose.absent i true, samples := mput (fun _ => []) s.nose.samples i [] }).findRequest

theorem sensorSample_joins {v y : Int} (running : (s.monitored i v).fon NOS_STATUS.RUNNING 0 = true)
    (sample : (s.monitored i v).sampleOf i (some v) = some y) :
    s.sensorSample i (some v) = ((s.monitored i v).seeDroops i).joinSample i y := by
  simp only [State.monitored] at running sample
  simp only [State.sensorSample, State.monitored, State.joinSample, running, sample, Bool.not_true, Bool.false_eq_true, if_false]

theorem sensorSample_notRunning {v : Int} (stopped : (s.monitored i v).fon NOS_STATUS.RUNNING 0 = false) :
    s.sensorSample i (some v) = s.monitored i v := if_pos (by simpa [State.monitored] using stopped)

theorem sensorSample_absent (running : s.fon NOS_STATUS.RUNNING 0 = true) (none_ : s.sampleOf i none = none) :
    s.sensorSample i none = (s.seeDroops i).dropSamples i := by
  simp only [State.sensorSample, State.dropSamples, running, none_, Bool.not_true, Bool.false_eq_true, if_false]

theorem exec_sensorSample (hi : i < 684) (x : Option Int) : exec (.sensorSample i x) s = .next (s.sensorSample i x) :=
  onUnit_ok (decide_eq_true hi)

/-! ### The power request (R430) -/

theorem requestClear_quiet (running : s.fon NOS_STATUS.RUNNING 0 = true) (up : s.up (domPlat 0) = true)
    (none_ : (s.nose.conditions.any fun e => e.2) = false)
    (quiet : ∀ t, s.nose.lastCondition = some t → t + 10 ^ 9 ≤ s.tally.time) (requested : s.fget PWR_REQUEST.REASON 0 ≠ 0) :
    s.requestClear = s.setRequest 0 0 := by
  have requested : (s.fget PWR_REQUEST.REASON 0 != 0) = true := bne_iff_ne.mpr requested
  cases last : s.nose.lastCondition with
  | none => simp only [State.requestClear, last, running, up, none_, requested, Bool.not_false, Bool.and_self, if_true]
  | some t =>
    simp only [State.requestClear, last, running, up, none_, requested, decide_eq_true (quiet t last), Bool.not_false,
      Bool.and_self, if_true]

/-! ### Error records (R432, R433, R438) -/

/-- The record of one occurrence that the Nose makes now. -/
def State.recordNow (s : State) (e : ErrorRecord) : Record :=
  { injected := e.injected, severity := e.severity, block := e.block, code := e.code, seq := s.fget NOS_LOG.NEXT_SEQ 0,
    tally := s.tally.count, time := s.tally.time, inst := e.inst, cx := e.cx, count := 1, detail := e.detail }

/-- A record with its number enters a log that has room. -/
def State.logged (s : State) (r : Record) : State :=
  let t := s.fset NOS_LOG.NEXT_SEQ 0 (r.seq + 1)
  { t with nose := { t.nose with log := t.nose.log ++ [r] } }

/-- A record in the log goes to the collectors, to MCTP and to the error ring, and may trigger a snapshot. -/
def State.routed (s : State) (r : Record) (severity : Nat) : State :=
  let t := ((s.push 9 r.seq (r.toBytes false)).emit (.mctpInterrupt r.seq)).toErrorRing r
  if t.fon SNP_CTRL.ERROR_ENABLE 0 && t.fget SNP_CTRL.MIN_SEVERITY 0 ≤ severity then t.localTrigger 3 else t

theorem accept_room {e : ErrorRecord} (whole : s.fon NOS_STATUS.MINIMAL 0 = false) (room : s.nose.log.length < 4096) :
    s.accept e 1 = (s.logged (s.recordNow e)).routed (s.recordNow e) e.severity := by
  have room : ¬ s.nose.log.length ≥ 4096 := by omega
  refine (if_neg (by rw [whole]; decide)).trans ?_
  simp only [if_neg room]
  rfl

theorem pushAgain_owed {r : Record} (found : (s.nose.log.find? fun r => r.seq == seq) = some r)
    (valid : s.collectors.contains k = true) (aihar : s.aiharOn = true) (owed : s.ackedBy k seq = false)
    (running : s.fon NOS_STATUS.RUNNING 0 = true) :
    s.pushAgain k seq = s.sendDatagram (s.collectorAddr k) 9 0 seq 0 (r.toBytes false) := by
  simp only [State.pushAgain, found, valid, aihar, owed, running, Bool.not_false, Bool.and_self, if_true]

end

/-- Settles O57: a sample by whether its source answers, a record by the room in the log. -/
theorem sensorsAndRecords : Obligations.SensorsAndRecords := by
  unfold Obligations.SensorsAndRecords
  intro s
  refine ⟨fun i x hi => ⟨fun running y sample => ?joins, fun stopped => ?stopped⟩, fun i hi running none_ => ?absent,
    fun i x noDroops noChannel on => sampleOf_bus on noDroops noChannel x, fun i x off => sampleOf_off off x,
    fun i x channel on => sampleOf_channel on channel x, fun p x hp up since => sampleOf_droops hp up since x,
    fun running up none_ quiet requested => ?cleared, fun e ok whole room => ?recorded,
    fun k seq r hk found valid aihar owed running => ?resent⟩
  case joins => exact (exec_sensorSample hi _).trans (congrArg _ (sensorSample_joins running sample))
  case stopped => exact (exec_sensorSample hi _).trans (congrArg _ (sensorSample_notRunning stopped))
  case absent => exact (exec_sensorSample hi _).trans (congrArg _ (sensorSample_absent running none_))
  case cleared => exact (onUnit_ok rfl).trans (congrArg _ (requestClear_quiet running up none_ quiet requested))
  case recorded => exact (onUnit_ok ok).trans (congrArg _ (accept_room whole room))
  case resent =>
    exact (onUnit_ok (decide_eq_true hk)).trans (congrArg _ (pushAgain_owed found valid aihar owed running))

end Sys2Proof.Machine
end

section
/-! PROOFS. The operations of the Nose, the management port and snapshots. -/
namespace Sys2Proof.Machine

open Sys2Proof

section
variable {s : State} {src : Requester} {xid : Nat}

/-! ### Operations (R431, R435 to R437) -/

/-- An operation, as `op` of the path by which it comes, that brings the device to `t`. -/
theorem onUnit_taken (ok : src.ok = true) (admitted : admits s src = true) (op : Requester → State) {t : State}
    (taken : op src = t) : onUnit src.ok (op (s.seen src)) = .next t := by
  rw [onUnit_ok ok, seen_of_admits admitted, taken]

section
variable (port : src ≠ .doe) (admitted : admits s src = true)
include port admitted

/-- An operation that the Nose takes up acts: any while the whole firmware runs, some on the minimal responder too. -/
theorem managed_of_admits {always : Bool} (serves : (s.fon NOS_STATUS.MINIMAL 0 && !always) = false) (act : State → State) :
    s.managed src always act = act (counted s src) := by
  have taken : ¬ (src == .doe || (s.fon NOS_STATUS.MINIMAL 0 && !always)) = true := by
    rw [serves, beq_false_of_ne port]; decide
  exact (if_neg taken).trans (admitTo_of_admits admitted act)

theorem status_answered : s.status src xid = (counted s src).reply src 0x01 ansOk xid
    ([Reg.LCS_STATE, .BRG_STATUS, .PWR_MEASURE, .PWR_REQUEST, .NOS_STATUS, .MEM_SUMMARY, .FAB_STATUS].flatMap
      (counted s src).regBytes) :=
  managed_of_admits port admitted (Bool.and_false _) _

variable (whole : s.fon NOS_STATUS.MINIMAL 0 = false)
include whole

theorem managed_whole (act : State → State) : s.managed src false act = act (counted s src) :=
  managed_of_admits port admitted (by rw [whole]; rfl) act

section
variable {a n : Nat}

theorem sensors_inRange (count : n ≤ 256) (last : a + n ≤ 684) : s.sensors src xid a n
    = (counted s src).reply src 0x02 ansOk xid
      ((List.range n).flatMap fun i => leBytes 4 ((counted s src).sensorWord (a + i)).toNat) := by
  have inRange : ¬ (256 < n ∨ 684 < a + n) := by omega
  exact (managed_whole port admitted whole _).trans (if_neg inRange)

theorem sensors_outOfRange (outside : 256 < n ∨ 684 < a + n) :
    s.sensors src xid a n = (counted s src).reply src 0x02 ansRange xid [] :=
  (managed_whole port admitted whole _).trans (if_pos outside)

theorem records_inRange (count : n ≤ 20) : s.records src xid a n = (counted s src).reply src 0x03 ansOk xid
    ((((counted s src).nose.log.filter fun r => decide (a ≤ r.seq)).take n).flatMap fun r => r.toBytes false) :=
  (managed_whole port admitted whole _).trans (if_neg (Nat.not_lt.2 count))

theorem records_outOfRange (outside : 20 < n) : s.records src xid a n = (counted s src).reply src 0x03 ansRange xid [] :=
  (managed_whole port admitted whole _).trans (if_pos outside)

theorem snapshotRead_inRange (inside : a + n ≤ snapshotSpace) :
    s.snapshotRead src xid a n = (counted s src).reply src 0x07 ansOk xid ((counted s src).snapshotBytes a n) :=
  (managed_whole port admitted whole _).trans (if_neg (Nat.not_lt.2 inside))

theorem snapshotRead_outOfRange (outside : snapshotSpace < a + n) :
    s.snapshotRead src xid a n = (counted s src).reply src 0x07 ansRange xid [] :=
  (managed_whole port admitted whole _).trans (if_pos outside)

end

theorem snapshotTrigger_up (up : (counted s src).up (domPlat 0) = true) :
    s.snapshotTrigger src xid = ((counted s src).localTrigger 2).reply src 0x06 ansOk xid [] :=
  (managed_whole port admitted whole _).trans (if_pos up)

theorem snapshotTrigger_down (down : (counted s src).up (domPlat 0) = false) :
    s.snapshotTrigger src xid = (counted s src).reply src 0x06 ansRefused xid [] :=
  (managed_whole port admitted whole _).trans (if_neg (by rw [down]; decide))

end

/-! ### Acknowledgements (R433) -/

/-- The collectors that a request comes from; one by MCTP names none. -/
def State.acking (s : State) : Requester → List Nat
  | .aihar a => s.collectors.filter fun k => s.collectorAddr k == a
  | _ => []

/-- Collector `k` has the records up to SEQ. -/
def ackUpTo (seq k : Nat) (s : State) : State :=
  s.setNose { s.nose with acked := mput noSeq s.nose.acked k (some (max seq ((mget noSeq s.nose.acked k).getD 0))) }

/-- Records that every valid collector has leave the log. -/
def State.dropAcked (s : State) : State :=
  s.setNose { s.nose with log := s.nose.log.filter fun r =>
    s.collectors.isEmpty || !(s.collectors.all fun k => s.ackedBy k r.seq) }

theorem aiharAck_acked (port : src ≠ .doe) (admitted : admits s src = true) (whole : s.fon NOS_STATUS.MINIMAL 0 = false)
    (seq : Nat) : s.aiharAck src xid seq
      = (((counted s src).forEach ((counted s src).acking src) (ackUpTo seq)).dropAcked).reply src 0x04 ansOk xid [] :=
  (managed_whole port admitted whole _).trans rfl

/-! ### Frames on the management port (R434, R436) -/

theorem frameTaken_iff (f : MgtFrame) : s.frameTaken f = true ↔ s.fon MGT_CTRL.LINK 0 = true ∧ s.fon NOS_STATUS.RUNNING 0 = true
    ∧ f.fragment = false ∧ f.length ≤ (if f.tagged then 1522 else 1518)
    ∧ (s.fon MGT_CTRL.ALLOW_ONLY 0 = true → ∃ k ∈ s.collectors, s.collectorAddr k = f.source) := by
  have allowed : (!s.fon MGT_CTRL.ALLOW_ONLY 0 || s.collectors.any fun k => s.collectorAddr k == f.source) = true
      ↔ (s.fon MGT_CTRL.ALLOW_ONLY 0 = true → ∃ k ∈ s.collectors, s.collectorAddr k = f.source) := by
    cases s.fon MGT_CTRL.ALLOW_ONLY 0 <;> simp
  simp only [State.frameTaken, Bool.and_eq_true, allowed, Bool.not_eq_true', decide_eq_true_eq, and_assoc]

theorem frameAnswer_taken {f : MgtFrame} {mine : Bool} (taken : s.frameTaken f = true) (own : mine = true) (body : List Byte) :
    s.frameAnswer f mine body = s.emit (.ethernet body) := if_pos (by rw [taken, own]; rfl)

theorem frameAnswer_dropped {f : MgtFrame} {mine : Bool} (other : s.frameTaken f = false ∨ mine = false) (body : List Byte) :
    s.frameAnswer f mine body = s := if_neg (by rcases other with h | h <;> simp [h])

theorem ownAddress_ipv4 {a : Nat} (set_ : a ≠ 0) (own : a = s.fget MGT_IPV4.ADDR 0) : s.ownAddress false a = true :=
  decide_eq_true ⟨own, set_⟩

theorem ownAddress_ipv6 {a : Nat} (own : a = linkLocal ∨ (a = s.ipv6 ∧ a ≠ 0)) : s.ownAddress true a = true :=
  decide_eq_true own

/-! ### Datagrams (R434) -/

section
variable {a port : Nat} {whole : Bool}

theorem ok_udp (ha : a < 2 ^ 128) (hp : port < 65536) : (Requester.udp a port whole).ok = true := by
  rw [Requester.ok, decide_eq_true ha, decide_eq_true hp]; rfl

theorem seen_udp_own (arrived : whole = true) (own : port = s.fget MGT_CTRL.PORT 0) :
    s.seen (.udp a port whole) = .aihar a :=
  if_pos (by rw [arrived, own, beq_self_eq_true]; rfl)

theorem seen_udp_other (other : whole = false ∨ port ≠ s.fget MGT_CTRL.PORT 0) :
    s.seen (.udp a port whole) = .udp a port whole :=
  if_neg (by rcases other with h | h <;> simp [h])

theorem exec_status_udp_own (ha : a < 2 ^ 128) (hp : port < 65536) (arrived : whole = true)
    (own : port = s.fget MGT_CTRL.PORT 0) : exec (.status (.udp a port whole) xid) s = exec (.status (.aihar a) xid) s := by
  have same : s.status (s.seen (.udp a port whole)) xid = s.status (s.seen (.aihar a)) xid := by
    rw [seen_udp_own arrived own]; rfl
  exact (onUnit_ok (ok_udp ha hp)).trans ((congrArg _ same).trans (onUnit_ok (decide_eq_true ha)).symm)

theorem status_udp : s.status (.udp a port whole) xid = s := by
  have taken : ¬ (Requester.udp a port whole == .doe || (s.fon NOS_STATUS.MINIMAL 0 && !true)) = true := by
    rw [beq_false_of_ne (by simp)]; simp
  exact if_neg taken

theorem exec_status_udp_other (ha : a < 2 ^ 128) (hp : port < 65536) (other : whole = false ∨ port ≠ s.fget MGT_CTRL.PORT 0) :
    exec (.status (.udp a port whole) xid) s = .next s :=
  (onUnit_ok (ok_udp ha hp)).trans (congrArg _ (by rw [seen_udp_other other, status_udp]))

end

end

/-- Settles O58: an operation by the range of what it names, a frame by whether it is taken, a datagram by its port. -/
theorem managementOperations : Obligations.ManagementOperations := by
  unfold Obligations.ManagementOperations
  constructor
  · intro s src xid ok port admitted t
    have took (op : Requester → State) {u : State} (taken : op src = u) := onUnit_taken ok admitted op taken
    refine ⟨took (s.status · xid) (status_answered port admitted), fun whole => ⟨fun a n count last => ?_, fun a n outside => ?_,
      fun a n count => ?_, fun a n outside => ?_, fun seq mctp => ?_, fun a seq k aihar one => ?_, fun up => ?_, fun down => ?_,
      fun off n inside => ?_, fun off n outside => ?_⟩⟩
    · exact took (s.sensors · xid a n) (sensors_inRange port admitted whole count last)
    · exact took (s.sensors · xid a n) (sensors_outOfRange port admitted whole outside)
    · exact took (s.records · xid a n) (records_inRange port admitted whole count)
    · exact took (s.records · xid a n) (records_outOfRange port admitted whole outside)
    · subst mctp
      exact took (s.aiharAck · xid seq) (aiharAck_acked port admitted whole seq)
    · subst aihar
      have mine : (counted s (.aihar a)).acking (.aihar a) = [k] := one
      exact took (s.aiharAck · xid seq) ((aiharAck_acked port admitted whole seq).trans (by rw [mine]; rfl))
    · exact took (s.snapshotTrigger · xid) (snapshotTrigger_up port admitted whole up)
    · exact took (s.snapshotTrigger · xid) (snapshotTrigger_down port admitted whole down)
    · exact took (s.snapshotRead · xid off n) (snapshotRead_inRange port admitted whole inside)
    · exact took (s.snapshotRead · xid off n) (snapshotRead_outOfRange port admitted whole outside)
  · intro s
    exact ⟨frameTaken_iff, fun f ok taken =>
        ⟨fun set_ own => (onUnit_ok ok).trans (congrArg _ (frameAnswer_taken taken (ownAddress_ipv4 set_ own) _)),
          fun b own => (onUnit_ok ok).trans (congrArg _ (frameAnswer_taken taken own _)),
          fun own => (onUnit_ok ok).trans (congrArg _ (frameAnswer_taken taken (ownAddress_ipv6 own) _))⟩,
      fun f b ok other => (onUnit_ok ok).trans (congrArg _ (frameAnswer_dropped other _)),
      fun a port whole xid ha hp => ⟨exec_status_udp_own ha hp, exec_status_udp_other ha hp⟩,
      onUnit_ok rfl, onUnit_ok rfl, fun h => (onUnit_ok rfl).trans (congrArg _ (writeTo_reached h _)),
      fun h => (onUnit_ok rfl).trans (congrArg _ (writeTo_reached h _))⟩

end Sys2Proof.Machine
end

section
/-! PROOFS. The queue of commands. -/
namespace Sys2Proof.Machine

open Sys2Proof

section
variable {s : State} {c : Instr} {rest : List Instr}

theorem step_front (front : s.pending = c :: rest) : step s = exec c { s with pending := rest } := by
  simp only [step, front]

theorem step_empty (empty : s.pending = []) : step s = .next s.idle := by
  simp only [step, empty]

end

/-- Settles O1: a step looks at the queue alone; a queue that is set to `c` and a rest has `c` at its front. -/
theorem stepRunsFront : Obligations.StepRunsFront := by
  unfold Obligations.StepRunsFront
  exact fun s => ⟨fun c rest => step_front, step_empty, fun c rest => step_front rfl⟩

end Sys2Proof.Machine
end
